-- ==== Sys2Proof/Word.lean ====
section
/-! DEFINITION. The words of the model: bytes, Z36 words (01 R28) and sparse tables. -/

namespace Sys2Proof

/-- A byte of a buffer, a frame or a memory. -/
abbrev Byte := BitVec 8

/-- A 36-bit two's-complement word: a Z36 sample (01 R28) or a Lane word (03 R82). -/
abbrev W36 := BitVec 36

/-- A sparse table: pairs of key and value, keys strictly rising, no value equal to the table's default. -/
abbrev Tab (α : Type) := List (Nat × α)

end Sys2Proof
end

