-- ==== Sys2Proof/Syntax.lean ====
section
/-! DEFINITION. The commands of the ZN1840: one constructor per row of spec/opcode_table.json, with the types of their
operands. -/

namespace Sys2Proof

/-- The operand of a row that carries no value (DESIGN CHOICE, log entry 173): what the row promises there the model
computes from State, so that
no sender can bring a wrong one. -/
abbrev Computed := Unit

/-- The two pins of a supervised priority input at one reading (02 R56, 16 R505). -/
structure PriPin where
  /-- Level of PRI_A. -/
  a : Bool
  /-- Level of PRI_B. -/
  b : Bool
  /-- PRI_A reads open. -/
  openA : Bool := false
  /-- PRI_B reads open. -/
  openB : Bool := false
deriving DecidableEq, Repr

/-- Where a transmission is cut short: its port, and how many bytes of the frame had gone (08 R279). -/
structure TxCut where
  /-- The port, 4 for the service port. -/
  port : Fin 5
  /-- Bytes sent before the buffer ran dry. -/
  sent : Nat
deriving DecidableEq, Repr

/-- A memory of a Lane (03 R82). -/
inductive LaneMem where
  /-- X data memory. -/
  | x
  /-- Y coefficient memory. -/
  | y
  /-- P program memory. -/
  | p
deriving DecidableEq, Repr

/-- An address mode of a lane load or store (04 R126). -/
inductive AddrMode where
  /-- @PTk. -/
  | ptr (k : BitVec 3)
  /-- @PTk+. -/
  | inc (k : BitVec 3)
  /-- @PTk−. -/
  | dec (k : BitVec 3)
  /-- @PTk[d]. -/
  | disp (k : BitVec 3) (d : BitVec 6)
  /-- @abs. -/
  | abs (a : BitVec 13)
  /-- @PTk+1. -/
  | incOne (k : BitVec 3)
  /-- @PTk−1. -/
  | decOne (k : BitVec 3)
deriving DecidableEq, Repr

/-- A parallel load of format M (04 R137): destination, pointer code, post-step. -/
structure ParLoad where
  /-- Destination D register. -/
  d : BitVec 4
  /-- Pointer code. -/
  p : BitVec 2
  /-- Post-step by DT. -/
  post : Bool
deriving DecidableEq, Repr

/-- What a lane store writes (04 R139). -/
inductive StoreSrc where
  /-- A D register. -/
  | d (r : BitVec 4)
  /-- An accumulator's high field. -/
  | ac (r : BitVec 2)
deriving DecidableEq, Repr

/-- A control register of a Lane (04 R125). -/
inductive LaneCr where
  /-- LST. -/
  | lst
  /-- LCTL. -/
  | lctl
  /-- EPC. -/
  | epc
deriving DecidableEq, Repr

/-- A record of an Octot frame, or a forwarded command or datum on its way (10 R316, R319, R325). The spec gives a record's
header and what its payload carries, not the payload's layout, so the payload stands as fields. -/
structure FwdRec where
  /-- TYPE: 1 forwarded command, 2 seed item of a block, 3 accepted upstream frame, 4 other seed item, 5 forwarded Data
  Port data, 6 configuration. -/
  type : Nat := 0
  /-- Command code; Data Port space; link; block; 0 to 127 drive channel and 128 to 191 player of a seed item. -/
  code : Nat := 0
  /-- Address of Data Port data. -/
  addr : Nat := 0
  /-- Effect wave of forwarded content, or the wave of a seed item. -/
  wave : BitVec 64 := 0
  /-- Command payload, data, or the bytes of an upstream frame. -/
  bytes : List Byte := []
  /-- Values of a seed item. -/
  vals : List Int := []
  /-- Kiosk of this unit that waits for the effect, 32 for none. -/
  kiosk : Nat := 32
deriving DecidableEq, Repr

/-- A word of the eDRAM and what it holds (12 R390). -/
structure MemAt where
  /-- 0 gain, 1 delay pool, 2 receive area, 3 player area. -/
  region : Fin 4 := 0
  /-- Memory bank (the macro of the manual) within the region; district x 8 + tile for gain. -/
  bank : Nat := 0
  /-- Word within the macro; gain-space index of a gain word. -/
  word : Nat := 0
  /-- Delay line, receive stream or player whose sample it holds. -/
  line : Nat := 0
  /-- Place of the sample in its line or buffer. -/
  pos : Nat := 0
  /-- First of the two channels of a receive word. -/
  chan : Nat := 0
deriving DecidableEq, Repr

/-- A transaction that a master issues on the bus matrix (12 R384). -/
structure BusTx where
  /-- Master number (12 R378). -/
  master : Fin 8 := 0
  /-- Transaction ID. -/
  id : BitVec 8 := 0
  /-- A write. -/
  write_ : Bool := false
  /-- 40-bit address. -/
  addr : BitVec 40 := 0
  /-- Bytes of a beat: 2 to this power, 0 to 4. -/
  size : Fin 5 := 0
  /-- Beats, 1 to 16. -/
  beats : Nat := 1
  /-- A wrapping burst. -/
  wrap : Bool := false
  /-- Bytes written, in beat order; none where the byte enable is 0. -/
  data : List (Option (BitVec 8)) := []
  /-- The memory reports an uncorrectable error in the data read. -/
  ded : Bool := false
  /-- Host memory: what a PCIe read completion returned, or none for a failed completion (12 R380). -/
  host : Option (List (BitVec 8)) := none
  /-- Beats transferred when the next command comes; none: the transaction is answered. -/
  cut : Option Nat := none
  /-- Data Port channel of a transaction of master 3, ring of one of master 4. -/
  chan : Nat := 0
deriving DecidableEq, Repr

/-- The commands, in the order of the table. -/
inductive Instr where
  /-- MEDIA_TICK (R21): At each media tick the input ports latch sample n and the output ports present the words handed off in the output window. -/
  | mediaTick (pins : List PriPin) (tdm : List (Nat × BitVec 32)) (late : List (Fin 64)) (deds : List MemAt) (ddr : List (Nat × Nat × BitVec 40))
  /-- WAVE_LAUNCH (R19): When the output window opens, all input areas flip, outside writes are applied, events are latched and wave n is launched; this is also the deadline of the previous wave. -/
  | waveLaunch
  /-- TILE_COMPLETE (R22): A tile completes its wave before the deadline; its slack is measured and its results are committed. -/
  | tileComplete (site : Nat) (slack : BitVec 8) (ecc ded : List Nat) (differs : Bool)
  /-- XP_ENTRY_TIMEOUT (R45): A pending entry whose row has not crossed zero by wave e + N is applied by timeout and counted. -/
  | xpEntryTimeout (node : Fin 5242880)
  /-- XP_TIMEOUT_LOG (R47): Timeouts counted within 4,096 waves of a Square's last record are logged together in one NOTE. -/
  | xpTimeoutLog (square : Fin 80)
  /-- SCENE_COMMIT_RUN (R52): At commit wave c, as soon as possible or at AT_SAMPLE, every held entry of the tag becomes pending or is applied at once. -/
  | sceneCommitRun
  /-- OVERLAY_LEVEL_CHANGE (R58): A level's activity changes in its effect wave and every node with a new target word starts a transition. -/
  | overlayLevelChange
  /-- OVERLAY_TRANSITION_TIMEOUT (R58): A transition not applied at a zero crossing applies in wave a + M. -/
  | overlayTransitionTimeout (node : Fin 5242880)
  /-- PRI_READING_NO_RATE (R56): While no rate is set, the PRI pairs are read every 10 µs in place of the ticks. -/
  | priReadingNoRate (pins : List PriPin)
  /-- PRI_BROKEN (R454): A PRI pair that has read invalid at every reading for 20 ms becomes broken and raises SEVERE. -/
  | priBroken (input : Fin 8)
  /-- NOP (R122): A lane NOP instruction issues and does nothing. -/
  | nop (lane : Nat) (ded : Bool)
  /-- HALT (R130): HALT ends the wave's program and waits for results in flight, pending events and SOS groups. -/
  | halt (lane : Nat) (ded : Bool)
  /-- LANE_WAVE_COMPLETE (R130): HALT completes once events and SOS groups are done, the OUT words are handed on and all writes are committed. -/
  | laneWaveComplete (lane : Nat)
  /-- RETE (R108): RETE returns from an event handler after its delay slot, restoring the main bank and resuming at EPC. -/
  | rete (lane : Nat) (ded : Bool)
  /-- SOSRUN (R115): SOSRUN places an SOS group in the unit's queue. -/
  | sosrun (lane : Nat) (ded : Bool) (group : BitVec 3)
  /-- SOSWAIT (R115): SOSWAIT holds the instruction stream until its group is complete. -/
  | soswait (lane : Nat) (ded : Bool) (group : BitVec 3)
  /-- SOS_GROUP_COMPLETE (R113): The SOS unit completes a group, writing its chains' outputs into the SOS window and releasing any SOSWAIT. -/
  | sosGroupComplete (lane : Nat) (slot : Nat) (ded : Bool)
  /-- MOV (R133): Register move Dd := Da. -/
  | mov (lane : Nat) (ded : Bool) (d a : BitVec 4)
  /-- ADD (R133): Wrapping 36-bit add. -/
  | add (lane : Nat) (ded : Bool) (d a b : BitVec 4)
  /-- ADDS (R133): Saturating 36-bit add. -/
  | adds (lane : Nat) (ded : Bool) (d a b : BitVec 4)
  /-- SUB (R133): Wrapping 36-bit subtract. -/
  | sub (lane : Nat) (ded : Bool) (d a b : BitVec 4)
  /-- SUBS (R133): Saturating 36-bit subtract. -/
  | subs (lane : Nat) (ded : Bool) (d a b : BitVec 4)
  /-- NEG (R133): Wrapping negate. -/
  | neg (lane : Nat) (ded : Bool) (d a : BitVec 4)
  /-- NEGS (R133): Saturating negate. -/
  | negs (lane : Nat) (ded : Bool) (d a : BitVec 4)
  /-- ABS (R133): Saturating absolute value. -/
  | abs (lane : Nat) (ded : Bool) (d a : BitVec 4)
  /-- AND (R133): Bitwise AND. -/
  | and (lane : Nat) (ded : Bool) (d a b : BitVec 4)
  /-- OR (R133): Bitwise OR. -/
  | or (lane : Nat) (ded : Bool) (d a b : BitVec 4)
  /-- XOR (R133): Bitwise exclusive OR. -/
  | xor (lane : Nat) (ded : Bool) (d a b : BitVec 4)
  /-- NOT (R133): Bitwise complement. -/
  | not (lane : Nat) (ded : Bool) (d a : BitVec 4)
  /-- ASH (R134): Arithmetic shift by a register amount, saturating left and rounding right. -/
  | ash (lane : Nat) (ded : Bool) (d a b : BitVec 4)
  /-- LSH (R134): Logical shift by a register amount. -/
  | lsh (lane : Nat) (ded : Bool) (d a b : BitVec 4)
  /-- MIN (R133): Signed minimum. -/
  | min (lane : Nat) (ded : Bool) (d a b : BitVec 4)
  /-- MAX (R133): Signed maximum. -/
  | max (lane : Nat) (ded : Bool) (d a b : BitVec 4)
  /-- CMP (R133): Sets flags from Da − Db without writing a register. -/
  | cmp (lane : Nat) (ded : Bool) (a b : BitVec 4)
  /-- MULF (R133): Fractional multiply into a D register with rounding and saturation. -/
  | mulf (lane : Nat) (ded : Bool) (d a b : BitVec 4)
  /-- MULI (R133): Integer multiply into a D register with saturation. -/
  | muli (lane : Nat) (ded : Bool) (d a b : BitVec 4)
  /-- ADDI (R135): Wrapping add of a sign-extended immediate. -/
  | addi (lane : Nat) (ded : Bool) (d a : BitVec 4) (imm : BitVec 20)
  /-- ADDSI (R135): Saturating add of a sign-extended immediate. -/
  | addsi (lane : Nat) (ded : Bool) (d a : BitVec 4) (imm : BitVec 20)
  /-- ANDI (R135): AND with a zero-extended immediate. -/
  | andi (lane : Nat) (ded : Bool) (d a : BitVec 4) (imm : BitVec 20)
  /-- ORI (R135): OR with a zero-extended immediate. -/
  | ori (lane : Nat) (ded : Bool) (d a : BitVec 4) (imm : BitVec 20)
  /-- XORI (R135): Exclusive OR with a zero-extended immediate. -/
  | xori (lane : Nat) (ded : Bool) (d a : BitVec 4) (imm : BitVec 20)
  /-- ASHI (R135): Arithmetic shift by an immediate amount. -/
  | ashi (lane : Nat) (ded : Bool) (d a : BitVec 4) (sh : BitVec 7)
  /-- LSHI (R135): Logical shift by an immediate amount. -/
  | lshi (lane : Nat) (ded : Bool) (d a : BitVec 4) (sh : BitVec 7)
  /-- CMPI (R135): Sets flags from Da minus a sign-extended immediate. -/
  | cmpi (lane : Nat) (ded : Bool) (a : BitVec 4) (imm : BitVec 20)
  /-- LDI (R136): Loads a sign-extended 24-bit immediate into Dd. -/
  | ldi (lane : Nat) (ded : Bool) (d : BitVec 4) (imm : BitVec 24)
  /-- LDIH (R136): Replaces Dd[35:24] with a 12-bit immediate. -/
  | ldih (lane : Nat) (ded : Bool) (d : BitVec 4) (imm : BitVec 12)
  /-- MPY (R137): Multiply into an accumulator, with optional parallel X and Y loads. -/
  | mpy (lane : Nat) (ded : Bool) (frac : Bool) (ac : BitVec 2) (dx dy : BitVec 4) (x y : Option ParLoad)
  /-- MAC (R137): Multiply-accumulate, with optional parallel loads. -/
  | mac (lane : Nat) (ded : Bool) (frac : Bool) (ac : BitVec 2) (dx dy : BitVec 4) (x y : Option ParLoad)
  /-- MSU (R137): Multiply-subtract from an accumulator, with optional parallel loads. -/
  | msu (lane : Nat) (ded : Bool) (frac : Bool) (ac : BitVec 2) (dx dy : BitVec 4) (x y : Option ParLoad)
  /-- MPYN (R137): Negated multiply into an accumulator, with optional parallel loads. -/
  | mpyn (lane : Nat) (ded : Bool) (frac : Bool) (ac : BitVec 2) (dx dy : BitVec 4) (x y : Option ParLoad)
  /-- PLD (R137): Parallel loads from X and Y without a multiply. -/
  | pld (lane : Nat) (ded : Bool) (x y : Option ParLoad)
  /-- FIRTAP (R138): One filter tap with an optional delay-line move. -/
  | firtap (lane : Nat) (ded : Bool) (ac : BitVec 2) (fromP move : Bool) (ix ic : BitVec 3)
  /-- FIRTAPN (R138): One negated filter tap with an optional delay-line move. -/
  | firtapn (lane : Nat) (ded : Bool) (ac : BitVec 2) (fromP move : Bool) (ix ic : BitVec 3)
  /-- LD (R139): Loads a word from X, Y or P into Dd. -/
  | ld (lane : Nat) (ded : Bool) (mem : LaneMem) (mode : AddrMode) (d : BitVec 4)
  /-- ST (R139): Stores a D register or a rounded accumulator high field to X or Y. -/
  | st (lane : Nat) (ded : Bool) (toY : Bool) (mode : AddrMode) (src : StoreSrc)
  /-- CLRA (R140): Clears an accumulator. -/
  | clra (lane : Nat) (ded : Bool) (a : BitVec 2)
  /-- MOVAH (R140): Moves an accumulator's high field to Dd with rounding and saturation. -/
  | movah (lane : Nat) (ded : Bool) (d : BitVec 4) (a : BitVec 2)
  /-- MOVAL (R140): Moves an accumulator's low field to Dd. -/
  | moval (lane : Nat) (ded : Bool) (d : BitVec 4) (a : BitVec 2)
  /-- MOVAG (R140): Moves an accumulator's guard field, sign-extended, to Dd. -/
  | movag (lane : Nat) (ded : Bool) (d : BitVec 4) (a : BitVec 2)
  /-- LDAH (R140): Loads an accumulator from Ds × 2^36. -/
  | ldah (lane : Nat) (ded : Bool) (a : BitVec 2) (d : BitVec 4)
  /-- LDAL (R140): Loads an accumulator's low field from Ds. -/
  | ldal (lane : Nat) (ded : Bool) (a : BitVec 2) (d : BitVec 4)
  /-- ADDA (R140): Adds two accumulators. -/
  | adda (lane : Nat) (ded : Bool) (a b : BitVec 2)
  /-- SUBA (R140): Subtracts two accumulators. -/
  | suba (lane : Nat) (ded : Bool) (a b : BitVec 2)
  /-- CPYA (R140): Copies one accumulator to another. -/
  | cpya (lane : Nat) (ded : Bool) (a b : BitVec 2)
  /-- NEGA (R140): Negates an accumulator. -/
  | nega (lane : Nat) (ded : Bool) (a : BitVec 2)
  /-- ASHA (R140): Shifts an accumulator by an immediate amount. -/
  | asha (lane : Nat) (ded : Bool) (a : BitVec 2) (sh : BitVec 7)
  /-- TSTA (R140): Sets the flags from an 80-bit accumulator. -/
  | tsta (lane : Nat) (ded : Bool) (a : BitVec 2)
  /-- MVTA (R141): Writes an address register from Ds. -/
  | mvta (lane : Nat) (ded : Bool) (kind : BitVec 2) (reg : BitVec 3) (d : BitVec 4)
  /-- MVFA (R141): Reads an address register into Dd. -/
  | mvfa (lane : Nat) (ded : Bool) (d : BitVec 4) (kind : BitVec 2) (reg : BitVec 3)
  /-- LDA (R141): Writes an address register from an immediate. -/
  | lda (lane : Nat) (ded : Bool) (kind : BitVec 2) (reg : BitVec 3) (imm : BitVec 14)
  /-- AADD (R141): Post-steps a pointer by an immediate step. -/
  | aadd (lane : Nat) (ded : Bool) (reg : BitVec 3) (imm : BitVec 14)
  /-- AMOD (R141): Post-steps a pointer by its DT without a memory access. -/
  | amod (lane : Nat) (ded : Bool) (reg : BitVec 3)
  /-- MVTC (R142): Writes LST, LCTL or EPC from Ds. -/
  | mvtc (lane : Nat) (ded : Bool) (cr : LaneCr) (d : BitVec 4)
  /-- MVFC (R141): Reads a control register into Dd. -/
  | mvfc (lane : Nat) (ded : Bool) (d : BitVec 4) (cr : LaneCr)
  /-- J (R143): Conditional jump with one delay slot. -/
  | j (lane : Nat) (ded : Bool) (cond : BitVec 4) (target : BitVec 12)
  /-- CALL (R143): Conditional call that writes the link register, with one delay slot. -/
  | call (lane : Nat) (ded : Bool) (cond : BitVec 4) (d : BitVec 4) (target : BitVec 12)
  /-- JR (R143): Conditional jump to a register address, with one delay slot. -/
  | jr (lane : Nat) (ded : Bool) (cond : BitVec 4) (d : BitVec 4)
  /-- REP (R145): Repeats a body of instructions n times, pushing a loop-stack entry. -/
  | rep (lane : Nat) (ded : Bool) (count : BitVec 16) (len : BitVec 8)
  /-- LOOP (R145): Repeats the instructions up to END Ds times, pushing a loop-stack entry. -/
  | loop (lane : Nat) (ded : Bool) (d : BitVec 4) (last : BitVec 12)
  /-- LPOP (R148): Pops the top loop-stack entry of the active bank. -/
  | lpop (lane : Nat) (ded : Bool)
  /-- ILLEGAL_OP (R123): A reserved instruction encoding issues as a no-operation and raises a lane NOTE once per block load. -/
  | illegalOp (lane : Nat) (ded : Bool) (word : W36)
  /-- LANE_EVENT_TAKE (R107): A pending event is taken at a qualifying slot boundary: EPC is saved, the shadow bank is selected and the PC goes to the vector. -/
  | laneEventTake (lane : Nat)
  /-- BUDGET_OVERRUN (R120): A Lane reaching the end of its budget without completing HALT stops, the wave is discarded and the block is stopped. -/
  | budgetOverrun (lane : Nat)
  /-- SLACK_WINDOW_END (R189): At the end of each 256-wave window every district compares window minima with WARN and MOVE and records RS. -/
  | slackWindowEnd (speeds : List (Nat × Nat))
  /-- VCORE_LOWER (R436): After 600 s without a request and with ample slack the VID code is lowered by one. -/
  | vcoreLower
  /-- CONTEXT_TRANSFER_COMPLETE (R192): A context transfer completes and the new site launches wave j with the old site's context. -/
  | contextTransferComplete (work : Nat)
  /-- SHADOW_RUN_END (R193): After K waves with every comparison and the context CRC equal, the new site takes over. -/
  | shadowRunEnd (work : Nat) (crcEqual : Bool)
  /-- AUDIT_START (R196): A district starts the next audit every AUDIT_CYCLE / u, with a context transfer to an idle tile. -/
  | auditStart (district : Fin 52)
  /-- AUDIT_WINDOW_END (R197): An audit window ends and counts as a pass when every compared value was equal. -/
  | auditWindowEnd (work : Nat) (crcEqual : Bool)
  /-- TIE_BREAK_COMPLETE (R198): A third tile finishes recomputing a disputed window and the loser is decided. -/
  | tieBreakComplete (work : Nat) (outcome : Fin 3)
  /-- HEALTH_UPDATE (R200): Each tile's health score is recomputed once per second. -/
  | healthUpdate
  /-- HEALTH_SAVE (R202): A HEALTH_SAVE event is raised at each retirement and every 86,400 s. -/
  | healthSave
  /-- WORK_REPLACE (R205): Unplaced work is placed again from its last committed context as soon as a slot frees. -/
  | workReplace (work : Nat)
  /-- CELL_REPAIR (R15): Hardware replaces a failing MAC cell, gain-memory row or multiplier slice with its spare. -/
  | cellRepair (tile : Fin 416)
  /-- EDRAM_ROW_REPAIR (R393): An eDRAM row is replaced by a spare row, or kept under correction when spares are out. -/
  | edramRowRepair (at_ : MemAt) (selfTest : Bool)
  /-- EDRAM_SCRUB (R392): The scrubber reads, corrects and writes back eDRAM words. -/
  | edramScrub (at_ : MemAt) (double : Bool)
  /-- SRAM_SCRUB (R395): The working SRAM is scrubbed once every 60 s. -/
  | sramScrub (corrected : Nat) (double : Bool)
  /-- DDR_PATROL_SCRUB (R398): The patrol scrubber reads every usable LPDDR5 block once every 24 h. -/
  | ddrPatrolScrub (corrected double : Nat)
  /-- TJ_THRESHOLD_CROSS (R394): Tj rises through a threshold and the eDRAM refresh interval steps down at once. -/
  | tjThresholdCross (sensor : Fin 16) (tj : Int)
  /-- EDRAM_REFRESH_RELAX (R394): After Tj has been 3 °C below a threshold for 1 s the refresh interval steps up. -/
  | edramRefreshRelax (quarter : Fin 4) (tj : Int)
  /-- TJ_CRIT (R447): A sensor that has read above 140 °C for 10 ms raises FATAL TJ_CRIT. -/
  | tjCrit (sensor : Fin 16) (tj : Int)
  /-- PLAN_STAGED (R175): Checking and staging of a plan image complete and the effect wave is fixed and answered. -/
  | planStaged (newFirst : BitVec 64)
  /-- PLAN_TAKE_EFFECT (R175): At wave t the new plan takes effect: the epoch increments, sinks present 0 until the first results, and overlays may be replaced. -/
  | planTakeEffect
  /-- PLAN_UNLOAD_EFFECT (R180): An accepted unload takes effect: sinks present 0, players stop and the epoch increments. -/
  | planUnloadEffect
  /-- EQ_PUBLISH_H (R156): At wave r + 64 the latency table publishes H for every path whose D differs. -/
  | eqPublishH
  /-- EQ_SETTLE (R156): At wave r + 66 every delay takes its full length and SETTLED becomes 1. -/
  | eqSettle
  /-- BLOCK_SWAP (R167): After pre-roll, the new chain replaces the old at a zero crossing or timeout and the segment delay is adjusted. -/
  | blockSwap
  /-- FADE_END (R166): A crossfade ends and the last waiting set for the block is applied at the next flip. -/
  | fadeEnd (block : Fin 1024)
  /-- PLAYER_BEGIN (R171): A player starts at its start wave and feeds its row from the next wave. -/
  | playerBegin (player : Fin 64)
  /-- PLAYER_STOP_EFFECT (R172): A stop takes effect at the message's first zero crossing or 96 samples after. -/
  | playerStopEffect (player : Fin 64)
  /-- PLAYER_ENTRY_END (R172): A player reaching the end of its entry stops, loops or continues by its mode. -/
  | playerEntryEnd (player : Fin 64)
  /-- UPSTREAM_FRAME_RECEIVE (R226): An upstream drive-link frame is received and accepted or counted; the Load Monitor takes its flags and sense. -/
  | upstreamFrameReceive (link : Fin 32) (comma : Bool) (frame : List Byte)
  /-- LINK_LOSS (R226): After 8 periods without an accepted frame the link is lost, DEGRADE is raised and its channels mute. -/
  | linkLoss (link : Fin 32)
  /-- CTL_TIMEOUT (R228): A control request without a matching reply after the waits and repeats ends with CTL_TIMEOUT. -/
  | ctlTimeout (link : Fin 32)
  /-- THERMAL_UPDATE (R240): Every 16 samples the two-node thermal model is updated and the thermal Kerb gain steps toward its target. -/
  | thermalUpdate
  /-- PILOT_WINDOW_END (R242): At the end of a pilot window the impedance reading is formed and checked against the limits. -/
  | pilotWindowEnd (channel : Fin 128) (current impedance phase re : Computed)
  /-- SHORT_PROBE_START (R247): After the hold-off or the 10 s wait a 200 ms pilot-only probe starts. -/
  | shortProbeStart (channel : Fin 128)
  /-- SHORT_PROBE_END (R247): A probe ends and its reading clears the short or leaves the channel muted. -/
  | shortProbeEnd (channel : Fin 128) (current impedance : Computed)
  /-- CHANNEL_RESUME (R247): A cleared or unmuted channel resumes at the first zero crossing of its feed, or 96 samples later. -/
  | channelResume (channel : Fin 128)
  /-- STAGE_DOWNSTREAM_FRAME (R233): A power stage receives a downstream frame on an input and evaluates the Bollard rule. -/
  | stageDownstreamFrame (link : Fin 32) (inputB : Bool) (frame : List Byte)
  /-- STAGE_FRAME_MISSING (R232): A missing or bad frame on a locked stage input is replaced by a repeat, and a second loses the input. -/
  | stageFrameMissing (link : Fin 32) (inputB : Bool)
  /-- STAGE_MUTE_NO_INPUT (R236): With no valid input left the stage mutes every channel within 100 µs. -/
  | stageMuteNoInput (link : Fin 32)
  /-- STAGE_CURRENT_LIMIT (R237): The stage's own current limit acts on an overload and OC is reported. -/
  | stageCurrentLimit (link : Fin 32) (position : Fin 4)
  /-- STAGE_UPSTREAM_SEND (R225): The stage samples sense and sends the upstream frame for sample n. -/
  | stageUpstreamSend (link : Fin 32) (supply : Bool) (ot trips : BitVec 4) (volts amps : List (BitVec 24))
  /-- RX_FRAME (R272): A network frame is received and goes to the stream engine or is classified to a ring. -/
  | rxFrame (port : Fin 5) (frame : List Byte) (protection : Computed) (secs : BitVec 34) (ns : BitVec 30)
  /-- STREAM_LOSS (R265): A stream that accepts no packet for 8 packet times is lost, raises DEGRADE and its rows carry 0. -/
  | streamLoss (stream : Fin 512)
  /-- STREAM_PACKET_QUEUE (R266): At tick n + P a transmit stream packet is built and queued for its port. -/
  | streamPacketQueue (stream : Fin 512)
  /-- STREAM_PACKET_STALE (R266): A stream packet not begun within one packet time is discarded and counted STALE. -/
  | streamPacketStale (port : Fin 4)
  /-- TX_FRAME_START (R279): Transmission of a ring frame starts once the whole frame or TX_START × 256 bytes lie in the buffer. -/
  | txFrameStart (port : Fin 5) (filled : List Nat)
  /-- TX_FRAME_COMPLETE (R277): A transmitted frame finishes and its descriptors are written back. -/
  | txFrameComplete (port : Fin 5) (secs : BitVec 34) (ns : BitVec 30)
  /-- TX_UNDERRUN (R279): A transmit buffer running dry mid-frame ends the frame with an inverted FCS and raises TX_START. -/
  | txUnderrun (cut : TxCut)
  /-- PAUSE_EXPIRE (R280): A pause time runs out and transmission resumes. -/
  | pauseExpire (port : Fin 5)
  /-- PAUSE_WATCHDOG (R281): A port paused for WD_US resumes at once and starts the hold-off. -/
  | pauseWatchdog (port : Fin 5)
  /-- PAUSE_HOLDOFF_END (R281): After HOLDOFF_MS the port honours PAUSE again. -/
  | pauseHoldoffEnd (port : Fin 5)
  /-- LINK_DOWN (R288): A network port's link changes state; going down raises DEGRADE LINK_DOWN. -/
  | linkDown (port : Fin 5) (up : Bool)
  /-- WAKE_FRAME (R286): In RETAIN a frame matching the magic packet or an enabled pattern wakes the engine. -/
  | wakeFrame (frame : List Byte)
  /-- WAKE_TIMER (R434): The wake timer expires in RETAIN and wakes the engine. -/
  | wakeTimer
  /-- PTP_TIME_AVAILABLE (R407): PTP offers usable time and the media DPLL enters Locking. -/
  | ptpTimeAvailable (time : Computed)
  /-- PTP_TIME_LOST (R407): PTP time is unusable for ANNOUNCE_TIMEOUT intervals; locking falls to free-run or locked enters holdover. -/
  | ptpTimeLost (time : Computed)
  /-- HOLDOVER_LONG (R407): Holdover lasting HOLDOVER_ALARM raises DEGRADE. -/
  | holdoverLong
  /-- DPLL_LOCK (R408): Tick edges within ±1 µs for 10 s make the DPLL Locked and, at first lock, step the counter and set COUNTER_VALID. -/
  | dpllLock (target : BitVec 64) (phase ppb : BitVec 32)
  /-- PTP_TIME_RETURN (R409): PTP time returns in holdover; a small error is slewed back to Locked, a large one raises REALIGN_DUE. -/
  | ptpTimeReturn (time : Computed) (phase : BitVec 32)
  /-- REALIGN_STEP (R410): After the slew completes the sample counter steps by the remaining whole periods at one tick. -/
  | realignStep (target : BitVec 64)
  /-- CENSUS_PROBE (R300): Every 10 s the engine probes every I²C address and reads bytes 0–31 of those that answer. -/
  | censusProbe (answers : List (Fin 32 × List Byte))
  /-- CENSUS_READ_COMPLETE (R304): A full DMIR read completes and the module is checked and classed. -/
  | censusReadComplete (module : Fin 32) (bytes : List Byte)
  /-- CENSUS_READ_RETRY (R300): A failed read is retried up to 3 times and the module then becomes UNREADABLE. -/
  | censusReadRetry (module : Fin 32)
  /-- I2C_BUS_STUCK (R300): SDA low for 25 ms is cleared with 9 clocks, or the bus is declared stuck. -/
  | i2cBusStuck (bus : Fin 4) (freed : Bool)
  /-- STAGE_DMIR_READ_COMPLETE (R301): The DMIR read of a power stage over the control slot completes and is checked. -/
  | stageDmirReadComplete (link : Fin 32)
  /-- STAGE_DMIR_RETRY (R301): An unreadable stage's DMIR read is retried 10 s later while the link stays up. -/
  | stageDmirRetry (link : Fin 32)
  /-- OCTOT_FRAME_RECEIVE (R315): An Octot frame is received and its header, digests and records are taken. -/
  | octotFrameReceive (lane : Fin 2) (good : Bool) (header : List Byte) (recs : List FwdRec)
  /-- FORWARDED_COMMAND_APPLY (R319): Forwarded content takes effect on both units in the same wave. -/
  | forwardedCommandApply
  /-- OCTOT_LANE (R317): An Octot lane without a good frame for 8 periods is lost and logs a NOTE. -/
  | octotLane (lane : Fin 2)
  /-- TWIN_START_WAIT (R314): At the end of the start wait with the Octot link down, the unit becomes claimant. -/
  | twinStartWait
  /-- TWIN_RUN_IN_END (R323): RUN_IN ends after max(S_max, 512) + N samples and SEED begins. -/
  | twinRunInEnd
  /-- SEED_ITEM_TIMEOUT (R325): A block item not arriving within 2.0 µs is not installed and is resent later. -/
  | seedItemTimeout (block : Fin 1024)
  /-- TWIN_READY (R326): After 4,800 matching samples the joiner becomes READY with the predecessor claim. -/
  | twinReady
  /-- JOIN_FAILED (R327): A join not READY within JOIN_LIMIT fails, raises DEGRADE and returns to ALONE. -/
  | joinFailed
  /-- TWIN_AUTO_REJOIN (R327): With AUTO_REJOIN a new join starts a further JOIN_LIMIT after a failure. -/
  | twinAutoRejoin
  /-- TWIN_DECISION (R328): In wave n + 8 both units decide a mismatch by the decision table. -/
  | twinDecision
  /-- TWIN_PROMOTION (R331): In wave p the standby takes the successor claim and becomes claimant. -/
  | twinPromotion
  /-- TWIN_CLAIM_DROP (R334): The old claimant drops its claim when its quorum links report the new claim, or at p + 16. -/
  | twinClaimDrop
  /-- KIOSK_DOORBELL (R357): Writing RING on Kiosk 1–31 submits the request and the Kiosk becomes BUSY. -/
  | kioskDoorbell (kiosk : Fin 32) (plain : Computed)
  /-- KIOSK0_ACK (R362): Writing RING on Kiosk 0 acknowledges the posted event and Kiosk 0 becomes IDLE. -/
  | kiosk0Ack
  /-- KIOSK0_EVENT_POST (R362): The next pending event message is posted on Kiosk 0. -/
  | kiosk0EventPost
  /-- SYS_VERSION (R366): Returns silicon, firmware and Security Module versions and identity. -/
  | sysVersion (kiosk : Fin 32)
  /-- SYS_ECHO (R366): Returns the payload bytes unchanged. -/
  | sysEcho (kiosk : Fin 32)
  /-- SYS_EVENT_CONFIG (R366): Reads or sets which classes are posted on Kiosk 0. -/
  | sysEventConfig (kiosk : Fin 32)
  /-- SYS_LOG_STATUS (R366): Returns the event log head, mark and loss counts. -/
  | sysLogStatus (kiosk : Fin 32)
  /-- SYS_TIME (R366): Returns the sample counter and PTP time at one tick. -/
  | sysTime (kiosk : Fin 32) (secs : BitVec 48) (ns : BitVec 32)
  /-- SYS_KIOSK_STATUS (R366): Returns the state of every Kiosk and command counters. -/
  | sysKioskStatus (kiosk : Fin 32)
  /-- PLAN_LOAD (R175): Checks and stages a plan image to take effect at EFFECT_SAMPLE. -/
  | planLoad (kiosk : Fin 32)
  /-- PLAN_VERIFY (R176): Checks a plan image without changing anything and reports its counts. -/
  | planVerify (kiosk : Fin 32)
  /-- PLAN_STATUS (R177): Returns the running plan's epoch, rate, latencies and flags. -/
  | planStatus (kiosk : Fin 32)
  /-- PLAN_LATENCY_READ (R178): Returns entries of the per-path latency table. -/
  | planLatencyRead (kiosk : Fin 32)
  /-- PLAN_BLOCK_INSERT (R179): Starts live insertion of a block with a pre-roll of the new chain. -/
  | planBlockInsert (kiosk : Fin 32)
  /-- PLAN_BLOCK_REMOVE (R179): Starts live removal of a block with a pre-roll of the new chain. -/
  | planBlockRemove (kiosk : Fin 32)
  /-- PLAN_EQ_BYPASS (R159): Turns equalisation bypass on or off; off is a restart. -/
  | planEqBypass (kiosk : Fin 32)
  /-- PLAN_UNLOAD (R180): Unloads the running plan within 2 waves. -/
  | planUnload (kiosk : Fin 32)
  /-- XP_NODE_WRITE (R69): Writes 1 to 29 node words into the Squares' queues, whole or not at all. -/
  | xpNodeWrite (kiosk : Fin 32)
  /-- XP_NODE_READ (R70): Returns base and effective words of up to 29 nodes. -/
  | xpNodeRead (kiosk : Fin 32)
  /-- XP_STEP_TIMEOUT (R71): Reads or sets the stepping timeout code. -/
  | xpStepTimeout (kiosk : Fin 32)
  /-- XP_QUEUE_STATUS (R72): Returns queue use per Square and optionally clears REFUSED flags. -/
  | xpQueueStatus (kiosk : Fin 32)
  /-- XP_SCENE_COMMIT (R73): Commits a scene tag as soon as possible or schedules it at AT_SAMPLE. -/
  | xpSceneCommit (kiosk : Fin 32)
  /-- XP_SCENE_DISCARD (R74): Removes a tag's held entries and any schedule. -/
  | xpSceneDiscard (kiosk : Fin 32)
  /-- XP_SAT_READ (R75): Returns and optionally clears bus saturation flags. -/
  | xpSatRead (kiosk : Fin 32)
  /-- XP_OVL_DEFINE (R76): Adds, replaces or removes overrides of one overlay level. -/
  | xpOvlDefine (kiosk : Fin 32)
  /-- XP_OVL_CLEAR (R77): Removes all overrides of an inactive level. -/
  | xpOvlClear (kiosk : Fin 32)
  /-- XP_OVL_SET (R78): Sets or clears levels by command, taking effect within 2 waves. -/
  | xpOvlSet (kiosk : Fin 32)
  /-- XP_OVL_BIND (R79): Binds or unbinds a PRI input to a level with BROKEN_ACTS. -/
  | xpOvlBind (kiosk : Fin 32)
  /-- XP_OVL_STATUS (R80): Returns overlay, PRI and pool state. -/
  | xpOvlStatus (kiosk : Fin 32)
  /-- XP_ALLEY_STATUS (R81): Returns per-bus Alley vote counters. -/
  | xpAlleyStatus (kiosk : Fin 32)
  /-- BLK_PARAM_WRITE (R181): Writes a block's parameter words, applied at a flip and raising PARAM. -/
  | blkParamWrite (kiosk : Fin 32)
  /-- BLK_PARAM_READ (R181): Returns a block's parameter words. -/
  | blkParamRead (kiosk : Fin 32)
  /-- BLK_COEF_WRITE (R181): Writes a block's Y coefficient words at a flip. -/
  | blkCoefWrite (kiosk : Fin 32)
  /-- BLK_SOS_WRITE (R182): Writes SOS section coefficients and optionally state, or starts a fade. -/
  | blkSosWrite (kiosk : Fin 32)
  /-- BLK_STATUS (R183): Returns a block's LST, accounted length and state, optionally clearing sticky flags. -/
  | blkStatus (kiosk : Fin 32)
  /-- PLAYER_START (R171): Starts a player on an entry, at once or at AT_SAMPLE. -/
  | playerStart (kiosk : Fin 32)
  /-- PLAYER_STOP (R172): Stops a player at the message's next zero crossing or within 96 samples. -/
  | playerStop (kiosk : Fin 32)
  /-- PLAYER_STATUS (R183): Returns the state, entry, position and underruns of players. -/
  | playerStatus (kiosk : Fin 32)
  /-- PLAYER_BIND (R181): Binds a player to an overlay level with mode, entry and loops. -/
  | playerBind (kiosk : Fin 32)
  /-- DSP_STATUS (R213): Returns placement counts and counters. -/
  | dspStatus (kiosk : Fin 32)
  /-- DSP_PLACEMENT_READ (R214): Returns entries of the placement table. -/
  | dspPlacementRead (kiosk : Fin 32)
  /-- DSP_DISTRICT_READ (R215): Returns per-district health, slot and audit state. -/
  | dspDistrictRead (kiosk : Fin 32)
  /-- DSP_THRESHOLDS (R216): Reads or sets WARN, MOVE, RETIRE and SHADOW_K. -/
  | dspThresholds (kiosk : Fin 32)
  /-- DSP_AUDIT_CONFIG (R217): Reads or sets the rotating audit enable, cycle and window. -/
  | dspAuditConfig (kiosk : Fin 32)
  /-- DSP_HEALTH_EXPORT (R218): Returns one chunk of the health record snapshot. -/
  | dspHealthExport (kiosk : Fin 32)
  /-- DSP_HEALTH_IMPORT (R218): Takes one chunk of a health record and applies it at the last chunk. -/
  | dspHealthImport (kiosk : Fin 32)
  /-- DRV_LINK_CONFIG (R253): Reads or sets AUDIO_ENABLE of the drive links. -/
  | drvLinkConfig (kiosk : Fin 32)
  /-- DRV_LINK_STATUS (R253): Returns per-link state and counters. -/
  | drvLinkStatus (kiosk : Fin 32)
  /-- DRV_STAGE_SET (R254): Sets a stage channel's idle frequency and loop trim over the control slot. -/
  | drvStageSet (kiosk : Fin 32)
  /-- DRV_CTL_RAW (R254): Sends a raw control-slot read or stage-specific write. -/
  | drvCtlRaw (kiosk : Fin 32)
  /-- DRV_THERMAL_SET (R256): Reads or sets a channel's thermal model parameters. -/
  | drvThermalSet (kiosk : Fin 32)
  /-- DRV_PILOT_SET (R256): Reads or sets a channel's pilot tone. -/
  | drvPilotSet (kiosk : Fin 32)
  /-- DRV_KERB_SET (R256): Reads or sets a channel's Kerb limiter floor, peak voltage and release. -/
  | drvKerbSet (kiosk : Fin 32)
  /-- DRV_Z_LIMITS (R256): Reads or sets a channel's impedance limits. -/
  | drvZLimits (kiosk : Fin 32)
  /-- DRV_MONITOR_READ (R257): Returns per-channel Load Monitor state of one sample. -/
  | drvMonitorRead (kiosk : Fin 32)
  /-- DRV_CHANNEL_CTL (R255): Mutes, unmutes, probes, clears latches or holds the short sequence of a channel. -/
  | drvChannelCtl (kiosk : Fin 32)
  /-- DRV_CAL_WRITE (R256): Sets or reverts a channel's sense calibration. -/
  | drvCalWrite (kiosk : Fin 32)
  /-- NET_PORT_CONFIG (R290): Reads or sets a network port's enable, speed, pause, MAC and addresses. -/
  | netPortConfig (kiosk : Fin 32)
  /-- NET_PORT_STATUS (R290): Returns a port's status and link counters. -/
  | netPortStatus (kiosk : Fin 32)
  /-- NET_RING_OWNER (R271): Changes the owner of a disabled ring. -/
  | netRingOwner (kiosk : Fin 32)
  /-- NET_FILTER_SET (R290): Sets or disables a port's classification filter entry. -/
  | netFilterSet (kiosk : Fin 32)
  /-- NET_RX_OPEN (R291): Opens a receive stream. -/
  | netRxOpen (kiosk : Fin 32)
  /-- NET_TX_OPEN (R291): Opens a transmit stream. -/
  | netTxOpen (kiosk : Fin 32)
  /-- NET_STREAM_CLOSE (R290): Closes a stream. -/
  | netStreamClose (kiosk : Fin 32)
  /-- NET_STREAM_STATUS (R292): Returns a stream's state and counters, optionally clearing them. -/
  | netStreamStatus (kiosk : Fin 32)
  /-- NET_STATS_READ (R292): Returns a port's 18 statistics counters copied at one instant. -/
  | netStatsRead (kiosk : Fin 32)
  /-- NET_PTP_CONFIG (R282): Reads or sets the PTP profile, domain, role and intervals. -/
  | netPtpConfig (kiosk : Fin 32)
  /-- NET_PTP_STATUS (R290): Returns PTP port and lock state. -/
  | netPtpStatus (kiosk : Fin 32) (offset delay : Computed)
  /-- NET_WAKE_SET (R286): Sets the magic-packet and pattern wake configuration. -/
  | netWakeSet (kiosk : Fin 32)
  /-- NET_MACSEC_SET (R284): Configures the SecY, receive SCs and SAs of a media port. -/
  | netMacsecSet (kiosk : Fin 32)
  /-- LIO_PORT_CONFIG (R308): Reads or sets a TDM group's format, flags and word sizes. -/
  | lioPortConfig (kiosk : Fin 32)
  /-- LIO_MCLK_SET (R298): Sets an MCLK output frequency or holds it low. -/
  | lioMclkSet (kiosk : Fin 32)
  /-- CENSUS_RUN (R300): Requests a census run of I²C modules, drive links or both. -/
  | censusRun (kiosk : Fin 32)
  /-- CENSUS_SUMMARY (R308): Returns the census state of every module and link. -/
  | censusSummary (kiosk : Fin 32)
  /-- CENSUS_READ (R308): Returns half of a module's DMIR as last read. -/
  | censusRead (kiosk : Fin 32)
  /-- CENSUS_PLAN_CHECK (R308): Reports plan sources and sinks that lack a suitable module. -/
  | censusPlanCheck (kiosk : Fin 32)
  /-- TWIN_STATUS_READ (R342): Returns twin state, peer claim and counters. -/
  | twinStatusRead (kiosk : Fin 32)
  /-- TWIN_POLICY (R343): Reads or sets the twin mode and policy. -/
  | twinPolicy (kiosk : Fin 32)
  /-- TWIN_JOIN (R344): Starts, restarts or abandons a join. -/
  | twinJoin (kiosk : Fin 32)
  /-- TWIN_PROMOTE (R345): Promotes the standby, or forces a promotion. -/
  | twinPromote (kiosk : Fin 32)
  /-- TWIN_YIELD (R345): Makes the claimant yield to a READY standby. -/
  | twinYield (kiosk : Fin 32)
  /-- TWIN_RESOLVE (R346): Resolves an UNRESOLVED state by keeping, promoting or resuming. -/
  | twinResolve (kiosk : Fin 32)
  /-- TWIN_MISMATCH_READ (R347): Returns one of the last 8 decision records. -/
  | twinMismatchRead (kiosk : Fin 32)
  /-- TWIN_ADDRESS (R348): Sets the claimant address of a port. -/
  | twinAddress (kiosk : Fin 32)
  /-- CLK_STATUS_READ (R439): Returns clock, reset, gate, VID and DPLL state. -/
  | clkStatusRead (kiosk : Fin 32)
  /-- CLK_RATE_SET (R440): Sets the sample rate through the idle and divider change. -/
  | clkRateSet (kiosk : Fin 32) (newFirst : BitVec 64)
  /-- RATE_CHANGE_FIRST_TICK (R440): After the 1 ms idle the first tick of the new rate falls on the grid and waves resume. -/
  | rateChangeFirstTick
  /-- CLK_DPLL_CONFIG (R439): Reads or sets realignment mode, pull and limits of the media DPLL. -/
  | clkDpllConfig (kiosk : Fin 32)
  /-- CLK_REALIGN (R441): Requests a re-alignment of the sample counter. -/
  | clkRealign (kiosk : Fin 32)
  /-- CLK_MEASURE (R417): Starts a frequency measurement of one clock against another. -/
  | clkMeasure (kiosk : Fin 32)
  /-- CLK_MEASURE_COMPLETE (R417): A frequency measurement completes and its count is stored. -/
  | clkMeasureComplete (count : BitVec 32)
  /-- CLK_GATE_SET (R415): Reads, opens or requests closing of a clock gate. -/
  | clkGateSet (kiosk : Fin 32)
  /-- GATE_CLOSE_TIMEOUT (R389): A gate close whose port is not idle within GATE_TIMEOUT is refused and grants resume. -/
  | gateCloseTimeout (gate : Fin 16)
  /-- GATE_CLOSE_ACK (R389): The port becomes idle and the matrix acknowledges the gate close. -/
  | gateCloseAck (gate : Fin 16)
  /-- PWR_STATE_SET (R433): Requests a change between RUN, HUSH and RETAIN. -/
  | pwrStateSet (kiosk : Fin 32)
  /-- POWER_STATE_EFFECT (R433): In wave a + 2 the engine enters HUSH or resumes waves in RUN. -/
  | powerStateEffect
  /-- RETAIN_ENTER (R434): Within 5 ms of the response the engine enters RETAIN. -/
  | retainEnter
  /-- WAKE_COMPLETE (R434): The wake sequence completes, the engine enters HUSH and a WAKE event is posted. -/
  | wakeComplete (periods : BitVec 64)
  /-- PWR_VCORE (R436): Reads or sets the VDD_CORE FLOOR and CEILING. -/
  | pwrVcore (kiosk : Fin 32)
  /-- PWR_RESET (R419): Requests a SYSTEM or NOLUT reset. -/
  | pwrReset (kiosk : Fin 32)
  /-- PWR_PINMAP_READ (R439): Returns the pin fuse-map codes and programmed flags. -/
  | pwrPinmapRead (kiosk : Fin 32)
  /-- PWR_PINMAP_PROGRAM (R429): Programs one pin group's fuse-map code once. -/
  | pwrPinmapProgram (kiosk : Fin 32)
  /-- FLT_STATUS_READ (R461): Returns fault status and class counters. -/
  | fltStatusRead (kiosk : Fin 32)
  /-- FLT_SOURCE_READ (R462): Returns the listed instances of a fault source. -/
  | fltSourceRead (kiosk : Fin 32)
  /-- FLT_INJECT (R455): Opens a fault injection on a line source instance. -/
  | fltInject (kiosk : Fin 32)
  /-- FLT_INJECT_CANCEL (R462): Closes one or all open injections. -/
  | fltInjectCancel (kiosk : Fin 32)
  /-- FLT_INJECT_STATUS (R461): Returns the state of each injection ID. -/
  | fltInjectStatus (kiosk : Fin 32)
  /-- INJECTION_WINDOW_END (R456): An injection window closes, the real line is sampled again and an ENDED INJECTION record is logged. -/
  | injectionWindowEnd
  /-- SEC_STATUS (R486): Returns Security Module status and key inventory. -/
  | secStatus (kiosk : Fin 32)
  /-- SEC_IDENTITY (R486): Returns the device identity public key and its Derlafen signature. -/
  | secIdentity (kiosk : Fin 32)
  /-- SEC_SESSION_OPEN (R472): First step of a session: exchanges ephemeral keys and a nonce. -/
  | secSessionOpen (kiosk : Fin 32) (entropy : List (BitVec 8)) (keys : Computed)
  /-- SEC_SESSION_AUTH (R472): Second step: verifies the host signature and opens the session. -/
  | secSessionAuth (kiosk : Fin 32) (entropy : List (BitVec 8)) (signature keys : Computed)
  /-- SEC_SESSION_CLOSE (R474): Ends the session. -/
  | secSessionClose (kiosk : Fin 32)
  /-- SEC_ENROL (R471): Enrols or erases an operator key. -/
  | secEnrol (kiosk : Fin 32)
  /-- SEC_LIB_KEY_SET (R486): Sets or erases a library signing key. -/
  | secLibKeySet (kiosk : Fin 32)
  /-- SEC_LIB_CONFIG (R477): Reads or sets the library size. -/
  | secLibConfig (kiosk : Fin 32)
  /-- SEC_LIB_VERIFY (R477): Hashes and verifies a library entry's signature. -/
  | secLibVerify (kiosk : Fin 32)
  /-- SEC_KEY_LOAD (R478): Loads a MACsec key and salt at a handle. -/
  | secKeyLoad (kiosk : Fin 32) (check : Computed)
  /-- SEC_KEY_ERASE (R478): Erases one or all MACsec key handles. -/
  | secKeyErase (kiosk : Fin 32)
  /-- SEC_ROLLBACK_COMMIT (R469): Raises the anti-rollback counter to the running image's index. -/
  | secRollbackCommit (kiosk : Fin 32)
  /-- SEC_APPROVED (R481): Enters or leaves approved mode. -/
  | secApproved (kiosk : Fin 32)
  /-- SEC_ZEROISE (R480): Zeroises the VOLATILE or STORE scope. -/
  | secZeroise (kiosk : Fin 32)
  /-- SEC_DEBUG_UNLOCK (R482): Unlocks debug until the next SYSTEM reset. -/
  | secDebugUnlock (kiosk : Fin 32)
  /-- SESSION_IDLE_TIMEOUT (R474): A session with no sealed request for IDLE_S seconds ends. -/
  | sessionIdleTimeout
  /-- SESSION_AUTH_TIMEOUT (R472): A session open not followed by authentication within 10 s is discarded. -/
  | sessionAuthTimeout
  /-- SESSION_LOCKOUT_END (R472): The 60 s refusal of session opens after 3 failures ends. -/
  | sessionLockoutEnd
  /-- SM_SELFTEST_COMPLETE (R467): The module's power-on self-tests finish and it enters READY, or FATAL SM_SELFTEST is raised. -/
  | smSelftestComplete (ok : Bool)
  /-- SM_CONDITIONAL_TEST_FAIL (R467): A failed conditional test puts the module in ERROR and zeroises volatile keys. -/
  | smConditionalTestFail
  /-- SM_GLITCH (R479): A supply or clock glitch fails the operation in progress and raises SEVERE. -/
  | smGlitch (clock : Bool)
  /-- SM_TAMPER (R479): A tamper zeroises every key, blows the TAMPERED fuse and raises FATAL. -/
  | smTamper (detector : Fin 3)
  /-- BULK_OPEN (R372): Binds a Data Port channel to a space, address, stride and mode. -/
  | bulkOpen (kiosk : Fin 32)
  /-- BULK_CLOSE (R372): Closes a Data Port channel and returns its last result. -/
  | bulkClose (kiosk : Fin 32)
  /-- BULK_STATUS (R372): Returns a channel's registers and counts. -/
  | bulkStatus (kiosk : Fin 32)
  /-- BULK_CRC (R372): Returns the CRC-32 of words of a space. -/
  | bulkCrc (kiosk : Fin 32)
  /-- BULK_SPACE_INFO (R372): Returns a space's word size, access and size. -/
  | bulkSpaceInfo (kiosk : Fin 32)
  /-- Z640_INFO (R376): Returns the ZN640 view dimensions and state. -/
  | z640Info (kiosk : Fin 32)
  /-- Z640_VIEW_SET (R376): Turns the ZN640 view on or off and sets its bases. -/
  | z640ViewSet (kiosk : Fin 32)
  /-- Z640_XP_WRITE (R374): Writes view node gains as equivalent node writes. -/
  | z640XpWrite (kiosk : Fin 32)
  /-- Z640_XP_READ (R375): Reads view node gains mapped back to ZN640 codes. -/
  | z640XpRead (kiosk : Fin 32)
  /-- Z640_STRIP_MUTE (R376): Sets MUTE on every view node of a row. -/
  | z640StripMute (kiosk : Fin 32)
  /-- Z640_RECALL (R376): Commits or discards the held view writes of tag 254. -/
  | z640Recall (kiosk : Fin 32)
  /-- Z640_STATUS (R376): Returns view running state and saturation flags. -/
  | z640Status (kiosk : Fin 32)
  /-- DATA_PORT_WRITE (R369): A write access to a Data Port window places words of its space within the current burst. -/
  | dataPortWrite (channel : Fin 4) (offset : BitVec 24) (data : List (Option Byte))
  /-- DATA_PORT_READ (R369): A read access to a Data Port window returns words of its space within the current burst. -/
  | dataPortRead (channel : Fin 4) (offset : BitVec 24) (length : Nat) (ded : Option Nat)
  /-- DP_BURST_IDLE_END (R369): A burst ends after 2 µs without an access. -/
  | dpBurstIdleEnd (channel : Fin 4)
  /-- DP_COMMIT (R371): Writing COMMIT to DP_CTRL ends the current burst. -/
  | dpCommit (channel : Fin 4)
  /-- DP_ADDR_WRITE (R371): Writing DP_ADDR ends the current burst and sets the space address. -/
  | dpAddrWrite (channel : Fin 4) (value : BitVec 32)
  /-- DP_ERROR_CLEAR (R370): Clearing ERROR resumes the channel at the current address. -/
  | dpErrorClear (channel : Fin 4)
  /-- SAMPLE_COUNT_READ (R36): A read of SAMPLE_COUNT_LO returns the low count and captures the high half into the shadow. -/
  | sampleCountRead
  /-- READ_CLEAR_REGISTER (R11): A read of an RC counter register returns its value and clears it, keeping any update made after the read. -/
  | readClearRegister (offset : BitVec 24)
  /-- FW_LOAD_WRITE (R354): Writing FW_LOAD in WAIT_IMAGE starts verification of the staged image. -/
  | fwLoadWrite (value : BitVec 32)
  /-- STAGING_WINDOW_WRITE (R354): A host write to the 2 MB staging window in WAIT_IMAGE lands in SRAM. -/
  | stagingWindowWrite (offset : BitVec 26) (data : List (Option (BitVec 8)))
  /-- FW_VERIFY_COMPLETE (R468): Image verification finishes and the firmware starts or BOOT_ERR is set. -/
  | fwVerifyComplete (verdict : Computed) (build : BitVec 64) (smVersion : BitVec 32)
  /-- FW_READY (R355): The firmware reaches READY and posts a BOOT event. -/
  | fwReady
  /-- LOG_MARK_WRITE (R363): Writing LOG_MARK sets the oldest record the host still needs. -/
  | logMarkWrite (value : BitVec 32)
  /-- RING_PROD_WRITE (R273): Writing a ring's producer index is accepted or refused with INDEX_ERR. -/
  | ringProdWrite (ring : Fin 136) (fw : Bool) (prod : BitVec 16) (mem : List (Nat × List Byte))
  /-- RING_ENABLE (R273): Setting a ring's ENABLE from 0 to 1 resets PROD and CONS. -/
  | ringEnable (ring : Fin 136) (fw : Bool) (ctrl : BitVec 32)
  /-- FLT_NFAULT_WRITE (R453): Writing FLT_NFAULT sets the software level and pulse width of nFAULT. -/
  | fltNfaultWrite (value : BitVec 32)
  /-- SYS_REMAP_WRITE (R383): Writing SYS_REMAP swaps ROM and SRAM in master 0's instruction view. -/
  | sysRemapWrite (master : Fin 8) (value : Bool)
  /-- REGISTER_WRITE (R9): A write to a register without a row of its own acts by the access codes of its fields. -/
  | registerWrite (offset : BitVec 24) (data : List (Option (BitVec 8)))
  /-- SPI_WRITE (R352): An SPI write transaction writes 1 to 4,096 bytes at consecutive offsets. -/
  | spiWrite (addr : BitVec 32) (data : List (BitVec 8)) (plain : Computed)
  /-- SPI_READ (R351): An SPI read transaction returns 1 to 4,096 bytes. -/
  | spiRead (addr : BitVec 32) (length : Nat)
  /-- SPI_STATUS (R351): An SPI status transaction returns READY, IRQ and ERR. -/
  | spiStatus
  /-- MATRIX_TRANSACTION (R384): A master issues a bus-matrix transaction that is arbitrated, decoded and answered. -/
  | matrixTransaction (tx : BusTx)
  /-- MASTER_RESET (R388): A master reset withdraws its ungranted transactions and finishes bursts with null beats. -/
  | masterReset (master : Fin 8)
  /-- PCIE_FLR (R377): A PCIe function-level reset makes every Kiosk IDLE and closes every channel. -/
  | pcieFlr
  /-- FAULT_LINE_SCAN (R443): Every 1 µs the collector scans every dual-rail pair and takes a state seen at two consecutive scans. -/
  | faultLineScan (broken : List (Nat × Nat))
  /-- FIRMWARE_FAULT_REPORT (R445): A firmware source writes a report to the collector through its port. -/
  | firmwareFaultReport
  /-- NFAULT_PULSE_END (R453): The nFAULT pulse ends and the pin returns to ASSERT. -/
  | nfaultPulseEnd
  /-- FAULT_MERGE_FLUSH (R451): At the end of a 1 ms merge window the merged reports are logged in one record. -/
  | faultMergeFlush
  /-- POWER_ON_RESET (R491): A monitored supply below its falling threshold for 1 µs asserts power-on reset. -/
  | powerOnReset
  /-- POWER_ON_RESET_RELEASE (R491): 100 µs after every monitored supply is above its rising threshold, power-on reset is released. -/
  | powerOnResetRelease
  /-- RC_STABLE (R404): The RC oscillator's settling detector declares it stable and the release sequence starts. -/
  | rcStable (unit : Bool)
  /-- BOOTCFG_MEASURE (R418): BOOTCFG is converted 8 times and the median selects the latched code. -/
  | bootcfgMeasure (counts : List (BitVec 6))
  /-- CRYSTAL_DELAY_END (R424): The crystal delay ends and the reference may be used by the PLLs. -/
  | crystalDelayEnd (refGood : Bool)
  /-- PLL_LOCK (R405): A PLL locks and the domains it serves are released or restored. -/
  | pllLock (pll : Fin 4)
  /-- DDR_TRAINING_COMPLETE (R397): LPDDR5 training completes, or fails with SEVERE DDR_FAIL. -/
  | ddrTrainingComplete (ok : Bool) (cap rate : Nat)
  /-- DDR_RETRAIN (R397): Every 100 ms the WCK-to-DQ timing is retrained. -/
  | ddrRetrain
  /-- QUARTER_RELEASE (R425): A quarter is released when all 13 district routers acknowledge the release request. -/
  | quarterRelease (failed : List (Fin 416))
  /-- DISTRICT_FAIL (R425): A router not acknowledging within 50 ms has its tiles retired and raises DEGRADE. -/
  | districtFail (district : Fin 52)
  /-- NRESET_LOW (R420): A low on nRESET of 1 µs or longer causes a SYSTEM reset. -/
  | nresetLow (ns : Nat) (taken : Bool)
  /-- PCIE_PERST (R419): PCIE_nPERST low resets the PCIe endpoint and link. -/
  | pciePerst (high : Bool)
  /-- FW_WATCHDOG (R419): No watchdog service for 1.0 s in READY raises SEVERE and causes a NOLUT reset. -/
  | fwWatchdog
  /-- NOLUT_RESTART_COMPLETE (R423): A warm restart reaches READY, or its copy fails verification with FATAL FW_RESTART. -/
  | nolutRestartComplete (verdict : Computed)
  /-- CLOCK_MONITOR_TRIP (R411): A clock monitor trips and its reaction acts. -/
  | clockMonitorTrip (monitor : Fin 6)
  /-- CLOCK_MONITOR_RECOVER (R413): A clock back in its window for 1 ms recovers and its PLL is restarted. -/
  | clockMonitorRecover (monitor : Fin 6)
  /-- SEC_LIB_VERIFY_COMPLETE (R477): The hashing and signature check of a library entry finishes, setting or clearing its VERIFIED bit and answering the command. -/
  | secLibVerifyComplete (verdict : Computed)
  /-- BOOT_IMAGE_LOADED (R354): With boot source 0 or 2, the boot ROM finishes reading the firmware image in LOADING, or fails the flash read with BOOT_ERR 4, and leaves LOADING. -/
  | bootImageLoaded (image : Option (List (BitVec 8)))
  /-- NETWORK_BOOT_TIMEOUT (R353): A management-port network boot that receives no image in time ends with BOOT_ERR 5 and STATE BOOT_FAILED. -/
  | networkBootTimeout
  /-- COMMANDED_RESET (R437): 1 ms after the response of PWR_RESET, the commanded SYSTEM or NOLUT reset takes effect and discards the commands and bursts in progress. -/
  | commandedReset
  /-- FW_HEARTBEAT_INCREMENT (R353): While STATE is READY, FW_HEARTBEAT increments once per ms and wraps modulo 2^32. -/
  | fwHeartbeatIncrement
deriving DecidableEq, Repr

end Sys2Proof
end

