-- ==== Sys2Proof/Config.lean ====
section
/-! DEFINITION. What the spec leaves open: free values and uninterpreted functions. None has a body, so no claim can
rest on what they are (notes/assumptions entries 13 and 14). -/

namespace Sys2Proof

/-- The n-th free value a run draws: a value the spec calls undefined, or states no rule for, after which the machine
goes on (12 R396, 13 R426, 16 R515; meters of 11 R368). Log entry 13. -/
opaque Config.free : Nat → Nat

/-- Identification and Don't Fragment bit of an IPv4 packet with a payload: 08 states neither. Log entry 165. -/
opaque Config.ipIdent : List Byte → BitVec 16 × Bool

/-- Type of service of the firmware's own packets: 08 does not say. Log entry 165. -/
opaque Config.fwTos : BitVec 8

/-- The UDP checksum, which is optional over IPv4, is sent: 08 does not say. Log entry 165. -/
opaque Config.udpSum : Bool

/-- Whether num / den, which lies between two codes, is given as the upper one, where the spec fixes a value and not its
rounding (07 R241, R242, R257). Log entry 156. -/
opaque Config.roundsUp : Int → Int → Bool

/-- Overlay levels that a plan, known by its BUILD_ID, binds to a block (03 R105): no record of the plan image carries
them (05 R518). Log entry 16. -/
opaque Config.priorityLevels : BitVec 64 → Nat → BitVec 16

end Sys2Proof
end

