-- ==== Sys2Proof/Machine/Bytes.lean ====
section
/-! DEFINITION. Byte order, bit fields, rounding, saturation and the two frame checks. -/

namespace Sys2Proof.Machine

/-- The number whose little-endian bytes are `b` (00 R8). -/
def leNat : List Byte → Nat
  | [] => 0
  | b :: t => b.toNat + 256 * leNat t

/-- The number whose bytes, most significant first, are `b` (07 R220). -/
def beNat (b : List Byte) : Nat := leNat b.reverse

/-- `n` little-endian bytes of `v` (00 R8). -/
def le : Nat → Nat → List Byte
  | 0, _ => []
  | n + 1, v => BitVec.ofNat 8 v :: le n (v / 256)

/-- `n` bytes of `v`, most significant first. -/
def be (n v : Nat) : List Byte := (le n v).reverse

/-- The little-endian field of `n` bytes at offset `o`; bytes past the end read 0. -/
def fld (b : List Byte) (o n : Nat) : Nat := leNat ((b.drop o).take n)

/-- The field of `n` bytes at offset `o`, most significant byte first. -/
def fldBe (b : List Byte) (o n : Nat) : Nat := beNat ((b.drop o).take n)

/-- The byte at offset `o`; 0 past the end. -/
def byteAt (b : List Byte) (o : Nat) : Byte := b.getD o 0

/-- `n` bytes of 0. -/
def zeros (n : Nat) : List Byte := List.replicate n 0

/-- `b` cut or filled with 0 to `n` bytes. -/
def sized (n : Nat) (b : List Byte) : List Byte := (b ++ zeros (n - b.length)).take n

/-- Bit `i` of a number. -/
def bitOf (v i : Nat) : Bool := v.testBit i

/-- 1 for true. -/
def b2n (b : Bool) : Nat := if b then 1 else 0

/-- The bits `hi` down to `lo` of a number. -/
def bitsOf (v hi lo : Nat) : Nat := v / 2 ^ lo % 2 ^ (hi + 1 - lo)

/-- A `w`-bit number read as two's complement. -/
def sgn (w v : Nat) : Int := (BitVec.ofNat w v).toInt

/-- The two's-complement code of `x` in `w` bits, as a number. -/
def unsgn (w : Nat) (x : Int) : Nat := (BitVec.ofInt w x).toNat

/-- Division by `d > 0` with convergent rounding: to nearest, an exact half to even (01 R30, 02 R41). -/
def roundEven (x d : Int) : Int :=
  let q := x / d
  let r := x % d
  if 2 * r < d then q else if d < 2 * r then q + 1 else if q % 2 = 0 then q else q + 1

/-- Division by `d > 0`, rounded to nearest, an exact half upward. -/
def roundUp (x d : Int) : Int := (2 * x + d) / (2 * d)

/-- `x` held within `w`-bit two's complement. -/
def satInt (w : Nat) (x : Int) : Int := max (-(2 ^ (w - 1) : Int)) (min x (2 ^ (w - 1) - 1))

/-- A counter of `w` bits that saturates. -/
def satAdd {w : Nat} (c : BitVec w) (n : Nat) : BitVec w :=
  BitVec.ofNat w (min (c.toNat + n) (2 ^ w - 1))

/-- One bit of the reflected CRC-32 of IEEE 802.3. -/
def crc32Bit (c : BitVec 32) : BitVec 32 :=
  if c.getLsbD 0 then (c >>> 1) ^^^ 0xEDB88320#32 else c >>> 1

/-- One byte of it. -/
def crc32Byte (c : BitVec 32) (b : Byte) : BitVec 32 :=
  let x := c ^^^ b.zeroExtend 32
  crc32Bit (crc32Bit (crc32Bit (crc32Bit (crc32Bit (crc32Bit (crc32Bit (crc32Bit x)))))))

/-- The CRC-32 of 09 R304. -/
def crc32 (b : List Byte) : BitVec 32 := ~~~ (b.foldl crc32Byte 0xFFFFFFFF#32)

/-- One byte of the CRC-16 of 07 R222, most significant bit first. -/
def crc16Byte (c : BitVec 16) (b : Byte) : BitVec 16 :=
  let st (c : BitVec 16) : BitVec 16 := if c.getLsbD 15 then (c <<< 1) ^^^ 0x1021#16 else c <<< 1
  st (st (st (st (st (st (st (st (c ^^^ (b.zeroExtend 16 <<< 8)))))))))

/-- The frame CRC-16 of 07 R222. -/
def crc16 (b : List Byte) : BitVec 16 := b.foldl crc16Byte 0xFFFF#16

/-- The first failing entry of a list of offsets and findings. -/
def firstBad : List (Nat × Bool) → Option Nat
  | [] => none
  | (o, ok) :: t => if ok then firstBad t else some o

/-- The bytes at `o` to `o + n - 1` are 0: entries for `firstBad`. -/
def zeroFrom (b : List Byte) (o n : Nat) : List (Nat × Bool) :=
  (List.range n).map fun i => (o + i, byteAt b (o + i) == 0)

end Sys2Proof.Machine
end

