-- ==== Sys2Proof/Machine/Crypto.lean ====
section
/-! DEFINITION. The algorithms of the Security Module (15 R465), by the standards that the spec names (log entry 162): SHA-384,
HMAC and HKDF, AES-256 and its GCM and CTR_DRBG, and ECDSA and ECDH over P-384. -/

namespace Sys2Proof.Machine

/-- A list in pieces of `k`, of which there are at most `n`. -/
def piecesOf {α : Type} (k : Nat) : Nat → List α → List (List α)
  | 0, _ => []
  | n + 1, l => if l.isEmpty then [] else l.take k :: piecesOf k n (l.drop k)

/-! ### SHA-384, HMAC and HKDF -/

/-- The round constants of SHA-384. -/
def shaK : List (BitVec 64) :=
  [0x428A2F98D728AE22, 0x7137449123EF65CD, 0xB5C0FBCFEC4D3B2F, 0xE9B5DBA58189DBBC,
     0x3956C25BF348B538, 0x59F111F1B605D019, 0x923F82A4AF194F9B, 0xAB1C5ED5DA6D8118]
  ++ [0xD807AA98A3030242, 0x12835B0145706FBE, 0x243185BE4EE4B28C, 0x550C7DC3D5FFB4E2,
     0x72BE5D74F27B896F, 0x80DEB1FE3B1696B1, 0x9BDC06A725C71235, 0xC19BF174CF692694]
  ++ [0xE49B69C19EF14AD2, 0xEFBE4786384F25E3, 0x0FC19DC68B8CD5B5, 0x240CA1CC77AC9C65,
     0x2DE92C6F592B0275, 0x4A7484AA6EA6E483, 0x5CB0A9DCBD41FBD4, 0x76F988DA831153B5]
  ++ [0x983E5152EE66DFAB, 0xA831C66D2DB43210, 0xB00327C898FB213F, 0xBF597FC7BEEF0EE4,
     0xC6E00BF33DA88FC2, 0xD5A79147930AA725, 0x06CA6351E003826F, 0x142929670A0E6E70]
  ++ [0x27B70A8546D22FFC, 0x2E1B21385C26C926, 0x4D2C6DFC5AC42AED, 0x53380D139D95B3DF,
     0x650A73548BAF63DE, 0x766A0ABB3C77B2A8, 0x81C2C92E47EDAEE6, 0x92722C851482353B]
  ++ [0xA2BFE8A14CF10364, 0xA81A664BBC423001, 0xC24B8B70D0F89791, 0xC76C51A30654BE30,
     0xD192E819D6EF5218, 0xD69906245565A910, 0xF40E35855771202A, 0x106AA07032BBD1B8]
  ++ [0x19A4C116B8D2D0C8, 0x1E376C085141AB53, 0x2748774CDF8EEB99, 0x34B0BCB5E19B48A8,
     0x391C0CB3C5C95A63, 0x4ED8AA4AE3418ACB, 0x5B9CCA4F7763E373, 0x682E6FF3D6B2B8A3]
  ++ [0x748F82EE5DEFB2FC, 0x78A5636F43172F60, 0x84C87814A1F0AB72, 0x8CC702081A6439EC,
     0x90BEFFFA23631E28, 0xA4506CEBDE82BDE9, 0xBEF9A3F7B2C67915, 0xC67178F2E372532B]
  ++ [0xCA273ECEEA26619C, 0xD186B8C721C0C207, 0xEADA7DD6CDE0EB1E, 0xF57D4F7FEE6ED178,
     0x06F067AA72176FBA, 0x0A637DC5A2C898A6, 0x113F9804BEF90DAE, 0x1B710B35131C471B]
  ++ [0x28DB77F523047D84, 0x32CAAB7B40C72493, 0x3C9EBE0A15C9BEBC, 0x431D67C49C100D4C,
     0x4CC5D4BECB3E42B6, 0x597F299CFC657E2A, 0x5FCB6FAB3AD6FAEC, 0x6C44198C4A475817]

/-- The initial hash value of SHA-384. -/
def shaInit : List (BitVec 64) :=
  [0xCBBB9D5DC1059ED8, 0x629A292A367CD507, 0x9159015A3070DD17, 0x152FECD8F70E5939,
   0x67332667FFC00B31, 0x8EB44A8768581511, 0xDB0C2E0D64F98FA7, 0x47B5481DBEFA4FA4]

/-- The message schedule, newest word first: `n` more words. -/
def shaExtend : Nat → List (BitVec 64) → List (BitVec 64)
  | 0, l => l
  | n + 1, l =>
    let w (i : Nat) : BitVec 64 := l.getD (i - 1) 0
    let s0 := (w 15).rotateRight 1 ^^^ (w 15).rotateRight 8 ^^^ (w 15 >>> 7)
    let s1 := (w 2).rotateRight 19 ^^^ (w 2).rotateRight 61 ^^^ (w 2 >>> 6)
    shaExtend n ((s1 + w 7 + s0 + w 16) :: l)

/-- One round on the words a to h, with the sum of its constant and schedule word. -/
def shaRound (v : List (BitVec 64)) (kw : BitVec 64) : List (BitVec 64) :=
  match v with
  | [a, b, c, d, e, f, g, h] =>
    let t1 := h + (e.rotateRight 14 ^^^ e.rotateRight 18 ^^^ e.rotateRight 41) + ((e &&& f) ^^^ (~~~e &&& g)) + kw
    let t2 := (a.rotateRight 28 ^^^ a.rotateRight 34 ^^^ a.rotateRight 39) + ((a &&& b) ^^^ (a &&& c) ^^^ (b &&& c))
    [t1 + t2, a, b, c, d + t1, e, f, g]
  | l => l

/-- One block of 128 bytes. -/
def shaBlock (h : List (BitVec 64)) (b : List Byte) : List (BitVec 64) :=
  let w := (shaExtend 64 (((List.range 16).map fun i => BitVec.ofNat 64 (fldBe b (8 * i) 8)).reverse)).reverse
  List.zipWith (· + ·) h ((List.zipWith (· + ·) shaK w).foldl shaRound h)

/-- SHA-384. -/
def sha384 (m : List Byte) : List Byte :=
  let n := m.length
  let p := m ++ 0x80 :: zeros ((239 - n % 128) % 128) ++ be 16 (8 * n)
  (((piecesOf 128 (p.length / 128) p).foldl shaBlock shaInit).take 6).flatMap fun w => be 8 w.toNat

/-- Bytes combined by exclusive or. -/
def xorBytes (a b : List Byte) : List Byte := List.zipWith (· ^^^ ·) a b

/-- HMAC with SHA-384. -/
def hmac384 (key m : List Byte) : List Byte :=
  let k := sized 128 (if 128 < key.length then sha384 key else key)
  sha384 (xorBytes k (List.replicate 128 0x5C) ++ sha384 (xorBytes k (List.replicate 128 0x36) ++ m))

/-- Blocks of HKDF's expansion, of index `i` on. -/
def hkdfBlocks (prk info : List Byte) : Nat → Nat → List Byte → List Byte
  | 0, _, _ => []
  | n + 1, i, t =>
    let t' := hmac384 prk (t ++ info ++ [BitVec.ofNat 8 i])
    t' ++ hkdfBlocks prk info n (i + 1) t'

/-- HKDF with SHA-384. -/
def hkdf384 (salt ikm info : List Byte) (len : Nat) : List Byte :=
  (hkdfBlocks (hmac384 salt ikm) info ((len + 47) / 48) 1 []).take len

/-! ### AES-256 -/

/-- Multiplication by x in the field of AES. -/
def gfDouble (b : Byte) : Byte := (b <<< 1) ^^^ (if b.getLsbD 7 then 0x1B else 0)

/-- Multiplication in the field of AES. -/
def gfMul (a b : Byte) : Byte :=
  ((List.range 8).foldl (fun p i => (gfDouble p.1, if b.getLsbD i then p.2 ^^^ p.1 else p.2)) (a, (0 : Byte))).2

/-- The inverse in that field, b^254; 0 for 0. -/
def gfInv (b : Byte) : Byte :=
  ((List.range 7).foldl (fun p _ =>
    let q := gfMul p.1 p.1
    (q, gfMul p.2 q)) (b, (1 : Byte))).2

/-- The S-box of AES, one byte. -/
def aesSub (b : Byte) : Byte :=
  let i := gfInv b
  i ^^^ i.rotateLeft 1 ^^^ i.rotateLeft 2 ^^^ i.rotateLeft 3 ^^^ i.rotateLeft 4 ^^^ 0x63

/-- The words of the key schedule of AES-256, newest first: `n` more, of index `i` on. -/
def aesExpand : Nat → Nat → List (List Byte) → List (List Byte)
  | 0, _, l => l
  | n + 1, i, l =>
    let t := l.headD []
    let t := if i % 8 = 0 then
        xorBytes ((t.drop 1 ++ t.take 1).map aesSub) [(List.range (i / 8 - 1)).foldl (fun b _ => gfDouble b) 1, 0, 0, 0]
      else if i % 8 = 4 then t.map aesSub else t
    aesExpand n (i + 1) (xorBytes (l.getD 7 []) t :: l)

/-- The 15 round keys. -/
def aesKeys (key : List Byte) : List (List Byte) :=
  piecesOf 16 15 ((aesExpand 52 8 (piecesOf 4 8 key).reverse).reverse.flatten)

/-- ShiftRows. -/
def aesShift (b : List Byte) : List Byte := (List.range 16).map fun i => byteAt b ((i + 4 * (i % 4)) % 16)

/-- MixColumns. -/
def aesMix (b : List Byte) : List Byte :=
  (List.range 16).map fun i =>
    let c (k : Nat) : Byte := byteAt b (4 * (i / 4) + (i + k) % 4)
    gfDouble (c 0) ^^^ (gfDouble (c 1) ^^^ c 1) ^^^ c 2 ^^^ c 3

/-- AES-256 of one block under expanded keys. -/
def aesBlock (ks : List (List Byte)) (b : List Byte) : List Byte :=
  let s := (ks.drop 1).take 13 |>.foldl (fun s k => xorBytes (aesMix (aesShift (s.map aesSub))) k) (xorBytes b (ks.headD []))
  xorBytes (aesShift (s.map aesSub)) (ks.getD 14 [])

/-! ### GCM -/

/-- Multiplication in the field of GCM: bit 0 of the standard is the most significant bit. -/
def ghMul (x y : BitVec 128) : BitVec 128 :=
  ((List.range 128).foldl (fun (p : BitVec 128 × BitVec 128) i =>
    let z := if x.getMsbD i then p.1 ^^^ p.2 else p.1
    (z, (p.2 >>> 1) ^^^ (if p.2.getLsbD 0 then 0xE1000000000000000000000000000000#128 else 0))) (0, y)).1

/-- Bytes filled with 0 to whole blocks, as blocks. -/
def blocks16 (b : List Byte) : List (List Byte) := (piecesOf 16 (b.length / 16 + 1) b).map (sized 16)

/-- GHASH of associated data and ciphertext. -/
def ghash (h : BitVec 128) (aad c : List Byte) : BitVec 128 :=
  (blocks16 aad ++ blocks16 c ++ [be 8 (8 * aad.length) ++ be 8 (8 * c.length)]).foldl
    (fun y b => ghMul (y ^^^ BitVec.ofNat 128 (beNat b)) h) 0

/-- The key stream of GCM from counter `n` on, added to data. -/
def gcmStream (ks : List (List Byte)) (iv data : List Byte) : List Byte :=
  let l := piecesOf 16 (data.length / 16 + 1) data
  (List.zipWith (fun b i => xorBytes b (aesBlock ks (iv ++ be 4 (i + 2)))) l (List.range l.length)).flatten

/-- The tag of a ciphertext. -/
def gcmTag (ks : List (List Byte)) (iv aad c : List Byte) : List Byte :=
  let h := BitVec.ofNat 128 (beNat (aesBlock ks (zeros 16)))
  xorBytes (be 16 (ghash h aad c).toNat) (aesBlock ks (iv ++ be 4 1))

/-- AES-256-GCM with a 12-byte IV: ciphertext and tag. -/
def gcmSeal (key iv aad plain : List Byte) : List Byte :=
  let ks := aesKeys key
  let c := gcmStream ks iv plain
  c ++ gcmTag ks iv aad c

/-- The plaintext of a ciphertext with its tag, where the tag is good. -/
def gcmOpen (key iv aad data : List Byte) : Option (List Byte) :=
  let ks := aesKeys key
  let c := data.take (data.length - 16)
  if 16 ≤ data.length ∧ gcmTag ks iv aad c = data.drop (data.length - 16) then some (gcmStream ks iv c) else none

/-! ### CTR_DRBG with AES-256, without a derivation function -/

/-- `n` blocks of output after the counter `v`. -/
def drbgBlocks (key : List Byte) (v n : Nat) : List Byte :=
  let ks := aesKeys key
  (List.range n).flatMap fun i => aesBlock ks (be 16 ((v + i + 1) % 2 ^ 128))

/-- Update of the key and counter with 48 bytes. -/
def drbgUpdate (g : List Byte × List Byte) (d : List Byte) : List Byte × List Byte :=
  let t := xorBytes (drbgBlocks g.1 (beNat g.2) 3) (sized 48 d)
  (t.take 32, t.drop 32)

/-- `n` random bytes after a reseed with 48 bytes of entropy, and the next key and counter. -/
def drbgGenerate (g : List Byte × List Byte) (entropy : List Byte) (n : Nat) : List Byte × (List Byte × List Byte) :=
  let g := drbgUpdate g entropy
  let b := (n + 15) / 16
  ((drbgBlocks g.1 (beNat g.2) b).take n, drbgUpdate (g.1, be 16 ((beNat g.2 + b) % 2 ^ 128)) [])

/-! ### P-384 -/

/-- The field's prime. -/
def ecP : Nat := 2 ^ 384 - 2 ^ 128 - 2 ^ 96 + 2 ^ 32 - 1

/-- The order of the base point. -/
def ecN : Nat := 0xFFFFFFFFFFFFFFFFFFFFFFFFFFFFFFFFFFFFFFFFFFFFFFFFC7634D81F4372DDF581A0DB248B0A77AECEC196ACCC52973

/-- The coefficient b of the curve y^2 = x^3 - 3 x + b. -/
def ecB : Nat := 0xB3312FA7E23EE7E4988E056BE3F82D19181D9C6EFE8141120314088F5013875AC656398D8A2ED19D2A85C8EDD3EC2AEF

/-- The base point. -/
def ecG : Nat × Nat :=
  (0xAA87CA22BE8B05378EB1C71EF320AD746E1D3B628BA79B9859F741E082542A385502F25DBF55296C3A545E3872760AB7,
   0x3617DE4A96262C6F5D9E98BF9292DC29F8F41DBD289A147CE9DA3113B5F0B8C00A60B1CE1D7E819D7A431D7C90EA0E5F)

/-- b^e mod m, for e below 2^384. -/
def powMod (b e m : Nat) : Nat :=
  (List.range 384).foldl (fun r i =>
    let r := r * r % m
    if e.testBit (383 - i) then r * b % m else r) 1

/-- The inverse modulo a prime. -/
def invMod (a m : Nat) : Nat := powMod (a % m) (m - 2) m

/-- A difference modulo the field's prime. -/
def ecSub (a b : Nat) : Nat := (a + ecP - b % ecP) % ecP

/-- Twice a point in Jacobian coordinates; Z = 0 is the point at infinity. -/
def ecDouble (q : Nat × Nat × Nat) : Nat × Nat × Nat :=
  let (x, y, z) := q
  let yy := y * y % ecP
  let s := 4 * x * yy % ecP
  let zz := z * z % ecP
  let m := 3 * (ecSub x zz * (x + zz)) % ecP
  let x3 := ecSub (m * m) (2 * s)
  (x3, ecSub (m * ecSub s x3) (8 * yy * yy), 2 * y * z % ecP)

/-- The sum of two points in Jacobian coordinates. -/
def ecAdd (p q : Nat × Nat × Nat) : Nat × Nat × Nat :=
  let (x1, y1, z1) := p
  let (x2, y2, z2) := q
  if z1 = 0 then q else if z2 = 0 then p
  else
    let a := z1 * z1 % ecP
    let b := z2 * z2 % ecP
    let u1 := x1 * b % ecP
    let h := ecSub (x2 * a) u1
    let s1 := y1 * z2 % ecP * b % ecP
    let r := ecSub (y2 * z1 % ecP * a) s1
    if h = 0 then (if r = 0 then ecDouble p else (1, 1, 0))
    else
      let hh := h * h % ecP
      let v := u1 * hh % ecP
      let h3 := h * hh % ecP
      let x3 := ecSub (r * r) (h3 + 2 * v)
      (x3, ecSub (r * ecSub v x3) (s1 * h3), z1 * z2 % ecP * h % ecP)

/-- `k` times an affine point, in Jacobian coordinates. -/
def ecMul (k : Nat) (q : Nat × Nat) : Nat × Nat × Nat :=
  (List.range 384).foldl (fun r i =>
    let r := ecDouble r
    if k.testBit (383 - i) then ecAdd r (q.1, q.2, 1) else r) (1, 1, 0)

/-- Affine coordinates; none for the point at infinity. -/
def ecAffine (q : Nat × Nat × Nat) : Option (Nat × Nat) :=
  let (x, y, z) := q
  if z = 0 then none
  else
    let i := invMod z ecP
    let ii := i * i % ecP
    some (x * ii % ecP, y * ii % ecP * i % ecP)

/-- A public key of 97 bytes, uncompressed: a point of the curve. -/
def ecPoint (b : List Byte) : Option (Nat × Nat) :=
  let x := fldBe b 1 48
  let y := fldBe b 49 48
  if b.length = 97 ∧ byteAt b 0 = 4 ∧ x < ecP ∧ y < ecP ∧ y * y % ecP = ecSub (x * x * x + ecB) (3 * x) then some (x, y) else none

/-- The public key of a private key, uncompressed. -/
def ecPublic (d : Nat) : List Byte :=
  match ecAffine (ecMul d ecG) with
  | some (x, y) => 4 :: be 48 x ++ be 48 y
  | none => zeros 97

/-- The x-coordinate of the ECDH result; none where the public key is no point of the curve. -/
def ecdh (d : Nat) (pub : List Byte) : Option (List Byte) :=
  match ecPoint pub with
  | some q => (ecAffine (ecMul d q)).map fun p => be 48 p.1
  | none => none

/-- A private key from 56 random bytes. -/
def ecPrivate (b : List Byte) : Nat := beNat b % (ecN - 1) + 1

/-- The ECDSA signature of a 48-byte digest with private key `d` and the secret number `k`: r then s. -/
def ecdsaSign (d k : Nat) (digest : List Byte) : List Byte :=
  let r := (match ecAffine (ecMul k ecG) with
    | some (x, _) => x
    | none => 0) % ecN
  be 48 r ++ be 48 (invMod k ecN * (beNat digest + r * d) % ecN)

/-- An ECDSA signature, r then s, of a 48-byte digest verifies with a public key. -/
def ecdsaVerify (pub digest sig : List Byte) : Bool :=
  let r := fldBe sig 0 48
  let s := fldBe sig 48 48
  match ecPoint pub with
  | none => false
  | some q =>
    decide (sig.length = 96 ∧ 1 ≤ r ∧ r < ecN ∧ 1 ≤ s ∧ s < ecN) &&
      let w := invMod s ecN
      match ecAffine (ecAdd (ecMul (beNat digest * w % ecN) ecG) (ecMul (r * w % ecN) q)) with
      | some (x, _) => x % ecN == r
      | none => false

end Sys2Proof.Machine
end

