-- ==== Sys2Proof/Machine/Table.lean ====
section
/-! DEFINITION. Sparse tables in canonical form (keys strictly rising, no entry equal to the table's default), so that
equal tables are equal data. -/

namespace Sys2Proof.Machine

variable {α : Type}

/-- The value at key `k`; an unlisted key holds the default `d`. -/
def tget (d : α) : Tab α → Nat → α
  | [], _ => d
  | (j, v) :: t, k => if j = k then v else tget d t k

/-- `t` without the key `k`. -/
def tdel : Tab α → Nat → Tab α
  | [], _ => []
  | (j, w) :: t, k => if j = k then tdel t k else (j, w) :: tdel t k

/-- `t` with the entry `v` at key `k`, in its place. -/
def tins : Tab α → Nat → α → Tab α
  | [], k, v => [(k, v)]
  | (j, w) :: t, k, v =>
    if k < j then (k, v) :: (j, w) :: t
    else if j = k then (k, v) :: t
    else (j, w) :: tins t k v

/-- `t` with the value `v` at key `k`, in canonical form. -/
def tput [DecidableEq α] (d : α) (t : Tab α) (k : Nat) (v : α) : Tab α := if v = d then tdel t k else tins t k v

/-- `t` with the value at key `k` changed by `f`. -/
def tmod [DecidableEq α] (d : α) (t : Tab α) (k : Nat) (f : α → α) : Tab α :=
  tput d t k (f (tget d t k))

/-- A table that holds `v` at every key of `ks` beside what `t` holds. -/
def tputs [DecidableEq α] (d : α) (t : Tab α) (l : List (Nat × α)) : Tab α :=
  l.foldl (fun t p => tput d t p.1 p.2) t

/-- The canonical form above a bound: keys rise strictly from `b` on, and no entry holds the default. -/
def tabFrom [DecidableEq α] (d : α) : Nat → Tab α → Bool
  | _, [] => true
  | b, (j, v) :: t => decide (b ≤ j) && decide (v ≠ d) && tabFrom d (j + 1) t

/-- The canonical form of a table. -/
def tabOk [DecidableEq α] (d : α) (t : Tab α) : Bool := tabFrom d 0 t

end Sys2Proof.Machine
end

