-- ==== Sys2Proof/Machine/State.lean ====
section
/-! DEFINITION. Everything the spec gives the ZN1840 as plain data, the queue of waiting commands, the reasons a step
can stop, and the state while power-on reset is asserted. Each field names the rule of spec/ that gives it. -/

namespace Sys2Proof.Machine

/-- A sample rate (00 R3). -/
inductive Rate where
  /-- 48 kHz. -/
  | r48
  /-- 96 kHz. -/
  | r96
  /-- 192 kHz. -/
  | r192
deriving DecidableEq, Repr, Inhabited

/-- A power state of the engine (13 R431 to R434); `waking` is the wake sequence of R434. -/
inductive Power where
  /-- Full service. -/
  | run
  /-- No waves. -/
  | hush
  /-- Kept state only. -/
  | retain
  /-- The wake sequence of R434. -/
  | waking
deriving DecidableEq, Repr, Inhabited

/-- Why a second site computes a piece of work (06 R191 to R198). -/
inductive MoveKind where
  /-- A planned move with a comparison window. -/
  | planned
  /-- An urgent move without one. -/
  | urgent
  /-- An audit on an idle tile. -/
  | audit
  /-- A third tile that recomputes a disputed window. -/
  | tieBreak
deriving DecidableEq, Repr, Inhabited

/-- Where a channel's short sequence stands (07 R247). -/
inductive ShortSt where
  /-- No short. -/
  | none
  /-- The hold-off. -/
  | holdOff
  /-- The 200 ms probe. -/
  | probe
  /-- The 10 s wait. -/
  | waiting
deriving DecidableEq, Repr, Inhabited

/-- Where the program of a Lane stands in the wave in progress (03 R118, R120; 04 R130). -/
inductive LanePhase where
  /-- Not launched. -/
  | idle
  /-- Instructions issue. -/
  | run
  /-- HALT has issued and is not complete. -/
  | halting
  /-- HALT is complete. -/
  | done
  /-- The wave is discarded. -/
  | over
deriving DecidableEq, Repr, Inhabited

/-- One write of a Lane instruction on its way to its register (03 R97). -/
inductive LaneWr where
  /-- No write. -/
  | nothing
  /-- A D register. -/
  | d (r : BitVec 4) (v : W36)
  /-- An accumulator. -/
  | ac (r : BitVec 2) (v : BitVec 80)
  /-- A pointer. -/
  | pt (r : BitVec 3) (v : BitVec 13)
  /-- A base register. -/
  | bs (r : BitVec 3) (v : BitVec 13)
  /-- A length register. -/
  | ln (r : BitVec 3) (v : BitVec 14)
  /-- A step register. -/
  | dt (r : BitVec 3) (v : BitVec 14)
  /-- The flags N, Z, V, C (bits 3 to 0) that `mask` names. -/
  | flags (mask val : BitVec 4)
  /-- Sticky bits of LST that become 1. -/
  | sticky (bits : W36)
  /-- A write of LST by MVTC. -/
  | lst (v : W36)
  /-- A write of LCTL. -/
  | lctl (v : W36)
  /-- A write of EPC. -/
  | epc (v : BitVec 12)
deriving DecidableEq, Repr, Inhabited

/-- The branch whose delay slot issues next (03 R97, R100, R108). -/
inductive Delay where
  /-- No branch is outstanding. -/
  | none
  /-- A branch, with its target when it is taken. -/
  | branch (target : Option (BitVec 12))
  /-- A return from an event handler. -/
  | rete
deriving DecidableEq, Repr, Inhabited


/-- One report on its way to the fault collector (14 R443, R445). -/
structure Rep where
  /-- 16-bit source code (14 R446). -/
  src : Nat := 0
  /-- 32-bit OBJECT (14 R458). -/
  obj : Nat := 0
  /-- 64 (14 R457). -/
  data : BitVec 64 := 0
  /-- scans in which the pair has shown the error (14 R443). -/
  seen : Nat := 0
  /-- 1, the condition ended (14 R451). -/
  ended : Bool := false
  /-- 1 (14 R455). -/
  injected : Bool := false
  /-- 1 (14 R456). -/
  reRaised : Bool := false
  /-- 64, sample counter at the wave of the report (14 R457). -/
  sample : BitVec 64 := 0
deriving DecidableEq, Repr, Inhabited

/-- The sample wave and the sample counter (01). -/
structure WaveS where
  /-- 64, the sample counter (01 R35). Reset: 0. -/
  count : BitVec 64 := 0
  /-- 1, the counter domain has had its first tick (01 R35). Reset: model field, DESIGN CHOICE false (log 12). -/
  ticked : Bool := false
  /-- 64, number of the wave in progress (01 R19). Reset: model field, DESIGN CHOICE 0 (log 12). -/
  num : BitVec 64 := 0
  /-- 1, a wave has been launched and its deadline has not come (01 R19). Reset: false: no wave runs after reset. -/
  live : Bool := false
  /-- 1, WAVE_RUN (01 R36). Reset: 0. -/
  running : Bool := false
  /-- 2, RATE (01 R36). Reset: 0b11 no rate set. -/
  rate : Option Rate := none
  /-- 1, COUNTER_VALID (01 R36). Reset: 0. -/
  counterValid : Bool := false
  /-- 1, SETTLED (01 R36). Reset: 0. -/
  settled : Bool := false
  /-- 8, MIN_SLACK (01 R36). Reset: 0x00. -/
  minSlack : BitVec 8 := 0
  /-- 8, lowest slack measured so far in the wave in progress (01 R24). Reset: none. -/
  minAcc : Option (BitVec 8) := none
  /-- 32, shadow of SAMPLE_COUNT_HI (01 R36). Reset: 0x00000000. -/
  shadowHi : BitVec 32 := 0
  /-- 32, WAVE_MISS_COUNT (01 R36). Reset: 0x00000000. -/
  missCount : BitVec 32 := 0
  /-- the work codes that have completed the wave in progress (01 R22). Reset: empty. -/
  done : List Nat := []
  /-- the work codes whose wave in progress is discarded for another cause than speed (01 R25). Reset: empty. -/
  dropped : List Nat := []
  /-- repairs that wait for the flip: a tile; 0x10000 + region x 1024 + macro for an eDRAM row (01 R16). Reset: empty. -/
  repairs : List Nat := []
  /-- value that the first tick of a new counter domain carries (13 R440). Reset: none. -/
  firstTick : Option (BitVec 64) := none
  /-- value that the next tick carries after a step of the counter (01 R35). Reset: none. -/
  step : Option (BitVec 64) := none
  /-- 1, HUSH has begun and the outputs are yet to present the results of its last wave (13 R433). Reset: false. -/
  tail : Bool := false
deriving DecidableEq, Repr, Inhabited

/-- The partial sums of a Square (02 R41). -/
structure Partial where
  /-- 256 x 72-bit signed, column by column (02 R41). -/
  vals : List Int := []
  /-- 64, wave that wrote it (01 R26). -/
  wave : BitVec 64 := 0
deriving DecidableEq, Repr, Inhabited

/-- The words between ports, rows, blocks, buses and sinks (01 R20, R21). -/
structure SigS where
  /-- Z36 word of each source code, latched at the last tick (01 R21). Reset: all 0. -/
  latch : Tab W36 := []
  /-- Z36 word of each source that the wave in progress reads (01 R21). Reset: all 0. -/
  srcCur : Tab W36 := []
  /-- Z36 input of each row in the wave in progress (02 R41). Reset: all 0. -/
  rowCur : Tab W36 := []
  /-- Z36 input of each row in the previous wave (02 R44). Reset: all 0. -/
  rowPrev : Tab W36 := []
  /-- results that producers have written in the wave in progress, by endpoint code (01 R20). Reset: none written. -/
  outNew : Tab (Option W36) := []
  /-- results that consumers read in the wave in progress (01 R20). Reset: all 0. -/
  outCur : Tab W36 := []
  /-- contents of the delay lines of the delay pool, newest first, by consumer endpoint (05 R163). Reset: all empty. -/
  lines : Tab (List W36) := []
  /-- partial sums that the Avenue reads in the wave in progress, by logical Square (02 R41). Reset: all 0. -/
  sumPart : Tab Partial := []
  /-- partial sums written in the wave in progress, by logical Square (01 R20). Reset: none written. -/
  sumNew : Tab Partial := []
  /-- words handed off to the sinks in the output window (01 R21). Reset: all 0. -/
  sinkNext : Tab W36 := []
  /-- words the sinks present from the last tick (01 R21). Reset: all 0. -/
  sinkNow : Tab W36 := []
  /-- waves for which a sink still presents 0 after a plan took effect (05 R175). Reset: all 0. -/
  quiet : Tab Nat := []
  /-- TDM output slot words of the frame begun at the last tick (09 R295). Reset: all 0. -/
  tdmOut : Tab (BitVec 32) := []
  /-- TDM output slots of that frame at high impedance (09 R296). Reset: none. -/
  tdmHz : List Nat := []
deriving DecidableEq, Repr, Inhabited

/-- One entry of a Square's queue (02 R48). -/
structure QEntry where
  /-- 23-bit gain-space index (02 R48). -/
  idx : Nat := 0
  /-- 32 (02 R48). -/
  word : BitVec 32 := 0
  /-- class: held or pending (02 R48). -/
  held : Bool := false
  /-- 8-bit scene tag (02 R48). -/
  tag : Nat := 0
  /-- 64, entry wave (02 R45). -/
  wave : BitVec 64 := 0
  /-- samples (02 R45). -/
  timeout : Nat := 0
deriving DecidableEq, Repr, Inhabited

/-- A scheduled or accepted scene commit (02 R53). -/
structure Sched where
  /-- 8 (02 R73). -/
  tag : Nat := 0
  /-- MODE: same wave (02 R73). -/
  same : Bool := false
  /-- 64, AT_SAMPLE, or the accepted wave when asap (02 R53). -/
  at64 : BitVec 64 := 0
  /-- Kiosk that waits for an as-soon-as-possible commit (02 R73). -/
  asap : Option Nat := none
deriving DecidableEq, Repr, Inhabited

/-- A pending overlay transition (02 R58). -/
structure Trans where
  /-- 32, the word in force (02 R58). -/
  held : BitVec 32 := 0
  /-- the word in force is an override (02 R70). -/
  ovr : Bool := false
  /-- 64, wave a (02 R58). -/
  start : BitVec 64 := 0
deriving DecidableEq, Repr, Inhabited

/-- A PRI binding (02 R79). -/
structure Bind where
  /-- 4 (02 R79). -/
  level : Nat := 0
  /-- 1 (02 R57). -/
  brokenActs : Bool := false
deriving DecidableEq, Repr, Inhabited

/-- One supervised priority input (02 R56). -/
structure PriS where
  /-- 1, the confirmed state (02 R56). Reset: idle. -/
  asserted : Bool := false
  /-- last reading: 0 idle, 1 asserted, 2 invalid (02 R56). Reset: 2: nothing read (log 12). -/
  last : Nat := 2
  /-- adjacent invalid readings (14 R454). Reset: 0. -/
  invalidFor : Nat := 0
  /-- 1 (02 R57). Reset: 0. -/
  broken : Bool := false
  /-- wave in which a bound level follows the last change (02 R56). Reset: none. -/
  follows : Option (BitVec 64) := none
  /-- 1, the state that a bound level follows now (02 R56). Reset: idle. -/
  eff : Bool := false
deriving DecidableEq, Repr, Inhabited

/-- An accepted XP_OVL_SET that waits for its effect wave (02 R78). -/
structure LvlCmd where
  /-- Kiosk that waits, 32 when none (02 R78). -/
  kiosk : Nat := 0
  /-- 16 (02 R78). -/
  setM : BitVec 16 := 0
  /-- 16 (02 R78). -/
  clrM : BitVec 16 := 0
  /-- 64, effect wave (02 R56). -/
  wave : BitVec 64 := 0
deriving DecidableEq, Repr, Inhabited

/-- A Square's timeout log state (02 R47). -/
structure ToLog where
  /-- wave of its last record (02 R47). Reset: none. -/
  last : Option (BitVec 64) := none
  /-- timeouts counted since (02 R47). Reset: 0. -/
  held : Nat := 0
deriving DecidableEq, Repr, Inhabited

/-- One Alley bus (02 R63, R81). -/
structure AlleyS where
  /-- 16, saturating (02 R81). Reset: 0. -/
  losses : BitVec 16 := 0
  /-- 16, saturating (02 R81). Reset: 0. -/
  noMaj : BitVec 16 := 0
  /-- 8 (02 R81). Reset: 0xFF none. -/
  lastLoser : BitVec 8 := 0xFF
  /-- 36, previous voted sample (02 R63). Reset: 0. -/
  prev : W36 := 0
  /-- 36 + saturated, sum held by the first replica for the vote of this wave; none: from a missed wave (02 R61, R63).
  Reset: 0, and 0 when a plan takes effect (05 R175). -/
  rep1 : Option (W36 × Bool) := some (0, false)
  /-- the same of the second replica (02 R61). Reset: 0. -/
  rep2 : Option (W36 × Bool) := some (0, false)
  /-- sum that the first replica has completed in this wave (02 R61). Reset: none. -/
  new1 : Option (W36 × Bool) := none
  /-- the same of the second replica (02 R61). Reset: none. -/
  new2 : Option (W36 × Bool) := none
deriving DecidableEq, Repr, Inhabited

/-- An application of the wave in progress that its Square has not committed (01 R25). -/
structure Undo where
  /-- 23, node (02 R37). -/
  idx : Nat := 0
  /-- 32, base word before it (02 R40). -/
  base : BitVec 32 := 0
  /-- error entries of the node before it (02 R38). -/
  err : List Nat := []
  /-- queue entry that applied (02 R45). -/
  entry : Option QEntry := none
  /-- word that was applied at once (02 R48). -/
  direct : Option QEntry := none
  /-- transition that applied (02 R58). -/
  trans : Option Trans := none
  /-- counted in XP_TIMEOUT_COUNT (02 R47). -/
  timed : Bool := false
deriving DecidableEq, Repr, Inhabited

/-- The mixing crosspoint (02). -/
structure XpS where
  /-- 32 each, base word by gain-space index (02 R39). Reset: all 0x00000000. -/
  base : Tab (BitVec 32) := []
  /-- nodes with a double-bit error: copy x 2^23 + index (02 R38). Reset: empty. -/
  err : List Nat := []
  /-- the queues of all Squares, in order of entry (02 R48). Reset: empty. -/
  queue : List QEntry := []
  /-- STEP 0b01 words that become base words in the wave they carry (02 R48). Reset: empty. -/
  direct : List QEntry := []
  /-- applications of the wave in progress that are not committed, latest first (01 R25). Reset: empty. -/
  undo : List Undo := []
  /-- 80, REFUSED flags (02 R72). Reset: 0. -/
  refused : BitVec 80 := 0
  /-- 8, timeout code (02 R45). Reset: 20. -/
  stTimeout : BitVec 8 := 20
  /-- 32, XP_TIMEOUT_COUNT (02 R67). Reset: 0x00000000. -/
  timeouts : BitVec 32 := 0
  /-- per Square (02 R47). Reset: none logged. -/
  toLog : Tab ToLog := []
  /-- scheduled and accepted commits (02 R53). Reset: empty. -/
  scheds : List Sched := []
  /-- override by level x 2^23 + index (02 R54). Reset: none. -/
  ovr : Tab (Option (BitVec 32)) := []
  /-- 16, levels set by command (02 R55). Reset: 0. -/
  cmdSet : BitVec 16 := 0
  /-- 16, OVL_ACTIVE (02 R67). Reset: 0x0000. -/
  active : BitVec 16 := 0
  /-- accepted level commands (02 R78). Reset: empty. -/
  lvlCmds : List LvlCmd := []
  /-- pending transitions by gain-space index (02 R58). Reset: none. -/
  trans : Tab (Option Trans) := []
  /-- bindings of inputs 0 to 7 (02 R79). Reset: unbound. -/
  bind : Tab (Option Bind) := []
  /-- bindings of XP_OVL_BIND that act from the next tick (02 R68). Reset: none. -/
  bindNext : Tab (Option (Option Bind)) := []
  /-- 16, PRI_HELD: levels that a PRI input holds active in the wave in progress (02 R80). Reset: 0. -/
  priHeld : BitVec 16 := 0
  /-- responses that are returned after the wave in progress: Kiosk and payload (02 R73, R78). Reset: none. -/
  replies : List (Nat × List Byte) := []
  /-- PRI inputs 0 to 7 (02 R56). Reset: idle. -/
  pri : Tab PriS := []
  /-- bus columns whose sticky saturation flag is set (02 R43). Reset: empty. -/
  sat : List Nat := []
  /-- 1, ALLEY_LOSS (02 R67). Reset: 0. -/
  alleyLoss : Bool := false
  /-- 1, QUEUE_REFUSED (02 R67). Reset: 0. -/
  queueRefused : Bool := false
  /-- Alley buses 0 to 63 (02 R63). Reset: counters 0. -/
  alley : Tab AlleyS := []
  /-- readings taken while no rate is set (02 R56). Reset: 0. -/
  noRate : Nat := 0
deriving DecidableEq, Repr, Inhabited

/-- A loop-stack entry (03 R91). -/
structure LoopE where
  /-- 12, start address (03 R91). Reset: 0. -/
  first : BitVec 12 := 0
  /-- 12, end address (03 R91). Reset: 0. -/
  last : BitVec 12 := 0
  /-- 16, remaining count (03 R91). Reset: 0. -/
  count : BitVec 16 := 0
  /-- pushed by REP (03 R89). -/
  rep : Bool := false
deriving DecidableEq, Repr, Inhabited

/-- One bank of the banked registers (03 R91). -/
structure Bank where
  /-- 16 x 36, D0 to D15 (03 R91). Reset: 0. -/
  d : Tab W36 := []
  /-- 4 x 80, AC0 to AC3 (03 R91). Reset: 0. -/
  ac : Tab (BitVec 80) := []
  /-- 4 x 13, PT0 to PT3 (03 R91). Reset: 0. -/
  pt : Tab (BitVec 13) := []
  /-- 4 x 13, BS0 to BS3 (03 R91). Reset: 0. -/
  bs : Tab (BitVec 13) := []
  /-- 4 x 14, LN0 to LN3 (03 R91). Reset: 0. -/
  ln : Tab (BitVec 14) := []
  /-- 4 x 14, DT0 to DT3 (03 R91). Reset: 0. -/
  dt : Tab (BitVec 14) := []
  /-- up to 4 entries, top first (03 R91). Reset: empty. -/
  loops : List LoopE := []
deriving DecidableEq, Repr, Inhabited

/-- One section of the SOS store (03 R111). -/
structure Section where
  /-- 36 (03 R111). Reset: 0. -/
  b0 : W36 := 0
  /-- 36 (03 R111). Reset: 0. -/
  b1 : W36 := 0
  /-- 36 (03 R111). Reset: 0. -/
  b2 : W36 := 0
  /-- 36 (03 R111). Reset: 0. -/
  a1 : W36 := 0
  /-- 36 (03 R111). Reset: 0. -/
  a2 : W36 := 0
  /-- 36 (03 R111). Reset: 0. -/
  x1 : W36 := 0
  /-- 36 (03 R111). Reset: 0. -/
  x2 : W36 := 0
  /-- 36 (03 R111). Reset: 0. -/
  y1 : W36 := 0
  /-- 36 (03 R111). Reset: 0. -/
  y2 : W36 := 0
deriving DecidableEq, Repr, Inhabited

/-- One chain-table entry (03 R112). -/
structure Chain where
  /-- 3 (03 R112). -/
  group : Nat := 0
  /-- 7 (03 R112). -/
  inp : Nat := 0
  /-- 7 (03 R112). -/
  out : Nat := 0
  /-- 9 (03 R112). -/
  first : Nat := 0
  /-- 9 (03 R112). -/
  count : Nat := 0
deriving DecidableEq, Repr, Inhabited

/-- The group that the SOS unit runs (03 R113, R116). -/
structure SosRun where
  /-- chains still to end, the running one first (03 R112). -/
  chains : List Chain := []
  /-- sections of the running chain that are complete (03 R113). -/
  k : Nat := 0
  /-- sections of the group that are complete (03 R118). -/
  n : Nat := 0
  /-- the word that enters the next section (03 R113). -/
  x : W36 := 0
  /-- the same in the set that a fade brings in (05 R166). -/
  x2 : W36 := 0
deriving DecidableEq, Repr, Inhabited

/-- A channel trim on its way to its parameter word (05 R165). -/
structure Trim where
  /-- Y address of the word (05 R164). -/
  addr : Nat := 0
  /-- input channel whose zero crossing lets it act (05 R165). -/
  ch : Nat := 0
  /-- 36, the word. -/
  val : W36 := 0
  /-- samples left until it acts without a crossing (02 R45). -/
  left : Nat := 0
deriving DecidableEq, Repr, Inhabited

/-- The context of a Lane that a wave commits or discards (01 R25). -/
structure LaneCtx where
  /-- 8,192 x 36, X memory (03 R82). Reset: 0 (log 3). -/
  x : Tab W36 := []
  /-- 8,192 x 36, Y memory (03 R82). Reset: 0 (log 3). -/
  y : Tab W36 := []
  /-- 4,096 x 36, P memory (03 R82). Reset: 0 (log 3). -/
  p : Tab W36 := []
  /-- the main bank (03 R91). Reset: 0. -/
  main : Bank := {}
  /-- the shadow bank (03 R91). Reset: 0. -/
  shad : Bank := {}
  /-- 4 x 13, PT4 to PT7 at keys 4 to 7 (03 R91). Reset: 0. -/
  pt : Tab (BitVec 13) := []
  /-- 4 x 13, BS4 to BS7 (03 R91). Reset: 0. -/
  bs : Tab (BitVec 13) := []
  /-- 4 x 14, LN4 to LN7 (03 R91). Reset: 0. -/
  ln : Tab (BitVec 14) := []
  /-- 4 x 14, DT4 to DT7 (03 R91). Reset: 0. -/
  dt : Tab (BitVec 14) := []
  /-- 12, EPC (03 R91). Reset: 0. -/
  epc : BitVec 12 := 0
  /-- 36, LST: every field but PEND, BANK, EVSRC and SOSBUSY, which stand beside it (03 R103). Reset: 0. -/
  lst : BitVec 36 := 0
  /-- 36, LCTL (03 R104). Reset: 0. -/
  lctl : BitVec 36 := 0
  /-- 384 sections (03 R111). Reset: 0 (log 3). -/
  sec : Tab Section := []
  /-- 64 entries (03 R112). Reset: none. -/
  chain : Tab (Option Chain) := []
  /-- 384 sections, the inactive set that a fade brings in (05 R166). Reset: 0 (log 3). -/
  sec2 : Tab Section := []
deriving DecidableEq, Repr, Inhabited

/-- A result in flight (03 R97). -/
structure Pend where
  /-- first slot that sees it (03 R97). -/
  vis : Nat := 0
  /-- bank of the instruction that issued it (03 R109). -/
  shad : Bool := false
  /-- the write (03 R97). -/
  w : LaneWr := .nothing
deriving DecidableEq, Repr, Inhabited

/-- A word written into a Lane from outside, applied at the flip (03 R87). -/
structure OutWr where
  /-- 0 Y word, 1 section word, 2 chain entry, 3 P word (03 R87). -/
  kind : Nat := 0
  /-- address or 9 x section + word (11 R368). -/
  addr : Nat := 0
  /-- the 64-bit slot (05 R181). -/
  val : BitVec 64 := 0
  /-- number of the command among those that wait (05 R166). -/
  set : Nat := 0
deriving DecidableEq, Repr, Inhabited

/-- One Lane's work (03). -/
structure LaneS where
  /-- context committed at the end of its last completed wave (01 R25). Reset: 0. -/
  cmt : LaneCtx := {}
  /-- context of the wave in progress (03 R91). Reset: 0. -/
  cur : LaneCtx := {}
  /-- 12, PC (03 R91). Reset: 0. -/
  pc : BitVec 12 := 0
  /-- slots used in the wave (03 R118). Reset: 0. -/
  slot : Nat := 0
  /-- where the wave's program stands (03 R130). Reset: idle. -/
  phase : LanePhase := .idle
  /-- results in flight, in order of issue (03 R97). Reset: none. -/
  pend : List Pend := []
  /-- the delay slot due next (03 R97). Reset: none. -/
  delay : Delay := .none
  /-- 12, address of a HALT that waits (03 R106). Reset: 0. -/
  haltAt : BitVec 12 := 0
  /-- last MAC: slot, bank, accumulator, result (forwarding path) (03 R98). Reset: none. -/
  mac : Option (Nat × Bool × BitVec 2 × BitVec 80) := none
  /-- a HALT waits while a handler runs (03 R106). Reset: false. -/
  haltWait : Bool := false
  /-- why the wave is discarded: 0 not, 1 double-bit error, 2 the block stops (03 R88, R120). Reset: 0. -/
  cause : Nat := 0
  /-- body in the repeat cache: first, last; 0 cut by an event, 1 filling, 2 filled (03 R89, R110). Reset: none. -/
  cache : Option (BitVec 12 × BitVec 12 × Nat) := none
  /-- the main bank's body while a handler runs (03 R110). Reset: none. -/
  cacheSave : Option (BitVec 12 × BitVec 12 × Nat) := none
  /-- slot in which the last group of the wave was complete at the latest (03 R118). Reset: 0. -/
  sosDone : Nat := 0
  /-- SOS groups queued, front running, with the slot of their SOSRUN (03 R115). Reset: empty. -/
  sosQ : List (BitVec 3 × Nat) := []
  /-- the group at the front of the queue as far as it has run (03 R116). Reset: none. -/
  sosRun : Option SosRun := none
  /-- slot in which the unit became free (03 R116). Reset: 0. -/
  sosFree : Nat := 0
  /-- group that a SOSWAIT waits for (03 R115). Reset: none. -/
  sosWait : Option (BitVec 3) := none
  /-- 3, PEND: bit 2 PRIORITY, bit 1 PARAM, bit 0 AUDIT (03 R103). Reset: 0b000. -/
  evPend : BitVec 3 := 0
  /-- 2, EVSRC (03 R103). Reset: 0b00. -/
  evSrc : BitVec 2 := 0
  /-- 1, BANK (03 R103). Reset: 0. -/
  shadow : Bool := false
  /-- 3, events latched for the wave in progress (03 R106). Reset: 0. -/
  evWave : BitVec 3 := 0
  /-- 3, events raised for the next launch (03 R105). Reset: 0. -/
  evNext : BitVec 3 := 0
  /-- lane NOTEs already raised since the block load (03 R123). Reset: empty. -/
  noted : List Nat := []
  /-- outside writes that wait for the flip (03 R87). Reset: empty. -/
  writes : List OutWr := []
  /-- STATE of BLK_STATUS: 0 running, 1 pre-roll, 2 retired, 3 stopped (05 R183). Reset: 2 (log 3). -/
  st : Nat := 2
  /-- a crossfade: samples done, F (05 R166). Reset: none. -/
  fade : Option (Nat × Nat) := none
  /-- channel trims that wait for a zero crossing or their timeout (05 R165). Reset: none. -/
  trims : List Trim := []
  /-- the last set that waits for the fade to end (05 R166). Reset: none. -/
  fadeWait : List OutWr := []
  /-- input channels that hold a word of an older wave (01 R26). Reset: none. -/
  stale : List Nat := []
deriving DecidableEq, Repr, Inhabited

/-- A SOURCES record (05 R518). -/
structure SourceRec where
  /-- 32, source code (05 R518). -/
  src : Nat := 0
  /-- 16 (05 R518). -/
  row : Nat := 0
  /-- 1, SECOND (05 R518). -/
  second : Bool := false
deriving DecidableEq, Repr, Inhabited

/-- A BUSES record (05 R518). -/
structure BusRec where
  /-- 16 (05 R518). -/
  col : Nat := 0
  /-- ALLEY_BUS of an Alley bus (05 R518). -/
  alley : Option Nat := none
deriving DecidableEq, Repr, Inhabited

/-- A BLOCKS record (05 R518). -/
structure BlockRec where
  /-- 10 (05 R518). -/
  id : Nat := 0
  /-- 8 (05 R164). -/
  type : Nat := 0
  /-- 1, REDUNDANCY (05 R518). -/
  duplex : Bool := false
  /-- 8 (05 R518). -/
  chIn : Nat := 0
  /-- 8 (05 R518). -/
  chOut : Nat := 0
  /-- 16, structural delay (05 R518). -/
  b : Nat := 0
  /-- 32, state length (05 R518). -/
  s : Nat := 0
  /-- 36 (05 R518). -/
  lctl : W36 := 0
  /-- 32 (05 R518). -/
  progFirst : Nat := 0
  /-- 16 (05 R518). -/
  progLen : Nat := 0
  /-- 16 (05 R518). -/
  mirror : Nat := 0
  /-- accounted length, none where the program has none within the lane budget (03 R118, R119). -/
  acc : Option Nat := none
deriving DecidableEq, Repr, Inhabited

/-- A COEFS run (05 R518). -/
structure CoefRun where
  /-- 16 (05 R518). -/
  block : Nat := 0
  /-- 8 (05 R518). -/
  kind : Nat := 0
  /-- 16 (05 R518). -/
  start : Nat := 0
  /-- the run's 8-byte slots (05 R518). -/
  items : List (BitVec 64) := []
deriving DecidableEq, Repr, Inhabited

/-- A WIRING or SINKS record: producer and consumer endpoint (05 R518). -/
structure WireRec where
  /-- 32 (05 R518). -/
  prod : Nat := 0
  /-- 32 (05 R518). -/
  cons : Nat := 0
deriving DecidableEq, Repr, Inhabited

/-- A NODES run (05 R518). -/
structure NodeRun where
  /-- 23 (05 R518). -/
  start : Nat := 0
  /-- node words (05 R518). -/
  words : List (BitVec 32) := []
deriving DecidableEq, Repr, Inhabited

/-- An OVERLAYS record (05 R518). -/
structure OvlRec where
  /-- 8 (05 R518). -/
  level : Nat := 0
  /-- 23 (05 R518). -/
  idx : Nat := 0
  /-- 32 (05 R518). -/
  word : BitVec 32 := 0
deriving DecidableEq, Repr, Inhabited

/-- A PATHS record (05 R518). -/
structure PathRec where
  /-- 32, source code (05 R518). -/
  src : Nat := 0
  /-- 32, sink code (05 R518). -/
  sink : Nat := 0
  /-- 16, column or 0xFFFF (05 R518). -/
  bus : Nat := 0
deriving DecidableEq, Repr, Inhabited

/-- A PINS record (05 R518). -/
structure PinRec where
  /-- 16 (05 R518). -/
  work : Nat := 0
  /-- 8 (05 R518). -/
  district : Nat := 0
deriving DecidableEq, Repr, Inhabited

/-- A PLAYERS record (05 R518). -/
structure PlayRec where
  /-- 8 (05 R518). -/
  player : Nat := 0
  /-- 1, PROTECTED (05 R518). -/
  prot : Bool := false
  /-- 16 (05 R518). -/
  row : Nat := 0
deriving DecidableEq, Repr, Inhabited

/-- A plan image that has been read (05 R161, R518). -/
structure Image where
  /-- RATE (05 R161). -/
  rate : Rate := .r48
  /-- 8, H (05 R161). -/
  h : Nat := 8
  /-- A of the plan, fixed once it runs (05 R155). Reset: none. -/
  a : Option Nat := none
  /-- ALLEY_BLOCK (05 R161). -/
  alleyBlock : Option Nat := none
  /-- ALLEY_COLS (05 R161). -/
  alleyCols : Option Nat := none
  /-- FLAGS bit 0 OVERLAYS (05 R161). -/
  hasOvl : Bool := false
  /-- FLAGS bit 1 MUTE_UNTIL_SETTLED (05 R158). -/
  muteUntil : Bool := false
  /-- 64 (05 R161). -/
  buildId : BitVec 64 := 0
  /-- SOURCES (05 R161). -/
  sources : List SourceRec := []
  /-- BUSES (05 R161). -/
  buses : List BusRec := []
  /-- BLOCKS (05 R161). -/
  blocks : List BlockRec := []
  /-- PROGRAMS (05 R161). -/
  progs : List W36 := []
  /-- COEFS (05 R161). -/
  coefs : List CoefRun := []
  /-- WIRING (05 R161). -/
  wiring : List WireRec := []
  /-- NODES (05 R161). -/
  nodes : List NodeRun := []
  /-- OVERLAYS (05 R161). -/
  ovls : List OvlRec := []
  /-- SINKS, feed as producer, sink as consumer (05 R161). -/
  sinks : List WireRec := []
  /-- PATHS (05 R161). -/
  paths : List PathRec := []
  /-- PINS (05 R161). -/
  pins : List PinRec := []
  /-- PLAYERS (05 R161). -/
  players : List PlayRec := []
deriving DecidableEq, Repr, Inhabited

/-- An accepted PLAN_LOAD (05 R175). -/
structure Staged where
  /-- the checked image (05 R175). -/
  img : Image := {}
  /-- 64, AT_SAMPLE (05 R175). -/
  atSample : BitVec 64 := 0
  /-- Kiosk that waits for the answer, 32 when answered (05 R175). -/
  kiosk : Nat := 32
  /-- wave t, or the wave from which the rate change proceeds (05 R175). -/
  effect : Option (BitVec 64) := none
  /-- the load changes the rate (05 R175). -/
  rateChange : Bool := false
  /-- OFFSET in the plan image space (05 R175). -/
  offset : Nat := 0
deriving DecidableEq, Repr, Inhabited

/-- A latency table entry (05 R178). -/
structure LatE where
  /-- LATENCY (05 R178). -/
  now : Nat := 0
  /-- NEXT (05 R178). -/
  next : Nat := 0
deriving DecidableEq, Repr, Inhabited

/-- A live insertion or removal (05 R167). -/
structure Swap where
  /-- insertion or removal (05 R167). -/
  insert : Bool := false
  /-- block id (05 R179). -/
  block : Nat := 0
  /-- the plan with the new chain (05 R167). -/
  img : Image := {}
  /-- 64, wave p (05 R167). -/
  p : BitVec 64 := 0
  /-- P in samples (05 R167). -/
  pre : Nat := 0
  /-- N in force at p (05 R167). -/
  timeout : Nat := 0
  /-- endpoint of the affected channel of the old chain (05 R167). -/
  feed : Nat := 0
  /-- its word in the previous wave (05 R167). -/
  prev : W36 := 0
  /-- blocks of the new chain (05 R167). -/
  chain : List Nat := []
deriving DecidableEq, Repr, Inhabited

/-- A stored-message player (05 R170 to R172). -/
structure PlayerS where
  /-- STATE: 0 stopped, 1 armed, 2 playing, 3 stopping (05 R183). Reset: 0. -/
  st : Nat := 0
  /-- 8: 0 ONCE, 1 LOOP, 2 CONTINUOUS (05 R183). Reset: 0 (log 3). -/
  mode : Nat := 0
  /-- 16 (05 R183). Reset: 0 (log 3). -/
  entry : Nat := 0
  /-- 16, plays left (05 R172). Reset: 0 (log 3). -/
  loops : Nat := 0
  /-- 32, POSITION (05 R183). Reset: 0 (log 3). -/
  pos : Nat := 0
  /-- 32, UNDERRUNS, saturating (05 R183). Reset: 0 (log 3). -/
  under : BitVec 32 := 0
  /-- 64, start wave (05 R171). Reset: 0 (log 3). -/
  startAt : BitVec 64 := 0
  /-- 64, wave of the stop (05 R172). Reset: 0 (log 3). -/
  stopAt : BitVec 64 := 0
  /-- level it is bound to (05 R181). Reset: none (log 3). -/
  bound : Option Nat := none
  /-- 1, STOP_ON_RELEASE (05 R181). Reset: 0 (log 3). -/
  stopOnRel : Bool := false
  /-- mode of the binding (05 R181). Reset: 0 (log 3). -/
  bMode : Nat := 0
  /-- entry of the binding (05 R181). Reset: 0 (log 3). -/
  bEntry : Nat := 0
  /-- loops of the binding (05 R181). Reset: 0 (log 3). -/
  bLoops : Nat := 0
  /-- a bound level holds the player (05 R173). Reset: 0. -/
  byLevel : Bool := false
  /-- 36, word given to its row at the last tick (05 R170). Reset: 0. -/
  word : W36 := 0
  /-- the first 4,096 samples of its entry are kept in stream-buffer eDRAM (05 R171). Reset: false. -/
  kept : Bool := false
  /-- it was armed with AT_SAMPLE (05 R171). Reset: false. -/
  timed : Bool := false
deriving DecidableEq, Repr, Inhabited

/-- The running plan, staging and equalisation (05). -/
structure PlanS where
  /-- 32, plan epoch (05 R177). Reset: 0 while no plan has been loaded. -/
  epoch : BitVec 32 := 0
  /-- the running plan (05 R151). Reset: none. -/
  run : Option Image := none
  /-- a load has taken effect since reset (05 R156). Reset: false. -/
  loaded : Bool := false
  /-- the staged load (05 R175). Reset: none. -/
  staged : Option Staged := none
  /-- effect wave of an accepted PLAN_UNLOAD (05 R180). Reset: none. -/
  unload : Option (BitVec 64) := none
  /-- 64, EFFECT_SAMPLE of the running plan (05 R177). Reset: 0 (log 3). -/
  effect : BitVec 64 := 0
  /-- restart wave r of an equalisation restart in progress (05 R156). Reset: none. -/
  restart : Option (BitVec 64) := none
  /-- latency table, by declared path (05 R160). Reset: empty. -/
  lat : Tab LatE := []
  /-- 1, equalisation bypass (05 R159). Reset: 0. -/
  bypass : Bool := false
  /-- accepted PLAN_EQ_BYPASS commands and their waves, oldest first (05 R180). Reset: none. -/
  bypassDue : List (Bool × BitVec 64) := []
  /-- the row and sink delays have their full length (05 R156). Reset: false. -/
  eqOn : Bool := false
  /-- insertion or removal in progress (05 R169). Reset: none. -/
  swap : Option Swap := none
  /-- set delay of a delay-block channel, block x 64 + channel (05 R154). Reset: 0 (log 3). -/
  setDelay : Tab Nat := []
  /-- players 0 to 63 (05 R170). Reset: stopped. -/
  players : Tab PlayerS := []
deriving DecidableEq, Repr, Inhabited

/-- One piece of placed work (06 R184, R214). -/
structure WorkS where
  /-- has a slot (06 R205). Reset: no work after reset. -/
  placed : Bool := false
  /-- 8 (06 R214). Reset: 0xFF. -/
  district : Nat := 0xFF
  /-- 8 (06 R214). Reset: 0xFF. -/
  slot : Nat := 0xFF
  /-- tile behind the slot, 0 to 7 (06 R185). -/
  tile : Nat := 0
  /-- pinned district (06 R208). Reset: none. -/
  pin : Option Nat := none
  /-- 1 (06 R214). Reset: 0. -/
  pinBroken : Bool := false
  /-- 1, WARN flag (06 R214). Reset: 0. -/
  warn : Bool := false
  /-- reason of its planned move in progress: 0 slack, 1 retirement, 2 pin, 3 rebalancing, 4 and above a lost comparison
  (06 R194). Reset: 0. -/
  why : Nat := 0
  /-- an abandoned move that is to be tried again: its reason, and the window ends until then (06 R194). Reset: none. -/
  retry : Option (Nat × Nat) := none
  /-- 1 (06 R214). Reset: 0. -/
  unaudited : Bool := false
  /-- 8, slack of the last wave (01 R24). Reset: 0. -/
  slackNow : BitVec 8 := 0
  /-- 8, lowest since it was last read (01 R24). Reset: 0xFF (log 3). -/
  slackRead : BitVec 8 := 0xFF
  /-- lowest slack in the window (06 R188). Reset: none. -/
  winMin : Option (BitVec 8) := none
  /-- 8, window minimum of the last window (06 R214). Reset: 0 (log 3). -/
  slackLast : BitVec 8 := 0
  /-- 8, lowest window minimum since last read (06 R214). Reset: 0xFF (log 3). -/
  slackMin : BitVec 8 := 0xFF
  /-- consecutive windows below MOVE (06 R189). Reset: 0. -/
  below : Nat := 0
  /-- 8, saturating (06 R214). Reset: 0. -/
  moves : BitVec 8 := 0
  /-- 32 (06 R214). Reset: 0. -/
  lastMove : BitVec 32 := 0
deriving DecidableEq, Repr, Inhabited

/-- One tile (06 R200). -/
structure TileS where
  /-- failed the power-on self-test (06 R202). Reset: false. -/
  failed : Bool := false
  /-- 1 (06 R201). Reset: false. -/
  retired : Bool := false
  /-- 8 (06 R200). Reset: 255. -/
  health : BitVec 8 := 255
  /-- 9, RS of the last window (06 R188). Reset: 256 (log 3). -/
  rs : Nat := 256
  /-- times of its single-bit corrections in the last 3,600 s (06 R200). Reset: none. -/
  eccAt : List Nat := []
  /-- times at which its losses of the last 604,800 s lapse (06 R200). Reset: none. -/
  lossTo : List Nat := []
  /-- RS of each window of the last 3,600 s, with its time, newest first (06 R200). Reset: none. -/
  rsAt : List (Nat × Nat) := []
  /-- its level 1 spare is in use (01 R15). Reset: false. -/
  spareUsed : Bool := false
  /-- it needs a second level 1 repair (06 R200). Reset: false. -/
  dead : Bool := false
  /-- time of its last SLACK_WARN (06 R189). Reset: none. -/
  warnAt : Option Nat := none
  /-- spare rows of its gain macro left (12 R393). Reset: 8. -/
  rowSpares : Nat := 8
deriving DecidableEq, Repr, Inhabited

/-- A context transfer, shadow run, audit or tie-break (06 R192 to R198). -/
structure MoveS where
  /-- 16 (06 R192). -/
  work : Nat := 0
  /-- planned, urgent, audit, tie-break (06 R192). -/
  kind : MoveKind := .planned
  /-- source district (06 R193). -/
  sd : Nat := 0
  /-- source slot (06 R193). -/
  ss : Nat := 0
  /-- source tile (06 R193). -/
  st : Nat := 0
  /-- target district (06 R193). -/
  dd : Nat := 0
  /-- target slot, 0xFF for an audit tile (06 R193). -/
  ds : Nat := 0
  /-- target tile (06 R193). -/
  dt : Nat := 0
  /-- 64, flip f (06 R192). -/
  f : BitVec 64 := 0
  /-- wave j when the transfer is complete (06 R192). -/
  j : Option (BitVec 64) := none
  /-- length of the comparison window (06 R193). -/
  k : Nat := 0
  /-- every comparison so far was equal (06 R193). -/
  equal : Bool := true
  /-- the comparison of the contexts at the end of its last wave (06 R193). -/
  ended : Option Bool := none
  /-- district of the other tile of a tie-break (06 R198). -/
  od : Nat := 0
  /-- the other tile of a tie-break (06 R198). -/
  ot : Nat := 0
deriving DecidableEq, Repr, Inhabited

/-- One district (06 R215). -/
structure DistS where
  /-- 16, AUDIT_LOSSES (06 R215). Reset: 0. -/
  losses : BitVec 16 := 0
  /-- 16, MOVES (06 R215). Reset: 0. -/
  moves : BitVec 16 := 0
  /-- audit stopped for lack of an idle tile (06 R204). Reset: 0. -/
  gap : Bool := false
  /-- next slot to audit (06 R196). Reset: 0. -/
  auditNext : Nat := 0
  /-- next idle tile to audit on (06 R196). Reset: 0. -/
  auditTile : Nat := 0
  /-- time of the last audit start (06 R196). Reset: 0. -/
  auditAt : Nat := 0
  /-- its audit has gone round since the last complete cycle (06 R213). Reset: false. -/
  wrapped : Bool := false
  /-- 8, lowest window minimum in the last window (06 R215). Reset: 0 (log 3). -/
  slackMin : BitVec 8 := 0
  /-- lowest slack of its Avenue segment in the window (06 R190). Reset: none. -/
  avWin : Option (BitVec 8) := none
  /-- time of its last AVENUE_SLACK (06 R190). Reset: none. -/
  avAt : Option Nat := none
  /-- its router has acknowledged the release (13 R425). Reset: false. -/
  up : Bool := false
deriving DecidableEq, Repr, Inhabited

/-- Placement (06). -/
structure PlaceS where
  /-- by WORK code (06 R214). Reset: empty. -/
  works : Tab WorkS := []
  /-- by district x 8 + tile (06 R200). Reset: health 255. -/
  tiles : Tab TileS := []
  /-- transfers, shadow runs, audits and tie-breaks in progress (06 R195). Reset: empty. -/
  moving : List MoveS := []
  /-- decided moves that wait: work, and reason 0 slack, 1 retirement, 2 pin, 3 rebalancing, 4 a lost vote or an unresolved
  comparison, from 16 on a lost tie-break (06 R195). Reset: empty. -/
  waits : List (Nat × Nat) := []
  /-- tie-breaks whose transfers wait for a district: work, and district and tile of the other site (06 R195, R198). Reset:
  empty. -/
  ties : List (Nat × Nat × Nat) := []
  /-- placement table of the last window: WORK and the entry's 16 bytes (06 R214). Reset: empty. -/
  table : List (Nat × List Byte) := []
  /-- median speed of the last window in thousand steps per second, by quarter x 2 + kind (06 R188). Reset: not measured. -/
  medians : Tab Nat := []
  /-- time of the last health update (06 R200). Reset: 0. -/
  healthAt : Nat := 0
  /-- districts 0 to 51 (06 R215). Reset: 0. -/
  dist : Tab DistS := []
  /-- 8, WARN (06 R189). Reset: 31. -/
  warn : BitVec 8 := 31
  /-- 8, MOVE (06 R189). Reset: 20. -/
  move : BitVec 8 := 20
  /-- 8, RETIRE (06 R201). Reset: 96. -/
  retire : BitVec 8 := 96
  /-- 16, SHADOW_K (06 R193). Reset: 96. -/
  shadowK : BitVec 16 := 96
  /-- thresholds that act from the next window (06 R212). Reset: none. -/
  thrNext : Option (BitVec 8 × BitVec 8 × BitVec 8 × BitVec 16) := none
  /-- 1, ENABLE (06 R217). Reset: enabled. -/
  audOn : Bool := true
  /-- 16, CYCLE in 0.1 s (06 R217). Reset: 20. -/
  audCycle : BitVec 16 := 20
  /-- 16, WINDOW (06 R217). Reset: 96. -/
  audWin : BitVec 16 := 96
  /-- the power-on self-test is complete (06 R211). Reset: false. -/
  selfTest : Bool := false
  /-- 32, MOVE_COUNT (06 R211). Reset: 0x00000000. -/
  moveCount : BitVec 32 := 0
  /-- 1, PIN_BROKEN (06 R211). Reset: 0. -/
  pinBroken : Bool := false
  /-- 1, URGENT (06 R211). Reset: 0. -/
  urgent : Bool := false
  /-- 1, RETIRED (06 R211). Reset: 0. -/
  retired : Bool := false
  /-- 1, AUDIT_LOSS (06 R211). Reset: 0. -/
  audLoss : Bool := false
  /-- 32, MOVES_PLANNED (06 R213). Reset: 0. -/
  nPlanned : BitVec 32 := 0
  /-- 32, MOVES_URGENT (06 R213). Reset: 0. -/
  nUrgent : BitVec 32 := 0
  /-- 32, MOVES_ABANDONED (06 R213). Reset: 0. -/
  nAbandon : BitVec 32 := 0
  /-- 32, AUDIT_WINDOWS (06 R213). Reset: 0. -/
  nWindows : BitVec 32 := 0
  /-- 32, AUDIT_LOSSES (06 R213). Reset: 0. -/
  nLosses : BitVec 32 := 0
  /-- 32, AUDIT_UNRESOLVED (06 R213). Reset: 0. -/
  nUnres : BitVec 32 := 0
  /-- 64, CYCLE_DONE (06 R213). Reset: 0. -/
  cycleDone : BitVec 64 := 0
  /-- 64, first wave of the last window (06 R214). Reset: 0 (log 3). -/
  window : BitVec 64 := 0
  /-- snapshot taken at chunk 0 (06 R218). Reset: empty. -/
  export_ : List Byte := []
  /-- chunks accepted so far (06 R218). Reset: empty. -/
  import_ : List Byte := []
  /-- next chunk (06 R218). Reset: 0. -/
  importAt : Nat := 0
  /-- a piece of work is unplaced (06 R204). Reset: 0. -/
  shortfall : Bool := false
  /-- time of the last HEALTH_SAVE (06 R202). Reset: 0. -/
  saveAt : Nat := 0
deriving DecidableEq, Repr, Inhabited

/-- The outstanding control-slot request of a link (07 R227, R228). -/
structure CtlReq where
  /-- 8 (07 R227). -/
  op : Nat := 0
  /-- 8 (07 R228). -/
  seq : BitVec 8 := 0
  /-- 16 (07 R227). -/
  addr : BitVec 16 := 0
  /-- 32 (07 R227). -/
  data : BitVec 32 := 0
  /-- frames of the present wait (07 R228). -/
  waits : Nat := 0
  /-- waits repeated (07 R228). -/
  repeats : Nat := 0
  /-- Kiosk that waits, 32 for the census (07 R254). -/
  owner : Nat := 32
  /-- DATA of the reply to the first request of a pair (07 R254). -/
  got : Nat := 0
deriving DecidableEq, Repr, Inhabited

/-- One drive link's port (07 R226, R253). -/
structure LinkS where
  /-- consecutive accepted frames, up to 16 (07 R226). Reset: 0. -/
  good : Nat := 0
  /-- consecutive periods without an accepted frame, up to 8 (07 R226). Reset: 0. -/
  bad : Nat := 0
  /-- 1 (07 R226). Reset: 0. -/
  up : Bool := false
  /-- an upstream frame was accepted since the last tick (07 R226). Reset: false. -/
  heard : Bool := false
  /-- SC_ECHO of the frame that the Load Monitor took last (10 R320). Reset: none. -/
  lastSc : Option (BitVec 24) := none
  /-- 8, last accepted STAGE (07 R253). Reset: 0 (log 3). -/
  stage : BitVec 8 := 0
  /-- 8, last accepted (07 R253). Reset: 0 (log 3). -/
  accFlags : BitVec 8 := 0
  /-- 16, last accepted (07 R253). Reset: 0 (log 3). -/
  accClaim : BitVec 16 := 0
  /-- 8, last accepted (07 R253). Reset: 0 (log 3). -/
  errCount : BitVec 8 := 0
  /-- 32, UP_CRC_ERRORS (07 R253). Reset: 0. -/
  upCrc : BitVec 32 := 0
  /-- 32, UP_LOSSES (07 R253). Reset: 0. -/
  upLosses : BitVec 32 := 0
  /-- 16, CTL_TIMEOUTS (07 R253). Reset: 0. -/
  ctlTo : BitVec 16 := 0
  /-- 8, last SEQ sent (07 R253). Reset: 0 (log 3). -/
  seq : BitVec 8 := 0
  /-- the outstanding request (07 R228). Reset: none. -/
  req : Option CtlReq := none
  /-- requests that wait for the slot (07 R228). Reset: empty. -/
  todo : List CtlReq := []
  /-- 32, LAST_GOOD: sample counter of the last accepted frame (07 R253). Reset: 0 (log 3). -/
  lastGood : BitVec 32 := 0
  /-- 32, upstream frames that were not accepted, for whatever cause (07 R226). Reset: 0. -/
  refused : BitVec 32 := 0
  /-- running disparity before the frame begun at the last tick (07 R220). Reset: negative (log 158). -/
  rd : Bool := false
  /-- consecutive accepted samples with ACTIVE_CLAIM_LOST (10 R336). Reset: 0. -/
  aclRun : Nat := 0
  /-- 16, last PLAYED_DIGEST (07 R224). Reset: 0 (log 3). -/
  played : BitVec 16 := 0
  /-- positions 1 to 35 of the downstream frame begun at the last tick (07 R221). Reset: none: idle low. -/
  frame : List Byte := []
  /-- DMIR bytes read so far over the slot (09 R301). Reset: empty. -/
  dmir : List Byte := []
  /-- positions 1 to 38 of the upstream frame accepted last, for the twin (10 R320). Reset: empty. -/
  fwd : List Byte := []
deriving DecidableEq, Repr, Inhabited

/-- Thermal parameters of a channel (07 R240, R256). -/
structure ThermP where
  /-- 16, RTH_VC, 1/256 K/W (07 R240). Reset: 1.5 K/W. -/
  rthVc : Nat := 384
  /-- 16, CTH_VC, 1/16 J/K (07 R240). Reset: 20 J/K. -/
  cthVc : Nat := 320
  /-- 16, RTH_M, 1/256 K/W (07 R240). Reset: 1.0 K/W. -/
  rthM : Nat := 256
  /-- 16, CTH_M, J/K (07 R240). Reset: 2,000 J/K. -/
  cthM : Nat := 2000
  /-- 16, T_AMB, 1/16 C (07 R240). Reset: 25 C. -/
  tAmb : Int := 400
  /-- 16, T_KNEE, 1/16 C (07 R240). Reset: 150 C. -/
  tKnee : Int := 2400
  /-- 16, T_MAX, 1/16 C (07 R240). Reset: 200 C. -/
  tMax : Int := 3200
  /-- 8, SLOPE, 0.1 dB/C (07 R244). Reset: 1.0 dB/C. -/
  slope : Nat := 10
  /-- 16, RE0, 10 mohm (07 R256). Reset: 0 no measured temperature (log 3). -/
  re0 : Nat := 0
  /-- 16, T0, 1/16 C (07 R256). Reset: 25 C (log 3). -/
  t0 : Int := 400
  /-- 16, ALPHA, 10^-6 /K (07 R256). Reset: 3,930 (log 3). -/
  alpha : Nat := 3930
deriving DecidableEq, Repr, Inhabited

/-- Pilot parameters of a channel (07 R241, R256). -/
structure PilotP where
  /-- 8: 0 off, 1 subsonic, 2 ultrasonic (07 R256). Reset: subsonic, the default of R241. -/
  mode : Nat := 1
  /-- 8, dB below full scale (07 R241). Reset: 46. -/
  level : Nat := 46
  /-- 16 (07 R241). Reset: 12.0 Hz. -/
  freq : Nat := 120
  /-- 8, 0.25 s (07 R241). Reset: 1.0 s. -/
  window : Nat := 4
deriving DecidableEq, Repr, Inhabited

/-- Kerb limiter parameters (07 R244, R245, R256). -/
structure KerbP where
  /-- 8, dB (07 R244). Reset: 40. -/
  floor : Nat := 40
  /-- 16, 0.1 V (07 R245). Reset: 0. -/
  vPeak : Nat := 0
  /-- 16, ms (07 R245). Reset: 50. -/
  release : Nat := 50
deriving DecidableEq, Repr, Inhabited

/-- Impedance limits (07 R246, R256). -/
structure ZP where
  /-- 8, percent (07 R256). Reset: 50 (log 3). -/
  zLow : Nat := 50
  /-- 8, percent (07 R256). Reset: 100 (log 3). -/
  zHigh : Nat := 100
  /-- 16, 10 mohm (07 R256). Reset: 0 window off (log 3). -/
  zRef : Nat := 0
  /-- 16, SHORT_LIMIT (07 R246). Reset: 1.00 ohm. -/
  shortL : Nat := 100
  /-- 16, OPEN_LIMIT (07 R246). Reset: 100 ohm. -/
  openL : Nat := 10000
deriving DecidableEq, Repr, Inhabited

/-- Sense calibration of a channel (07 R256). -/
structure CalP where
  /-- 32, nV per code (07 R256). -/
  vLsb : Nat := 0
  /-- 32, nA per code (07 R256). -/
  iLsb : Nat := 0
  /-- 16, 0.1 V at 2^31 (07 R256). -/
  vOutFs : Nat := 0
deriving DecidableEq, Repr, Inhabited

/-- One drive channel's Load Monitor (07 R238 to R247). -/
structure ChanS where
  /-- thermal parameters (07 R240). Reset: defaults. -/
  therm : ThermP := {}
  /-- parameters that act at the next update (07 R252). Reset: none. -/
  thermNext : Option ThermP := none
  /-- pilot parameters (07 R241). Reset: defaults. -/
  pilot : PilotP := {}
  /-- parameters that act at the next window start (07 R252). Reset: none. -/
  pilotNext : Option PilotP := none
  /-- limiter parameters (07 R244). Reset: defaults. -/
  kerb : KerbP := {}
  /-- limits (07 R246). Reset: defaults. -/
  z : ZP := {}
  /-- calibration from the stage's DMIR (09 R305). Reset: none. -/
  calDmir : Option CalP := none
  /-- calibration of DRV_CAL_WRITE (07 R256). Reset: none. -/
  calHost : Option CalP := none
  /-- 32, 2^-16 C (07 R240). Reset: T_AMB 25 C. -/
  tvc : Int := 1638400
  /-- 32, 2^-16 C (07 R240). Reset: T_AMB 25 C. -/
  tm : Int := 1638400
  /-- 32, 2^-16 W (07 R240). Reset: 0 (log 3). -/
  pLast : Int := 0
  /-- 24, G24 (07 R244). Reset: unity (log 3). -/
  kTh : Nat := 1048576
  /-- 24, G24 (07 R245). Reset: unity (log 3). -/
  kPk : Nat := 1048576
  /-- 32, last t_meas (07 R257). Reset: none. -/
  tMeas : Option Int := none
  /-- the limiter uses max(tvc, t_meas) (07 R243). Reset: false. -/
  useMeas : Bool := false
  /-- consecutive readings more than 40 C off (07 R243). Reset: 0. -/
  far : Nat := 0
  /-- THERMAL_TRIP (07 R244). Reset: false. -/
  trip : Bool := false
  /-- host mute in force (07 R255). Reset: false. -/
  hostMute : Bool := false
  /-- accepted mute or unmute and its last wave (07 R255). Reset: none. -/
  muteDue : Option (Bool × BitVec 64) := none
  /-- wave by which a cleared channel resumes (07 R247). Reset: none. -/
  resume : Option (BitVec 64) := none
  /-- where the short sequence stands (07 R247). Reset: none. -/
  short : ShortSt := .none
  /-- 64, frame from which the hold-off, probe or wait counts (07 R247). Reset: 0. -/
  shortAt : BitVec 64 := 0
  /-- hold short (07 R255). Reset: false. -/
  hold : Bool := false
  /-- OC or saturated current seen in the probe (07 R247). Reset: false. -/
  probeBad : Bool := false
  /-- OPEN latched (07 R246). Reset: false. -/
  open_ : Bool := false
  /-- Z_WINDOW (07 R257). Reset: false. -/
  zWin : Bool := false
  /-- time of its last NOTE (07 R246). Reset: none. -/
  zWinAt : Option Nat := none
  /-- THERMAL_DIVERGE (07 R257). Reset: false. -/
  diverge : Bool := false
  /-- time of its last NOTE (07 R243). Reset: none. -/
  divergeAt : Option Nat := none
  /-- THERMAL_MISMATCH (07 R243). Reset: false. -/
  mismatch : Bool := false
  /-- windows without a valid reading (07 R246). Reset: 0. -/
  noRead : Nat := 0
  /-- the last reading was valid (07 R257). Reset: false. -/
  readOk : Bool := false
  /-- 16, 10 mohm (07 R257). Reset: 0 (log 3). -/
  zMag : Nat := 0
  /-- 16, 0.01 degree (07 R257). Reset: 0 (log 3). -/
  zPhase : Int := 0
  /-- 16, 10 mohm (07 R257). Reset: 0 (log 3). -/
  reEst : Nat := 0
  /-- 16, saturating (07 R257). Reset: 0. -/
  shorts : BitVec 16 := 0
  /-- 16, saturating (07 R257). Reset: 0. -/
  probes : BitVec 16 := 0
  /-- sum of V_SENSE x I_SENSE in the thermal window (07 R240). Reset: 0. -/
  winPow : Int := 0
  /-- frames accepted in the thermal window (07 R240). Reset: 0. -/
  winM : Nat := 0
  /-- the same sum of frames that belong to the window after it (07 R240). Reset: 0. -/
  nextPow : Int := 0
  /-- the count of those frames (07 R240). Reset: 0. -/
  nextM : Nat := 0
  /-- frames accepted of the last whole pilot periods of the pilot window or probe (07 R242, R247). Reset: 0. -/
  pilM : Nat := 0
  /-- the sums over those frames of V_SENSE with the sine and the cosine of the pilot phase, in 2^-128 codes (07 R242). Reset: 0. -/
  pilV : Int × Int := (0, 0)
  /-- the same sums of I_SENSE (07 R242). Reset: 0. -/
  pilI : Int × Int := (0, 0)
  /-- 64, sample at which the pilot window began (07 R242). Reset: 0 (log 3). -/
  pilAt : BitVec 64 := 0
  /-- CAL_MISSING has been raised (07 R239). Reset: false. -/
  calTold : Bool := false
  /-- 36, word sent for the last sample (07 R238). Reset: 0. -/
  word : W36 := 0
  /-- CH_MUTE sent for the last sample (07 R238). Reset: false. -/
  chMute : Bool := false
  /-- MUTED of the last accepted upstream frame (07 R223). Reset: false. -/
  muted : Bool := false
  /-- the last 16 thermal windows, newest first: number, sum of powers, frames (10 R325). Reset: empty. -/
  winHist : List (Nat × Int × Nat) := []
deriving DecidableEq, Repr, Inhabited

/-- One input of a power stage (07 R231, R232). -/
structure StageIn where
  /-- consecutive good frames, up to 4 (07 R232). Reset: 0. -/
  run : Nat := 0
  /-- 1 (07 R232). Reset: 0. -/
  locked : Bool := false
  /-- consecutive missing or bad frames, up to 2 (07 R232). Reset: 0. -/
  miss : Nat := 0
  /-- 16, of the latest good frame (07 R221). Reset: 0 (log 3). -/
  claim : BitVec 16 := 0
  /-- 1, UNIT of the latest good frame (07 R221). Reset: 0 (log 3). -/
  unit : Bool := false
  /-- 1, CLAIM_VALID of the latest good frame (07 R232). Reset: 0 (log 3). -/
  valid : Bool := false
  /-- 24, SC of the latest frame (07 R221). Reset: 0 (log 3). -/
  sc : BitVec 24 := 0
  /-- alignment buffer of two frames: sample, CH_MUTE and words, newest first (07 R225, R232, R234). Reset: empty. -/
  hist : List (BitVec 24 × BitVec 4 × List W36) := []
  /-- 8, ERR_COUNT (07 R223). Reset: 0 (log 3). -/
  err : BitVec 8 := 0
  /-- last SEQ executed (07 R228). Reset: none. -/
  seqDone : Option (BitVec 8) := none
  /-- the 8 bytes of the reply (07 R227). Reset: empty. -/
  reply : List Byte := []
deriving DecidableEq, Repr, Inhabited

/-- The power stage of a link (07 R231 to R237). -/
structure StageS where
  /-- input A (07 R231). Reset: not locked. -/
  a : StageIn := {}
  /-- input B (07 R231). Reset: not locked. -/
  b : StageIn := {}
  /-- accepted input: false A, true B (07 R233). Reset: none. -/
  acc : Option Bool := none
  /-- sample from which the accepted input is played, and the input played before it (07 R234). Reset: none. -/
  switchAt : Option (BitVec 24 × Option Bool) := none
  /-- claim and input that set ACTIVE_CLAIM_LOST (07 R235). Reset: none. -/
  lost : Option (BitVec 16 × Bool) := none
  /-- 1, ID_CONFLICT (07 R233). Reset: 0. -/
  idConf : Bool := false
  /-- no valid input: every channel muted (07 R236). Reset: true. -/
  muteAll : Bool := true
  /-- 4, OC in the sample being played (07 R237). Reset: 0. -/
  oc : BitVec 4 := 0
  /-- 4, OT (07 R223). Reset: 0 (log 3). -/
  ot : BitVec 4 := 0
  /-- 4, own protection trips (07 R236). Reset: 0 (log 3). -/
  trips : BitVec 4 := 0
  /-- 24, SC of the sample being played (07 R234). Reset: 0 (log 3). -/
  playedSc : BitVec 24 := 0
  /-- the four words being played (07 R224). Reset: empty. -/
  played : List W36 := []
  /-- 4, CH_MUTE of the frame being played; 0xF where no input is played (07 R236). Reset: 0xF. -/
  playMute : BitVec 4 := 0xF
  /-- IDLE_FREQ of positions 0 to 3 (07 R229). Reset: 0 (log 3). -/
  idle : Tab (BitVec 32) := []
  /-- LOOP_TRIM of positions 0 to 3 (07 R229). Reset: 0 (log 3). -/
  trim : Tab (BitVec 32) := []
  /-- 32, STAGE_FW (07 R229). Reset: 0 (log 3). -/
  fw : BitVec 32 := 0
  /-- 256-byte DMIR (07 R229). Reset: empty (log 3). -/
  dmir : List Byte := []
  /-- positions 1 to 48 of the last upstream frame sent on input A (07 R223). Reset: empty. -/
  up : List Byte := []
  /-- the same on input B (07 R231). Reset: empty. -/
  upB : List Byte := []
  /-- running disparity before those frames on inputs A and B (07 R220). Reset: negative (log 158). -/
  rd : Bool × Bool := (false, false)
deriving DecidableEq, Repr, Inhabited

/-- Drive links (07). -/
structure DrvS where
  /-- 32, AUDIO_ENABLE (07 R249). Reset: 0. -/
  audio : BitVec 32 := 0
  /-- 1, FRAMES (07 R251). Reset: 0. -/
  frames : Bool := false
  /-- the eight samples whose frames were sent last, newest first (07 R226). Reset: none. -/
  sent : List (BitVec 64) := []
  /-- 16-sample windows closed (07 R240). Reset: 0. -/
  thermWin : Nat := 0
  /-- DL0 to DL31 (07 R219). Reset: idle low. -/
  links : Tab LinkS := []
  /-- drive channels 0 to 127 (07 R238). Reset: defaults. -/
  chans : Tab ChanS := []
  /-- the stage of each link (07 R231). Reset: not locked. -/
  stages : Tab StageS := []
  /-- 1, CTL_TIMEOUT (07 R251). Reset: 0. -/
  ctlTo : Bool := false
  /-- 1, LINK_LOSS (07 R251). Reset: 0. -/
  linkLoss : Bool := false
  /-- 1, SHORT_EVENT (07 R251). Reset: 0. -/
  shortEv : Bool := false
  /-- 1, THERMAL_EVENT (07 R251). Reset: 0. -/
  thermEv : Bool := false
deriving DecidableEq, Repr, Inhabited

/-- One secure association (08 R284). -/
structure MacSa where
  /-- 1 (08 R290). Reset: 0. -/
  active : Bool := false
  /-- 16, KEY_HANDLE (08 R290). -/
  handle : Nat := 0
  /-- 64, next packet number (08 R285). -/
  pn : Nat := 1
  /-- 32 (08 R290). -/
  ssci : BitVec 32 := 0
deriving DecidableEq, Repr, Inhabited

/-- A classification filter entry (08 R290). -/
structure Filter where
  /-- 16 (08 R290). -/
  ether : BitVec 16 := 0
  /-- 8 (08 R290). -/
  proto : BitVec 8 := 0
  /-- 16 (08 R290). -/
  dport : BitVec 16 := 0
  /-- 48 (08 R290). -/
  dmac : BitVec 48 := 0
  /-- 8 (08 R290). -/
  ring : Nat := 0
deriving DecidableEq, Repr, Inhabited

/-- A stream packet in its port's queue (08 R266). -/
structure TxPkt where
  /-- 9 (08 R266). -/
  stream : Nat := 0
  /-- 64, sample of its first word (08 R266). -/
  first : BitVec 64 := 0
  /-- 32, RTP timestamp (08 R266). -/
  ts : BitVec 32 := 0
  /-- 16, RTP sequence number (08 R266). -/
  seq : BitVec 16 := 0
  /-- 64, tick at which it was queued (08 R266). -/
  at64 : BitVec 64 := 0
  /-- path 0 A or 1 B of its stream (08 R266). -/
  path : Nat := 0
  /-- RTP header, extension and payload (08 R266). -/
  rtp : List Byte := []
  /-- length of its frame, FCS included (08 R269). -/
  len : Nat := 0
  /-- its frame, without FCS and unprotected (08 R266, R291). -/
  frame : List Byte := []
  /-- 32, source address (10 R333). -/
  srcIp : BitVec 32 := 0
  /-- 48, source MAC (10 R333). -/
  srcMac : BitVec 48 := 0
  /-- 32, destination address (08 R291). -/
  dstIp : BitVec 32 := 0
  /-- 48, destination MAC (08 R291). -/
  dstMac : BitVec 48 := 0
deriving DecidableEq, Repr, Inhabited

/-- A frame that the firmware sends on ring 0 (08 R272, R282). -/
structure FwFrame where
  /-- the frame without FCS (08 R272). -/
  bytes : List Byte := []
  /-- what its timestamp is for: 0 nothing, 1 Sync, 2 Delay_Req, 3 Pdelay_Req, 4 Pdelay_Resp (08 R282). -/
  kind : Nat := 0
deriving DecidableEq, Repr, Inhabited

/-- One network port (08 R289, R290). -/
structure PortS where
  /-- 3: ENABLE, RX_PAUSE, RS_FEC (08 R290). Reset: 0 disabled. -/
  flags : BitVec 3 := 0
  /-- 2, SPEED (08 R289). Reset: 0b00. -/
  speed : BitVec 2 := 0
  /-- 16 (08 R290). Reset: 1,522. -/
  maxFrame : Nat := 1522
  /-- 16 (08 R281). Reset: 500. -/
  wdUs : Nat := 500
  /-- 16 (08 R281). Reset: 10. -/
  holdMs : Nat := 10
  /-- 32 (08 R290). Reset: 0 (log 3). -/
  ip : BitVec 32 := 0
  /-- 8 (08 R290). Reset: 24 (log 3). -/
  prefix_ : Nat := 24
  /-- 48; none: the factory base plus the port number (08 R259). Reset: factory. -/
  mac : Option (BitVec 48) := none
  /-- 1, LINK (08 R289). Reset: 0. -/
  link : Bool := false
  /-- 32 (08 R290). Reset: 0 (log 3). -/
  linkUps : BitVec 32 := 0
  /-- 64, LAST_CHANGE (08 R290). Reset: 0 (log 3). -/
  lastChg : BitVec 64 := 0
  /-- time in 10 ps at which the pause ends, none when not paused (08 R280). Reset: none. -/
  pauseEnd : Option Nat := none
  /-- time at which the present pause began (08 R281). Reset: none. -/
  pausedAt : Option Nat := none
  /-- quanta that take effect at the end of the frame being sent (08 R280). Reset: none. -/
  pauseWait : Option Nat := none
  /-- time at which the hold-off began (08 R281). Reset: none. -/
  holdAt : Option Nat := none
  /-- transmit ring whose frame is being sent (08 R280). Reset: none. -/
  sending : Option Nat := none
  /-- ring 1 to 15 served last (08 R266). Reset: 0 (log 12). -/
  turn : Nat := 0
  /-- the stream packet that began last (model output) (08 R266). Reset: none (log 12). -/
  sent : Option TxPkt := none
  /-- 8, bits 7 to 0 of NET_PORT_STATUS (08 R289). Reset: 0. -/
  sticky : BitVec 8 := 0
  /-- the 18 counters of NET_STATS_READ, in its order (08 R287). Reset: 0. -/
  stats : Tab (BitVec 64) := []
  /-- 64 filter entries (08 R272). Reset: disabled. -/
  filt : Tab (Option Filter) := []
  /-- MACsec is configured (08 R284). Reset: false. -/
  secy : Bool := false
  /-- SUITE (08 R290). Reset: 0 (log 3). -/
  xpn : Bool := false
  /-- VALIDATE: Check (08 R290). Reset: 0 (log 3). -/
  check : Bool := false
  /-- 32, REPLAY_WINDOW (08 R290). Reset: 0 (log 3). -/
  replay : BitVec 32 := 0
  /-- 64, SCI of the transmit SC (08 R290). Reset: 0 (log 3). -/
  txSci : BitVec 64 := 0
  /-- active AN of the transmit SC (08 R290). Reset: 0 (log 3). -/
  txAn : Nat := 0
  /-- SCI of receive SC 1 to 16 (08 R284). Reset: none. -/
  rxSc : Tab (Option (BitVec 64)) := []
  /-- SA by SC x 4 + AN (08 R284). Reset: none active. -/
  sa : Tab MacSa := []
  /-- 32, claimant address (10 R348). Reset: 0. -/
  twinIp : BitVec 32 := 0
  /-- 48, claimant address (10 R348). Reset: 0. -/
  twinMac : BitVec 48 := 0
  /-- a gratuitous ARP has been sent for the claimant address (10 R333). Reset: false. -/
  gone : Bool := false
  /-- the frame that began last as it stands on the wire, FCS included (08 R278, R279, R284). Reset: none. -/
  wire : List Byte := []
  /-- frames of the firmware that wait for transmit ring 0 (08 R272, R282). Reset: empty. -/
  fwTx : List FwFrame := []
  /-- the firmware's frame that is being sent (08 R272). Reset: none. -/
  fwOut : Option FwFrame := none
  /-- stream packets queued and not begun (08 R266). Reset: empty. -/
  queue : List TxPkt := []
  /-- MACSEC_REKEY raised for the active transmit SA (08 R285). Reset: false. -/
  rekey : Bool := false
deriving DecidableEq, Repr, Inhabited

/-- One descriptor ring (08 R273, R274). -/
structure RingS where
  /-- 40, BASE (08 R274). Reset: 0. -/
  base : BitVec 40 := 0
  /-- 1 (08 R274). Reset: 0. -/
  enable : Bool := false
  /-- OWNER: firmware; none: the reset owner of the ring (08 R271). Reset: firmware on ring 0 of each port, else host. -/
  owner : Option Bool := none
  /-- 4, SIZE_LOG2 (08 R274). Reset: 0x3. -/
  sizeLog : BitVec 4 := 3
  /-- 6, TX_START (08 R274). Reset: 0x04. -/
  txStart : BitVec 6 := 4
  /-- 1 (08 R274). Reset: 0. -/
  irqEn : Bool := false
  /-- 16 (08 R274). Reset: 0. -/
  prod : BitVec 16 := 0
  /-- 16 (08 R274). Reset: 0. -/
  cons : BitVec 16 := 0
  /-- 5, RING_STATUS (08 R274). Reset: 0. -/
  sticky : BitVec 5 := 0
  /-- 32 (08 R274). Reset: 0. -/
  drops : BitVec 32 := 0
  /-- frame being sent: descriptors, bytes (08 R279). Reset: none. -/
  inFly : Option (Nat × Nat) := none
  /-- a bus error holds the ring until its owner disables it (12 R387). Reset: false. -/
  stuck : Bool := false
deriving DecidableEq, Repr, Inhabited

/-- One buffered sample of one channel (08 R262). -/
structure RxSample where
  /-- 64, due tick (08 R262). -/
  due : BitVec 64 := 0
  /-- 32, RTP timestamp (08 R262). -/
  ts : BitVec 32 := 0
  /-- the word of each channel (01 R29). -/
  words : List W36 := []
  /-- first sample of its packet (08 R264). -/
  first : Bool := false
  /-- source 0 A or 1 B under CLAIM_SELECT (08 R264). -/
  src : Nat := 0
deriving DecidableEq, Repr, Inhabited

/-- A receive stream (08 R262 to R265, R291). -/
structure RxStream where
  /-- STATE: 0 closed, 1 open, 2 running, 3 lost (08 R292). Reset: 0. -/
  state : Nat := 0
  /-- 8, PORTS (08 R291). -/
  ports : BitVec 8 := 0
  /-- ENC (08 R291). -/
  l24 : Bool := false
  /-- 8, CHANNELS (08 R291). -/
  chans : Nat := 0
  /-- 8, PTIME (08 R291). -/
  ptime : Nat := 0
  /-- 16 (08 R291). -/
  firstCh : Nat := 0
  /-- L in samples (08 R262). -/
  depth : Nat := 0
  /-- 8 (08 R291). -/
  pt : Nat := 0
  /-- 8 (08 R291). -/
  extId : Nat := 0
  /-- 32, DST_IP_A (08 R291). -/
  ipA : BitVec 32 := 0
  /-- 32, DST_IP_B (08 R291). -/
  ipB : BitVec 32 := 0
  /-- 16 (08 R291). -/
  udp : BitVec 16 := 0
  /-- 3: CLAIM_SELECT, MACSEC_ONLY, SSRC_CHECK (08 R291). -/
  flags : BitVec 3 := 0
  /-- 32 (08 R291). -/
  srcA : BitVec 32 := 0
  /-- 32 (08 R291). -/
  srcB : BitVec 32 := 0
  /-- 32 (08 R291). -/
  ssrc : BitVec 32 := 0
  /-- 32 (08 R262). -/
  offset : BitVec 32 := 0
  /-- 16 (08 R291). -/
  vlan : Nat := 0
  /-- buffered samples (08 R262). Reset: empty. -/
  buf : List RxSample := []
  /-- last sequence number, by path x 2 + source (08 R265). Reset: none. -/
  seqs : Tab (Option (BitVec 16)) := []
  /-- 2, PATHS (08 R292). Reset: 0. -/
  paths : BitVec 2 := 0
  /-- 8, SOURCE (08 R292). Reset: 0xFF none. -/
  source : BitVec 8 := 0xFF
  /-- claim, UNIT, CLAIM_VALID and tick of source A's latest packet (08 R264). Reset: none. -/
  claimA : Option (BitVec 16 × Bool × Bool × BitVec 64) := none
  /-- the same of source B (08 R264). Reset: none. -/
  claimB : Option (BitVec 16 × Bool × Bool × BitVec 64) := none
  /-- 64, tick of the last accepted packet (08 R265). Reset: 0. -/
  lastAt : BitVec 64 := 0
  /-- PACKETS_A, PACKETS_B, LATE, EARLY, SEQ_GAPS, MISSING, DUPLICATES, STALE (08 R292). Reset: 0. -/
  cnt : Tab (BitVec 32) := []
  /-- 32, LAST_TS (08 R292). Reset: 0. -/
  lastTs : BitVec 32 := 0
deriving DecidableEq, Repr, Inhabited

/-- A transmit stream (08 R266, R291). -/
structure TxStream where
  /-- open (08 R292). Reset: closed. -/
  open_ : Bool := false
  /-- has sent a packet (08 R292). -/
  run : Bool := false
  /-- 8 (08 R291). -/
  ports : BitVec 8 := 0
  /-- ENC (08 R291). -/
  l24 : Bool := false
  /-- 8 (08 R291). -/
  chans : Nat := 0
  /-- 8 (08 R291). -/
  ptime : Nat := 0
  /-- 16 (08 R291). -/
  firstCh : Nat := 0
  /-- 16 (08 R291). -/
  srcPort : BitVec 16 := 0
  /-- 8 (08 R291). -/
  pt : Nat := 0
  /-- 8 (08 R291). -/
  extId : Nat := 0
  /-- 32 (08 R291). -/
  ipA : BitVec 32 := 0
  /-- 32 (08 R291). -/
  ipB : BitVec 32 := 0
  /-- 16 (08 R291). -/
  dport : BitVec 16 := 0
  /-- MODE (08 R267). -/
  always : Bool := false
  /-- 8 (08 R291). -/
  dscp : Nat := 0
  /-- 8 (08 R291). -/
  ttl : Nat := 0
  /-- 8 (08 R291). -/
  pcp : Nat := 0
  /-- 32 (08 R266). -/
  ssrc : BitVec 32 := 0
  /-- 32 (08 R266). -/
  offset : BitVec 32 := 0
  /-- 16 (08 R291). -/
  vlan : Nat := 0
  /-- 48 (08 R291). -/
  macA : BitVec 48 := 0
  /-- 48 (08 R291). -/
  macB : BitVec 48 := 0
  /-- 64, first sample it sends (08 R270). -/
  from_ : BitVec 64 := 0
  /-- words gathered for the present packet (08 R266). Reset: empty. -/
  acc : List W36 := []
  /-- 64, sample of its first word (08 R266). -/
  accFirst : BitVec 64 := 0
  /-- the claimant addresses of ports 0 to 3 at its first word (10 R341). Reset: none. -/
  accAddr : List (BitVec 32 × BitVec 48) := []
  /-- those of the packet that is complete (10 R341). Reset: none. -/
  readyAddr : List (BitVec 32 × BitVec 48) := []
  /-- the unit sends it: the claimant in the wave of its first word, or MODE 1 (08 R267, 10 R333). -/
  accOn : Bool := false
  /-- the packet that is complete: first sample, whether it is sent, words (08 R266). Reset: none. -/
  ready : Option (BitVec 64 × Bool × List W36) := none
  /-- 2, PATHS (08 R292). Reset: 0. -/
  paths : BitVec 2 := 0
  /-- 32, LAST_TS (08 R292). Reset: 0. -/
  lastTs : BitVec 32 := 0
  /-- ports whose claimant address was 0 when it was opened (10 R348). -/
  ownAddr : BitVec 8 := 0
  /-- the eight counters of R292 (08 R292). Reset: 0. -/
  cnt : Tab (BitVec 32) := []
deriving DecidableEq, Repr, Inhabited

/-- A foreign master that a port hears (08 R282). -/
structure PtpAnn where
  /-- priority1, class, accuracy, variance, priority2 and identity of its grandmaster, its steps removed, its own port
  identity: compared in this order (08 R282). -/
  rank : List Nat := []
  /-- 16, its UTC offset (08 R290). -/
  utc : BitVec 16 := 0
  /-- time of its last Announce message (08 R282). -/
  at_ : Nat := 0
  /-- Announce messages within 4 intervals, up to 2 (08 R282). -/
  count : Nat := 0
deriving DecidableEq, Repr, Inhabited

/-- PTP (08 R282, R290). -/
structure PtpS where
  /-- the 14 bytes of NET_PTP_CONFIG from PROFILE on (08 R290). Reset: DESIGN CHOICE (log 3). -/
  cfg : List Byte := [0, 0, 0, 0, 0, 0, 128, 128, 0, 0, 3, 0, 0, 0]
  /-- 8, PORT_STATE (08 R290). Reset: 0 (log 3). -/
  portState : Nat := 0
  /-- 8, ACTIVE_PORT (08 R290). Reset: 0xFF (log 3). -/
  active : Nat := 0xFF
  /-- foreign masters by port (08 R282). Reset: none. -/
  ann : Tab (List PtpAnn) := []
  /-- time of the last NET_PTP_CONFIG, from which a master waits for Announce messages (08 R282). Reset: 0. -/
  since : Nat := 0
  /-- times at which Announce, Sync and delay requests are next due (08 R282). Reset: 0. -/
  due : Nat × Nat × Nat := (0, 0, 0)
  /-- 16 each, sequence numbers of the Announce, Sync and delay requests sent last (08 R282). Reset: 0. -/
  seqs : BitVec 16 × BitVec 16 × BitVec 16 := (0, 0, 0)
  /-- two-step Sync received: sequence, arrival in ns, correction (08 R282). Reset: none. -/
  sync : Option (Nat × Int × Int) := none
  /-- t2 - t1 of the last Sync, in ns (08 R282). Reset: none. -/
  gap : Option Int := none
  /-- t3 of the last Delay_Req, or t1 of the last Pdelay_Req, in ns (08 R282). Reset: none. -/
  reqAt : Option Int := none
  /-- two-step Pdelay_Resp received: t2 and t4, in ns (08 R282). Reset: none. -/
  resp : Option (Int × Int) := none
  /-- OFFSET_NS (08 R290). Reset: 0 (log 3). -/
  offset : Int := 0
  /-- MEAN_DELAY_NS (08 R290). Reset: 0 (log 3). -/
  delay : Int := 0
  /-- PTP offers usable time (13 R407). Reset: false. -/
  usable : Bool := false
  /-- 64, GM_ID (08 R290). Reset: 0 (log 3). -/
  gm : BitVec 64 := 0
  /-- 16 (08 R290). Reset: 0 (log 3). -/
  steps : BitVec 16 := 0
  /-- 16 (08 R290). Reset: 0 (log 3). -/
  utc : BitVec 16 := 0
  /-- 64 (08 R290). Reset: 0 (log 3). -/
  lastChg : BitVec 64 := 0
deriving DecidableEq, Repr, Inhabited

/-- The network (08). -/
structure NetS where
  /-- NET0 to NET3 and MGT (08 R258). Reset: disabled. -/
  ports : Tab PortS := []
  /-- rings 0 to 135 (08 R271). Reset: as R274. -/
  rings : Tab RingS := []
  /-- receive streams 0 to 511 (08 R261). Reset: closed. -/
  rx : Tab RxStream := []
  /-- transmit streams 0 to 511 (08 R266). Reset: closed. -/
  tx : Tab TxStream := []
  /-- PTP (08 R282). -/
  ptp : PtpS := {}
  /-- MAGIC wake (08 R290). Reset: 0 (log 3). -/
  magic : Bool := false
  /-- enabled wake patterns 0 to 7: mask, bytes (08 R286). Reset: none. -/
  pats : Tab (Option (BitVec 128 × List Byte)) := []
  /-- 8, WAKE_CAUSE (08 R290). Reset: 0 none. -/
  wakeCause : BitVec 8 := 0
  /-- patterns set since, for the next entry to RETAIN (08 R290). Reset: none. -/
  wakeNext : Tab (Option (BitVec 128 × List Byte)) := []
  /-- MAGIC set since, for the next entry to RETAIN (08 R290). Reset: 0 (log 3). -/
  magicNext : Bool := false
deriving DecidableEq, Repr, Inhabited

/-- One TDM group (09 R293). -/
structure GroupS where
  /-- 8: 0 TDM, 1 I2S, 2 left-justified (09 R308). Reset: 0 (log 3). -/
  fmt : Nat := 0
  /-- 4: ENABLE, FS_DELAY, BCLK_INVERT, TRISTATE_UNUSED (09 R297). Reset: disabled. -/
  flags : BitVec 4 := 0
  /-- 8 (09 R308). Reset: 24 (log 3). -/
  wordIn : Nat := 24
  /-- 8 (09 R308). Reset: 24 (log 3). -/
  wordOut : Nat := 24
  /-- FORMAT, FLAGS, WORD_IN, WORD_OUT of the frame begun at the last tick; none where none began (09 R308). Reset: none. -/
  act : Option (Nat × BitVec 4 × Nat × Nat) := none
  /-- periods for which its clocks are still held (09 R297). Reset: 0. -/
  hold : Nat := 0
deriving DecidableEq, Repr, Inhabited

/-- One module: I2C 0 to 31, stage at 32 + link (09 R308). -/
structure ModS where
  /-- 0 ABSENT, 1 PENDING, 2 VALID, 3 UNREADABLE, 4 INVALID, 5 MISMATCH (09 R308). Reset: 0 ABSENT. -/
  st : Nat := 0
  /-- 256 bytes as last read (09 R308). Reset: never read. -/
  dmir : List Byte := []
  /-- 64, READ_SAMPLE (09 R308). Reset: 0. -/
  readAt : BitVec 64 := 0
  /-- failed reads of the present full read (09 R300). Reset: 0. -/
  retries : Nat := 0
  /-- SERIAL read before (09 R302). Reset: none. -/
  serial : List Byte := []
  /-- time from which a stage read is tried again (09 R301). Reset: none. -/
  retryAt : Option Nat := none
  /-- 4, positions a MISMATCH stage lacks (09 R304). Reset: 0. -/
  missing : BitVec 4 := 0
  /-- state before the read in progress (09 R306). Reset: 0 (log 12). -/
  before : Nat := 0
deriving DecidableEq, Repr, Inhabited

/-- Local audio ports and census (09). -/
structure LioS where
  /-- groups 0 to 3 (09 R293). Reset: disabled. -/
  groups : Tab GroupS := []
  /-- FREQ of MCLK_OUT 0 to 3 (09 R298). Reset: 0 held low. -/
  mclk : Tab Nat := []
  /-- the times until which a changed MCLK_OUT is held low (09 R298). Reset: 0. -/
  mclkLow : Tab Nat := []
  /-- modules (09 R308). Reset: ABSENT. -/
  mods : Tab ModS := []
  /-- a census run is in progress (09 R307). Reset: 0. -/
  busy : Bool := false
  /-- scope of the run that follows: 1 I2C, 2 drive links, 3 both; 0 none (09 R306). Reset: 0. -/
  again : Nat := 0
  /-- the run has still to probe the I2C buses (09 R300). Reset: false. -/
  probe : Bool := false
  /-- stages still to be read in the run (09 R301). Reset: empty. -/
  runLinks : List Nat := []
  /-- time of the last probe (09 R300). Reset: 0 (log 12). -/
  probeAt : Nat := 0
  /-- 64, wave at which the run in progress starts (09 R308). Reset: 0. -/
  runAt : BitVec 64 := 0
  /-- modules still to be read in the run (09 R300). Reset: empty. -/
  probed : List Nat := []
  /-- 6, bits 5 to 0 of LIO_STATUS (09 R307). Reset: 0. -/
  sticky : BitVec 6 := 0
deriving DecidableEq, Repr, Inhabited

/-- A decision record (10 R347). -/
structure Decision where
  /-- 64 (10 R347). -/
  sample : BitVec 64 := 0
  /-- 64 (10 R347). -/
  groups : BitVec 64 := 0
  /-- 8 (10 R347). -/
  outcome : Nat := 0
  /-- 8 (10 R347). -/
  step : Nat := 0
  /-- 2, FAULT and AUDIT_FAIL (10 R347). -/
  own : BitVec 2 := 0
  /-- 2 (10 R347). -/
  peer : BitVec 2 := 0
  /-- the unit was the claimant in sample n (10 R328). -/
  active : Bool := false
  /-- 32 (10 R347). -/
  ownDig : BitVec 32 := 0
  /-- 32 (10 R347). -/
  peerDig : BitVec 32 := 0
  /-- 32 (10 R347). -/
  agOwn : BitVec 32 := 0
  /-- 32 (10 R347). -/
  agPeer : BitVec 32 := 0
deriving DecidableEq, Repr, Inhabited

/-- The fields of an Octot frame (10 R316). -/
structure OctHdr where
  /-- 8 (10 R316). Reset: 0. -/
  flags : BitVec 8 := 0
  /-- 8, STATE (10 R316). Reset: 0. -/
  state : Nat := 0
  /-- 64 (10 R316). Reset: 0. -/
  sample : BitVec 64 := 0
  /-- 16 (10 R316). Reset: 0. -/
  claim : BitVec 16 := 0
  /-- 16 (10 R316). Reset: 0. -/
  fwdSeq : BitVec 16 := 0
  /-- 32 (10 R316). Reset: 0. -/
  epoch : BitVec 32 := 0
  /-- 64 (10 R316). Reset: 0. -/
  buildId : BitVec 64 := 0
  /-- 32 (10 R316). Reset: 0. -/
  version : BitVec 32 := 0
  /-- 2 (10 R316). Reset: 3. -/
  rate : Nat := 3
  /-- 32, ACL_LINKS (10 R316). Reset: 0. -/
  acl : BitVec 32 := 0
  /-- 32 (10 R316). Reset: 0. -/
  cfgCrc : BitVec 32 := 0
  /-- 64 group digests (10 R321). Reset: empty. -/
  digests : List (BitVec 32) := []
  /-- 32 expected played digests (10 R322). Reset: empty. -/
  expect : List (BitVec 16) := []
  /-- records (10 R316). Reset: empty. -/
  recs : List FwdRec := []
deriving DecidableEq, Repr, Inhabited

/-- Twin operation (10). -/
structure TwinS where
  /-- 1, MODE (10 R309). Reset: 0 SINGLE. -/
  pair : Bool := false
  /-- 1, the latched UNIT_ID (10 R309). Reset: 0 in the reset row of TWIN_STATUS. -/
  unit : Bool := false
  /-- 16, CLAIM (10 R340). Reset: 0x0000 in the reset row of TWIN_STATUS. -/
  claim : BitVec 16 := 0
  /-- 1, ACTIVE (10 R340). Reset: 0 in the reset row of TWIN_STATUS. -/
  active : Bool := false
  /-- 3, STATE (10 R340). Reset: 0b000. -/
  state : Nat := 0
  /-- 64, STATE_SAMPLE (10 R342). Reset: 0 (log 3). -/
  stateAt : BitVec 64 := 0
  /-- 1, AUTO_REJOIN (10 R343). Reset: 1. -/
  autoRejoin : Bool := true
  /-- 1, PROMOTE_UNREADY (10 R343). Reset: 0. -/
  promUnready : Bool := false
  /-- 8, ACL_QUORUM (10 R343). Reset: 0. -/
  quorum : Nat := 0
  /-- 16, START_WAIT (10 R343). Reset: 20. -/
  startWait : Nat := 20
  /-- 16, JOIN_LIMIT (10 R343). Reset: 60. -/
  joinLimit : Nat := 60
  /-- lanes on which a good frame has come since the last tick (10 R317). Reset: 0 (log 12). -/
  heard : BitVec 2 := 0
  /-- SAMPLE of the frame whose first copy has been taken since the last tick (10 R315). Reset: none. -/
  heardAt : Option (BitVec 64) := none
  /-- 2, LANES (10 R340). Reset: 0b00. -/
  laneUp : BitVec 2 := 0
  /-- consecutive good frames, lanes 0 and 1 (10 R317). Reset: 0. -/
  laneGood : Tab Nat := []
  /-- consecutive periods without a good frame (10 R317). Reset: 0. -/
  laneBad : Tab Nat := []
  /-- the Octot link is up (10 R317). Reset: down. -/
  linkUp : Bool := false
  /-- the peer's last frame (10 R316). Reset: none. -/
  peer : OctHdr := {}
  /-- the peer was READY when the link was last up (14 R450). Reset: false. -/
  peerReady : Bool := false
  /-- the frame begun at the last tick (10 R316). Reset: none. -/
  own : OctHdr := {}
  /-- words sent on the 128 channels for the last 5 samples, newest first (10 R322). Reset: empty. -/
  words : List (List W36) := []
  /-- sample from whose frame on YIELD is due (10 R331). Reset: none. -/
  yieldAt : Option (BitVec 64) := none
  /-- CONFIG_AHEAD (10 R335). Reset: 0. -/
  ahead : Bool := false
  /-- 1, UNRESOLVED (10 R340). Reset: 0. -/
  unresolved : Bool := false
  /-- waves of SEVERE and FATAL reports in the last 264 (10 R316). Reset: empty. -/
  faultWaves : List (BitVec 64) := []
  /-- waves of audit failures (10 R328). Reset: empty. -/
  auditWaves : List (BitVec 64) := []
  /-- the decision in progress (10 R328). Reset: none. -/
  decide : Option Decision := none
  /-- the last 8 decision records, newest first (10 R347). Reset: empty. -/
  records : List Decision := []
  /-- 32, MATCH_RUN (10 R342). Reset: 0. -/
  matchRun : BitVec 32 := 0
  /-- 32 (10 R342). Reset: 0. -/
  promotions : BitVec 32 := 0
  /-- 32 (10 R342). Reset: 0. -/
  octLosses : BitVec 32 := 0
  /-- 64, LAST_PROMOTION (10 R342). Reset: 0. -/
  lastProm : BitVec 64 := 0
  /-- wave p, claim and host swap of a promotion that is due (10 R331). Reset: none. -/
  promAt : Option (BitVec 64 × BitVec 16 × Bool) := none
  /-- a stand-down that has been seen: the wave in which it acts, the promotion's wave, whether it is a host swap, and whether
  split-brain ends with it (10 R313, R337). Reset: none. -/
  stopAt : Option (BitVec 64 × BitVec 64 × Bool × Bool) := none
  /-- wave p + 16 of the claim drop (10 R334). Reset: none. -/
  dropAt : Option (BitVec 64) := none
  /-- 32, TWIN_MISMATCH_COUNT (10 R340). Reset: 0. -/
  mismatches : BitVec 32 := 0
  /-- 1, SPLIT_BRAIN (10 R340). Reset: 0. -/
  split : Bool := false
  /-- 1, MISMATCH (10 R340). Reset: 0. -/
  mismatch : Bool := false
  /-- 1, OCTOT_LOSS (10 R340). Reset: 0. -/
  octLoss : Bool := false
  /-- consecutive frames with equal SAMPLE (10 R318). Reset: 256 (log 12). -/
  skewRun : Nat := 256
  /-- content to forward in the next frame (10 R319). Reset: empty. -/
  fwdOut : List FwdRec := []
  /-- forwarded content that waits for its wave (10 R319). Reset: empty. -/
  fwdIn : List FwdRec := []
  /-- 16, next FWD_SEQ (10 R316). Reset: 0 (log 3). -/
  fwdSeqOut : BitVec 16 := 0
  /-- expected FWD_SEQ (10 R319). Reset: none. -/
  fwdSeqIn : Option (BitVec 16) := none
  /-- seed items still to be installed: TYPE and number (10 R325). Reset: empty. -/
  seedLeft : List (Nat × Nat) := []
  /-- blocks whose item has been installed in the wave in progress (10 R325). Reset: empty. -/
  seedPut : List Nat := []
  /-- 64, end of RUN_IN (10 R323). Reset: 0. -/
  runInEnd : BitVec 64 := 0
  /-- time of the start of SEED, or of the failure (10 R327). Reset: 0. -/
  joinAt : Nat := 0
  /-- the last join failed (10 R327). Reset: false. -/
  failed : Bool := false
  /-- 8, LAST_OUTCOME (10 R342). Reset: 0. -/
  outcome : Nat := 0
  /-- 16, highest ACC_CLAIM seen on any link, 0 none (10 R314). Reset: 0. -/
  highAcc : BitVec 16 := 0
  /-- time of the start of the run of plans while the role is not decided (10 R314). Reset: none. -/
  joinFrom : Option Nat := none
  /-- a stage has reported an accepted input of the peer within the wait (10 R314). Reset: false. -/
  stay : Bool := false
  /-- the peer's frames show the same UNIT (10 R317). Reset: false. -/
  conflict : Bool := false
  /-- CLAIM_VALID is 0 since a yield with the link down (10 R331). Reset: false. -/
  invalid : Bool := false
  /-- READY was left for a difference of SAMPLE (10 R318). Reset: false. -/
  skewed : Bool := false
  /-- a forwarded command is taking effect (10 R319). Reset: false (log 12). -/
  applying : Bool := false
  /-- consecutive samples without a mismatch in CONVERGE (10 R326). Reset: 0. -/
  convRun : Nat := 0
  /-- mismatched samples of the decision in progress (10 R328). Reset: empty. -/
  misAt : List (BitVec 64) := []
  /-- the yield asked for is a host swap (10 R334). Reset: false. -/
  swapDue : Bool := false
  /-- blocks whose wait for a seed item is over in this wave (10 R325). Reset: empty. -/
  seedOver : List Nat := []
deriving DecidableEq, Repr, Inhabited

/-- A request taken from a Kiosk's buffer by a doorbell (11 R358). -/
structure Req where
  /-- 16 (11 R358). -/
  code : Nat := 0
  /-- 16 (11 R358). -/
  tag : BitVec 16 := 0
  /-- 16 (11 R358). -/
  flags : BitVec 16 := 0
  /-- 32 (11 R358). -/
  epoch : BitVec 32 := 0
  /-- LENGTH bytes (11 R358). -/
  payload : List Byte := []
  /-- it came sealed inside the session (15 R473). -/
  sealed : Bool := false
  /-- the engine has accepted it (11 R360). -/
  taken : Bool := false
  /-- it waits for its effect wave on both units (10 R319). -/
  forwarded : Bool := false
  /-- the command's effect wave (11 R358). -/
  wave : BitVec 64 := 0
deriving DecidableEq, Repr, Inhabited

/-- One Kiosk (11 R356). -/
structure KioskS where
  /-- 3, STATE (11 R356). Reset: 0b111. -/
  st : BitVec 3 := 7
  /-- 16, TAG_DONE (11 R356). Reset: 0x0000. -/
  tagDone : BitVec 16 := 0
  /-- 1, DOORBELL_ERR (11 R356). Reset: 0. -/
  dbErr : Bool := false
  /-- 1, IRQ_EN (11 R356). Reset: 0. -/
  irqEn : Bool := false
  /-- 256 bytes (11 R356). Reset: 0 (log 3). -/
  reqBuf : Tab Byte := []
  /-- 256 bytes (11 R356). Reset: 0 (log 3). -/
  respBuf : Tab Byte := []
  /-- the command in progress (11 R357). Reset: none. -/
  req : Option Req := none
  /-- its response is discarded (11 R377). Reset: false. -/
  drop : Bool := false
deriving DecidableEq, Repr, Inhabited

/-- One Data Port channel (11 R371). -/
structure DpS where
  /-- 1, OPEN (11 R371). Reset: 0. -/
  open_ : Bool := false
  /-- 1, SESSION (11 R371). Reset: 0. -/
  session : Bool := false
  /-- 4, SPACE (11 R371). Reset: 0x0. -/
  space : Nat := 0
  /-- 1, MODE (11 R371). Reset: 0. -/
  stream : Bool := false
  /-- 32, DP_ADDR (11 R371). Reset: 0x00000000. -/
  addr : BitVec 32 := 0
  /-- 24, DP_STRIDE (11 R371). Reset: 0x000001. -/
  stride : BitVec 24 := 1
  /-- 16, STATUS (11 R371). Reset: 0x0000. -/
  status : Nat := 0
  /-- 1, ERROR (11 R371). Reset: 0. -/
  error : Bool := false
  /-- 32, DP_FAIL_ADDR (11 R371). Reset: 0x00000000. -/
  fail : BitVec 32 := 0
  /-- 32, DP_WORDS (11 R371). Reset: 0x00000000. -/
  words : BitVec 32 := 0
  /-- words the present write burst has placed: space address, bytes (11 R369). Reset: none. -/
  burst : List (Nat × List Byte) := []
  /-- bytes of the present burst (11 R369). Reset: 0. -/
  burstLen : Nat := 0
  /-- window offset that follows the burst's last byte (11 R369). Reset: none. -/
  burstNext : Option Nat := none
  /-- time of its last access (11 R369). Reset: 0. -/
  burstAt : Nat := 0
  /-- the present burst reads (11 R369). Reset: false. -/
  reading : Bool := false
  /-- 64, wave of the last applied burst (11 R372). Reset: 0. -/
  applied : BitVec 64 := 0
  /-- 32, words transferred, not cleared (11 R372). Reset: 0. -/
  lastWords : BitVec 32 := 0
deriving DecidableEq, Repr, Inhabited

/-- A fault record (14 R457). -/
structure Rec where
  /-- 32 (14 R457). -/
  seq : BitVec 32 := 0
  /-- 64 (14 R457). -/
  sample : BitVec 64 := 0
  /-- 16 (14 R457). -/
  ssrc : Nat := 0
  /-- 8 (14 R457). -/
  cls : Nat := 0
  /-- 8 (14 R457). -/
  flags : BitVec 8 := 0
  /-- 32 (14 R457). -/
  obj : BitVec 32 := 0
  /-- 64 (14 R457). -/
  data : BitVec 64 := 0
  /-- 16 (14 R457). -/
  repeats : BitVec 16 := 0
  /-- 16 (14 R457). -/
  epoch : BitVec 16 := 0
deriving DecidableEq, Repr, Inhabited

/-- Host control (11). -/
structure HostS where
  /-- Kiosks 0 to 31 (11 R356). Reset: OFFLINE. -/
  kiosks : Tab KioskS := []
  /-- channels 0 to 3 (11 R371). Reset: closed. -/
  dp : Tab DpS := []
  /-- 4, STATE (11 R353). Reset: 0x0 ROM. -/
  fwState : Nat := 0
  /-- 8, BOOT_ERR (11 R353). Reset: 0x00. -/
  bootErr : Nat := 0
  /-- 4, SOURCE (11 R353). Reset: BOOTCFG: 0 before it is measured (log 7). -/
  bootSrc : Nat := 0
  /-- length written to FW_LOAD (11 R353). Reset: 0x00000000. -/
  loadLen : Nat := 0
  /-- 32, FW_VERSION (11 R353). Reset: 0. -/
  fwVer : BitVec 32 := 0
  /-- 64, FW_BUILD (11 R366). Reset: 0 (log 3). -/
  fwBuild : BitVec 64 := 0
  /-- ROLLBACK_INDEX of the running image (15 R469). Reset: 0 (log 3). -/
  fwIndex : Nat := 0
  /-- 32, FW_HEARTBEAT (11 R353). Reset: 0x00000000. -/
  beat : BitVec 32 := 0
  /-- messages that wait for Kiosk 0 (11 R362). Reset: empty. -/
  k0 : List Rec := []
  /-- 32, KIOSK0_DROPS (11 R366). Reset: 0. -/
  k0drops : BitVec 32 := 0
  /-- 5, CLASSES (11 R366). Reset: 0x1E. -/
  classes : BitVec 5 := 0x1E
  /-- 4,096 slots of the event log (11 R363). Reset: empty. -/
  log : Tab (Option Rec) := []
  /-- 32, LOG_HEAD (11 R363). Reset: 0x00000000. -/
  head : BitVec 32 := 0
  /-- 32, LOG_MARK (11 R363). Reset: 0x00000000. -/
  mark : BitVec 32 := 0
  /-- 32, LOG_LOST (11 R363). Reset: 0x00000000. -/
  lost : BitVec 32 := 0
  /-- 32, LOST_TOTAL (11 R366). Reset: 0. -/
  lostTotal : BitVec 32 := 0
  /-- 32, HOST_IRQ (11 R365). Reset: 0. -/
  irq : BitVec 32 := 0
  /-- 32, HOST_IRQ_MASK (11 R365). Reset: 0. -/
  irqMask : BitVec 32 := 0
  /-- 32, HOST_IRQ_KIOSK_HI (11 R365). Reset: 0. -/
  irqHi : BitVec 32 := 0
  /-- 32, HOST_IRQ_MASK_HI (11 R365). Reset: 0. -/
  irqMaskHi : BitVec 32 := 0
  /-- MSI-X messages sent, oldest first (11 R349). Reset: empty. -/
  msix : List Nat := []
  /-- 32, ACCEPTED (11 R366). Reset: 0. -/
  accepted : BitVec 32 := 0
  /-- 32, REJECTED (11 R366). Reset: 0. -/
  rejected : BitVec 32 := 0
  /-- 32, DOORBELL_ERRORS (11 R366). Reset: 0. -/
  dbErrors : BitVec 32 := 0
  /-- bytes returned by the last read access (11 R350). Reset: model output, DESIGN CHOICE empty (log 12). -/
  rdata : List Byte := []
  /-- ERR of the SPI status byte (11 R351). Reset: 0. -/
  spiErr : Bool := false
  /-- the ZN640 view is on (11 R373). Reset: off. -/
  view : Bool := false
  /-- 16, ROW_BASE (11 R376). Reset: 0 (log 3). -/
  rowBase : Nat := 0
  /-- 16, STRIPS (11 R376). Reset: 640 (log 3). -/
  strips : Nat := 640
  /-- 16, COL_BASE (11 R376). Reset: 0 (log 3). -/
  colBase : Nat := 0
  /-- 16, BUSES (11 R376). Reset: 256 (log 3). -/
  buses : Nat := 256
  /-- time of the last watchdog service (13 R419). Reset: 0. -/
  served : Nat := 0
deriving DecidableEq, Repr, Inhabited

/-- An outstanding matrix transaction (12 R385). -/
structure MatTx where
  /-- the transaction (12 R384). -/
  tx : BusTx := {}
  /-- order of issue (12 R385). -/
  seq : Nat := 0
  /-- beats transferred (12 R388). -/
  beats : Nat := 0
  /-- the path is held (12 R386). -/
  granted : Bool := false
  /-- of each beat transferred: 0 OKAY, 1 DECODE_ERROR, 2 DATA_ERROR (12 R387). -/
  resps : List Nat := []
deriving DecidableEq, Repr, Inhabited

/-- A response of the matrix (12 R387). -/
structure BusAns where
  /-- 3 (12 R378). -/
  master : Nat := 0
  /-- 8 (12 R385). -/
  id : BitVec 8 := 0
  /-- order of issue (12 R385). -/
  seq : Nat := 0
  /-- of each beat: 0 OKAY, 1 DECODE_ERROR, 2 DATA_ERROR (12 R387). -/
  resps : List Nat := []
  /-- data read (12 R387). -/
  data : List Byte := []
deriving DecidableEq, Repr, Inhabited

/-- Bus matrix and memories (12). -/
structure MatS where
  /-- bytes of ROM, SRAM and LPDDR5 by 40-bit address (12 R379). Reset: unlisted bytes read 0x00 (log 2). -/
  mem : List Host.Cell := []
  /-- 1, SYS_REMAP (12 R382). Reset: 0. -/
  remap : Bool := false
  /-- 1, SPARES_OUT (12 R402). Reset: 0. -/
  spares : Bool := false
  /-- 1, MASTER_RESET (12 R402). Reset: 0. -/
  mReset : Bool := false
  /-- 1, GATE_REFUSED (12 R402). Reset: 0. -/
  gateRef : Bool := false
  /-- 1, DATA_ERROR (12 R402). Reset: 0. -/
  dataErr : Bool := false
  /-- 1, DECODE_ERROR (12 R402). Reset: 0. -/
  decErr : Bool := false
  /-- 40, MATRIX_ERR_ADDR (12 R402). Reset: 0. -/
  errAddr : BitVec 40 := 0
  /-- 1, VALID (12 R402). Reset: 0. -/
  errValid : Bool := false
  /-- 3 (12 R402). Reset: 0. -/
  errMaster : BitVec 3 := 0
  /-- 8 (12 R402). Reset: 0. -/
  errId : BitVec 8 := 0
  /-- 2 (12 R402). Reset: 0. -/
  errResp : BitVec 2 := 0
  /-- 1 (12 R402). Reset: 0. -/
  errWrite : Bool := false
  /-- time of the last NOTE, by master x 2 + kind (12 R387). Reset: none. -/
  toldAt : Tab (Option Nat) := []
  /-- 64, PCIE_OB_BASE (12 R402). Reset: 0. -/
  obBase : BitVec 64 := 0
  /-- 32, MEM_ECC_CE (12 R402). Reset: 0. -/
  ce : BitVec 32 := 0
  /-- 32, MEM_ECC_UE (12 R402). Reset: 0. -/
  ue : BitVec 32 := 0
  /-- 3, DDR_STATE (12 R402). Reset: 0 off. -/
  ddrState : Nat := 0
  /-- 4, DDR_CAP (12 R402). Reset: 0 none. -/
  ddrCap : Nat := 0
  /-- 3, DDR_RATE (12 R402). Reset: 0 none. -/
  ddrRate : Nat := 0
  /-- hottest sensor of each quarter, C (12 R402). Reset: 0. -/
  tj : Tab Int := []
  /-- REFRESH code of each quarter (12 R394). Reset: 0. -/
  refresh : Tab Nat := []
  /-- time of the last rise through a threshold, by quarter (12 R394). Reset: 0. -/
  rose : Tab Nat := []
  /-- outstanding transactions, in order of issue (12 R385). Reset: empty. -/
  out : List MatTx := []
  /-- master granted last + 1, by target (12 R386). Reset: 0 none. -/
  last : Tab Nat := []
  /-- responses held back until earlier ones of their master and ID have returned (12 R385). Reset: empty. -/
  back : List BusAns := []
  /-- responses returned since the last transaction was issued (12 R387). Reset: model output, DESIGN CHOICE empty (log 12). -/
  answers : List BusAns := []
  /-- transactions issued (12 R385). Reset: model field, DESIGN CHOICE 0 (log 12). -/
  issued : Nat := 0
  /-- times of the corrections of a word in the last 3,600 s, by (region x 1024 + macro) x 2^32 + word (12 R393). Reset: none. -/
  rowFix : Tab (List Nat) := []
  /-- spare rows used, by region x 1024 + macro (12 R393). Reset: 0. -/
  poolSp : Tab Nat := []
  /-- macros that have raised EDRAM_SPARES_OUT (12 R393). Reset: empty. -/
  sparesTold : List Nat := []
  /-- words with a double-bit error in a row not yet replaced: (region x 1024 + macro) x 2^32 + word (12 R391). Reset: empty. -/
  err : List Nat := []
  /-- the PCIe link is up (13 R421). Reset: down. -/
  pcie : Bool := false
  /-- time of the last complete scrub of the SRAM (12 R395). Reset: 0. -/
  scrubbed : Nat := 0
  /-- time of the last complete patrol of the LPDDR5 (12 R398). Reset: 0. -/
  patrolled : Nat := 0
  /-- time of the last WCK-to-DQ retraining (12 R397). Reset: 0. -/
  retrain : Nat := 0
deriving DecidableEq, Repr, Inhabited

/-- Clocks, resets and power (13). -/
structure ClkS where
  /-- microseconds since power-on, by the collector's scans (14 R443). Reset: model field, DESIGN CHOICE 0 (log 5). -/
  now : Nat := 0
  /-- power-on reset is asserted (13 R419). Reset: true. -/
  por : Bool := true
  /-- the RC oscillator is declared stable (13 R404). Reset: false. -/
  rcOk : Bool := false
  /-- step of R424 completed last (13 R424). Reset: 0. -/
  boot : Nat := 0
  /-- 6, BOOTCFG_COUNT (13 R438). Reset: measured: 0 before (log 7). -/
  bootCount : BitVec 6 := 0
  /-- 4, BOOTCFG_CODE (13 R438). Reset: measured: 0 before (log 7). -/
  bootCode : BitVec 4 := 0
  /-- the reference is good (13 R424). Reset: false. -/
  refOk : Bool := false
  /-- the crystal delay has ended (13 R403). Reset: false. -/
  xtal : Bool := false
  /-- 4, PLL_LOCK (13 R438). Reset: 0x0. -/
  lock : BitVec 4 := 0
  /-- 6, MON_TRIP (13 R438). Reset: 0x00. -/
  monTrip : BitVec 6 := 0
  /-- 6, MON_OK (13 R438). Reset: 0x00. -/
  monOk : BitVec 6 := 0
  /-- 1, ON_RC (13 R438). Reset: 0. -/
  onRc : Bool := false
  /-- reset is held with CLOCK_ABSENT (13 R412). Reset: false. -/
  absent : Bool := false
  /-- DPLL state 0 to 3 (13 R407). Reset: off. -/
  dpll : Option Nat := none
  /-- REALIGN: AUTO (13 R409). Reset: MANUAL. -/
  realign : Bool := false
  /-- 16, PULL_PPM (13 R407). Reset: 100. -/
  pull : Nat := 100
  /-- 32, STEP_LIMIT_US (13 R409). Reset: 1,000. -/
  stepLim : Nat := 1000
  /-- 16, HOLDOVER_ALARM_S (13 R407). Reset: 60. -/
  holdAlarm : Nat := 60
  /-- time at which holdover was entered (13 R407). Reset: 0. -/
  holdAt : Nat := 0
  /-- a re-alignment waits (13 R409). Reset: false. -/
  realDue : Bool := false
  /-- the first lock re-aligns (after a wake or a MEDIAPLL failure) (13 R410). Reset: false. -/
  relock : Bool := false
  /-- 32, PHASE_NS (13 R439). Reset: 0 (log 3). -/
  phase : BitVec 32 := 0
  /-- 32, FREQ_PPB (13 R439). Reset: 0 (log 3). -/
  ppb : BitVec 32 := 0
  /-- 64, LAST_LOCK (13 R439). Reset: 0 (log 3). -/
  lastLock : BitVec 64 := 0
  /-- 64, LAST_REALIGN (13 R439). Reset: 0 (log 3). -/
  lastReal : BitVec 64 := 0
  /-- 64, STEP (13 R439). Reset: 0 (log 3). -/
  lastStep : BitVec 64 := 0
  /-- 16, OPEN (13 R438). Reset: 0x2000. -/
  gates : BitVec 16 := 0x2000
  /-- 1, GATE_REFUSED (13 R438). Reset: 0. -/
  gateRef : Bool := false
  /-- 16, GATE_TIMEOUT in us (13 R415). Reset: 10. -/
  gateTo : Nat := 10
  /-- gates being closed: gate, Kiosk that waits, time of the request (13 R415). Reset: none. -/
  closing : List (Nat × Nat × Nat) := []
  /-- measurement in progress: target, reference, cycles, Kiosk (13 R417). Reset: none. -/
  meas : Option (Nat × Nat × Nat × Nat) := none
  /-- 32, CLK_MEASURE_COUNT (13 R438). Reset: 0x00000000. -/
  measCnt : BitVec 32 := 0
  /-- rate change accepted: rate, last wave of the old rate, value of the first tick (13 R440). Reset: none. -/
  rateDue : Option (Rate × BitVec 64 × BitVec 64) := none
  /-- RUN, HUSH, RETAIN or waking (13 R438). Reset: 0 RUN. -/
  power : Power := .run
  /-- accepted change and its effect wave (13 R433). Reset: none. -/
  powDue : Option (Power × BitVec 64) := none
  /-- 1, PRI_WAKE (13 R433). Reset: 0 (log 3). -/
  priWake : Bool := false
  /-- 32, wake timer (13 R434). Reset: 0 none (log 3). -/
  wakeS : Nat := 0
  /-- time of the entry to RETAIN (13 R434). Reset: 0. -/
  retAt : Nat := 0
  /-- cause of the wake in progress: 1 frame, 2 timer (13 R434). Reset: 0. -/
  wakeSrc : Nat := 0
  /-- 5, VID (13 R438). Reset: 0x0A. -/
  vid : Nat := 10
  /-- 8, FLOOR (13 R436). Reset: 8. -/
  floor : Nat := 8
  /-- 8, CEILING (13 R436). Reset: 16. -/
  ceil : Nat := 16
  /-- time of the last request, of the last window minimum below twice WARN, or of the last lowering (13 R436). Reset: 0. -/
  vReqAt : Nat := 0
  /-- time of the last raise (13 R436). Reset: none. -/
  vUpAt : Option Nat := none
  /-- time of the last VCORE_CEILING (13 R436). Reset: none. -/
  vCeilAt : Option Nat := none
  /-- 9, bits 8 to 0 of RESET_CAUSE (13 R438). Reset: POR 1, others 0. -/
  causes : BitVec 9 := 1
  /-- programmed fuse-map code + 1 of groups 0 to 10 (13 R428). Reset: 0 not programmed (log 7). -/
  pins : Tab Nat := []
  /-- fuse-map code + 1 that a group shows, 0 when its owner drives it (13 R427). Reset: HZ_PD, nFAULT LOW. -/
  pinNow : Tab Nat := [(0, 1), (1, 1), (2, 1), (3, 1), (4, 4), (5, 1), (6, 1), (7, 1), (8, 1), (9, 1), (10, 1)]
  /-- quarters released (13 R425). Reset: 0. -/
  quarters : Nat := 0
  /-- commanded reset: SCOPE and time of the response (13 R437). Reset: none. -/
  resetDue : Option (Nat × Nat) := none
  /-- a NOLUT warm restart is in progress (13 R423). Reset: false. -/
  restart : Bool := false
  /-- SYSPLL clock-good (13 R424). Reset: false. -/
  clockGood : Bool := false
deriving DecidableEq, Repr, Inhabited

/-- A listed instance of a source (14 R462). -/
structure SrcInst where
  /-- 32 (14 R462). -/
  obj : Nat := 0
  /-- 16, OCCURRENCES, saturating (14 R461). -/
  occ : BitVec 16 := 0
  /-- 32, LAST (14 R461). -/
  last : BitVec 32 := 0
deriving DecidableEq, Repr, Inhabited

/-- One open injection (14 R455, R461). -/
structure Inj where
  /-- 16 (14 R461). -/
  src : Nat := 0
  /-- PATTERN (14 R455). -/
  broken : Bool := false
  /-- 2: SUPPRESS, CONFIRM_FATAL (14 R461). -/
  flags : BitVec 2 := 0
  /-- 32 (14 R461). -/
  obj : Nat := 0
  /-- time at which the window closes (14 R455). -/
  until_ : Nat := 0
  /-- real reports held back (14 R456). -/
  heldBack : List Rep := []
deriving DecidableEq, Repr, Inhabited

/-- A merge window (14 R451). -/
structure Merge where
  /-- 16 (14 R451). -/
  src : Nat := 0
  /-- 32 (14 R451). -/
  obj : Nat := 0
  /-- time of its last record (14 R451). -/
  at_ : Nat := 0
  /-- reports merged since (14 R451). -/
  count : Nat := 0
  /-- the last of them (14 R451). -/
  rep : Rep := {}
deriving DecidableEq, Repr, Inhabited

/-- The fault collector (14). -/
structure FltS where
  /-- reports on dual-rail pairs that the collector has not yet taken (14 R443). Reset: empty. -/
  lineQ : List Rep := []
  /-- reports of firmware sources not yet written (14 R445). Reset: empty. -/
  fwQ : List Rep := []
  /-- pairs taken as broken: source x 2^32 + object (14 R444). Reset: empty. -/
  broken : List Nat := []
  /-- pairs that read broken at the last scan (14 R443). Reset: empty. -/
  seenBrk : List Nat := []
  /-- broken pairs that read well at the last scan (14 R444). Reset: empty. -/
  seenOk : List Nat := []
  /-- pairs sampled again at the close of a SUPPRESS window, and the time of that close (14 R456). Reset: empty. -/
  fresh : List (Nat × Nat) := []
  /-- conditions in error: source x 2^32 + object (14 R517). Reset: empty. -/
  cond : List Nat := []
  /-- merge windows (14 R451). Reset: empty. -/
  merges : List Merge := []
  /-- listed instances by source (14 R462). Reset: empty. -/
  list : Tab (List SrcInst) := []
  /-- injections 0 to 3 (14 R455). Reset: none. -/
  inj : Tab (Option Inj) := []
  /-- 1, the FATAL latch (14 R460). Reset: 0. -/
  fatal : Bool := false
  /-- 256, FLT_FATAL_REC (14 R460). Reset: 0. -/
  fatalRec : Option Rec := none
  /-- time at which the nFAULT pulse ends (14 R453). Reset: none. -/
  pulse : Option Nat := none
  /-- 14, PULSE_US (14 R460). Reset: 0x000A. -/
  pulseUs : Nat := 10
  /-- 1, ASSERT (14 R460). Reset: 0. -/
  assert_ : Bool := false
  /-- 32, FLT_SEVERE_COUNT (14 R460). Reset: 0x00000000. -/
  severes : BitVec 32 := 0
  /-- 32, FLT_DEGRADE_COUNT (14 R460). Reset: 0x00000000. -/
  degrades : BitVec 32 := 0
  /-- 5, bits 4 to 0 of FLT_STATUS (14 R460). Reset: 0. -/
  sticky : BitVec 5 := 0
  /-- 32, NOTES since reset (14 R461). Reset: 0. -/
  notesT : BitVec 32 := 0
  /-- 32, DEGRADES since reset (14 R461). Reset: 0. -/
  degT : BitVec 32 := 0
  /-- 32, SEVERES since reset (14 R461). Reset: 0. -/
  sevT : BitVec 32 := 0
  /-- 64, LAST_SEVERE (14 R461). Reset: 0. -/
  lastSev : BitVec 64 := 0
  /-- time of the last TJ_HIGH (14 R447). Reset: none. -/
  tjTold : Option Nat := none
deriving DecidableEq, Repr, Inhabited

/-- An operator key (15 R470). -/
structure Oper where
  /-- 3 (15 R475). -/
  roles : BitVec 3 := 0
  /-- 97 bytes (15 R472). -/
  pub : List Byte := []
deriving DecidableEq, Repr, Inhabited

/-- The open session (15 R472). -/
structure Sess where
  /-- 3 (15 R472). -/
  slot : Nat := 0
  /-- 3 (15 R475). -/
  roles : BitVec 3 := 0
  /-- 32, IDLE_S (15 R486). -/
  idle : Nat := 600
  /-- time of the last sealed request (15 R474). -/
  lastAt : Nat := 0
  /-- 72 bytes, session keys and salts (15 R472). -/
  okm : List Byte := []
  /-- 64, message counter host to engine (15 R473). -/
  ctrIn : BitVec 64 := 1
  /-- 64, message counter engine to host (15 R473). -/
  ctrOut : BitVec 64 := 1
deriving DecidableEq, Repr, Inhabited

/-- A session open that waits for its authentication (15 R472). -/
structure Opening where
  /-- 3 (15 R472). -/
  slot : Nat := 0
  /-- 97 bytes, HOST_PUB (15 R472). -/
  hostPub : List Byte := []
  /-- 97 bytes, ENGINE_PUB (15 R472). -/
  enginePub : List Byte := []
  /-- 32 bytes, NONCE (15 R472). -/
  nonce : List Byte := []
  /-- 384, the module's ephemeral private key, destroyed with the open (15 R472). -/
  priv : Nat := 0
  /-- time of the open (15 R472). -/
  time : Nat := 0
deriving DecidableEq, Repr, Inhabited

/-- The Security Module (15). -/
structure SmS where
  /-- 4, STATE (15 R485). Reset: 0 SELFTEST. -/
  state : Nat := 0
  /-- 1, APPROVED (15 R485). Reset: 0. -/
  approved : Bool := false
  /-- the approval request kept in the key store (15 R481). Reset: not set (log 7). -/
  request : Bool := false
  /-- 48 bytes each, the two fused root-key hashes (15 R468, R470). Reset: fuses (log 7). -/
  roots : List (List Byte) := []
  /-- 2, roots revoked by fuse (15 R468, R470). Reset: fuses (log 7). -/
  revoked : BitVec 2 := 0
  /-- 32 and 16 bytes, key and counter of the CTR_DRBG (15 R465). Reset: 0. -/
  drbg : List Byte × List Byte := ([], [])
  /-- the session (15 R485). Reset: none. -/
  session : Option Sess := none
  /-- session open that waits for its authentication (15 R472). Reset: none. -/
  opening : Option Opening := none
  /-- times of the AUTH_FAILs of the last 60 s (15 R472). Reset: empty. -/
  fails : List Nat := []
  /-- time at which opens began to be refused (15 R472). Reset: none. -/
  lockAt : Option Nat := none
  /-- 1, DEBUG_OPEN (15 R485). Reset: 0. -/
  debug : Bool := false
  /-- 7, ROLLBACK (15 R485). Reset: fuses (log 7). -/
  rollback : Nat := 0
  /-- the TAMPERED fuse (15 R479). Reset: fuse (log 7). -/
  tampered : Bool := false
  /-- 8, ORDER (11 R353). Reset: fuses (log 7). -/
  order : BitVec 8 := 1
  /-- 64, UID (11 R353). Reset: fuses (log 7). -/
  uid : BitVec 64 := 0
  /-- 48, factory base MAC address (08 R259). Reset: fuses (log 7). -/
  macBase : BitVec 48 := 0
  /-- 1, APPROVED_LOST (15 R485). Reset: 0. -/
  lost : Bool := false
  /-- 1, GLITCH (15 R485). Reset: 0. -/
  glitch : Bool := false
  /-- 1, SEAL_FAIL (15 R485). Reset: 0. -/
  sealFail : Bool := false
  /-- 1, AUTH_FAIL (15 R485). Reset: 0. -/
  authFail : Bool := false
  /-- 1, LIB_DENIED (15 R485). Reset: 0. -/
  libDenied : Bool := false
  /-- operator slots 0 to 7 (15 R470). Reset: none (log 7). -/
  opers : Tab (Option Oper) := []
  /-- library key slots 0 to 3 (15 R470). Reset: none (log 7). -/
  libKeys : Tab (Option (List Byte)) := []
  /-- MACsec key and salt at handles 0x0100 to 0x013F (15 R470). Reset: none. -/
  keys : Tab (Option (List Byte)) := []
  /-- 384, private key of the device identity key pair (15 R470). Reset: from manufacture (log 7). -/
  ident : Option Nat := some 1
  /-- 96 bytes, DERLAFEN_SIG over UID and DEV_PUB (15 R486). Reset: from manufacture (log 7). -/
  identSig : List Byte := []
  /-- 16, LIB_SIZE in MB (15 R476). Reset: 0 (log 3). -/
  libMb : Nat := 0
  /-- entries whose VERIFIED bit is set (15 R477). Reset: empty. -/
  verified : List Nat := []
  /-- entry being verified and Kiosk that waits (15 R477). Reset: none. -/
  verifying : Option (Nat × Nat) := none
  /-- times of the glitches of the last second (15 R479). Reset: empty. -/
  glitches : List Nat := []
  /-- 32, SM_VERSION (15 R486). Reset: 0 (log 3). -/
  version : BitVec 32 := 0
deriving DecidableEq, Repr, Inhabited

/-- THE MACHINE: everything the spec gives the ZN1840, and the queue of waiting commands. -/
structure State where
  /-- the commands that wait, first in, first out (block form). Reset: empty. -/
  pending : List Instr := []
  /-- counter of free values drawn (model field, DESIGN CHOICE, log 13) (model). Reset: 0. -/
  free : Nat := 0
  /-- sample wave (01). Reset: as its fields. -/
  wave : WaveS := {}
  /-- signal words (01). Reset: as its fields. -/
  sig : SigS := {}
  /-- crosspoint (02). Reset: as its fields. -/
  xp : XpS := {}
  /-- Lanes, by WORK code (second sites at 0x10000 + WORK) (03). Reset: none. -/
  lanes : Tab LaneS := []
  /-- plans (05). Reset: as its fields. -/
  plan : PlanS := {}
  /-- placement (06). Reset: as its fields. -/
  place : PlaceS := {}
  /-- drive links (07). Reset: as its fields. -/
  drv : DrvS := {}
  /-- network (08). Reset: as its fields. -/
  net : NetS := {}
  /-- local audio and census (09). Reset: as its fields. -/
  lio : LioS := {}
  /-- twin operation (10). Reset: as its fields. -/
  twin : TwinS := {}
  /-- host control (11). Reset: as its fields. -/
  host : HostS := {}
  /-- matrix and memories (12). Reset: as its fields. -/
  mat : MatS := {}
  /-- clocks, resets, power (13). Reset: as its fields. -/
  clk : ClkS := {}
  /-- fault collector (14). Reset: as its fields. -/
  flt : FltS := {}
  /-- Security Module (15). Reset: as its fields. -/
  sm : SmS := {}
deriving DecidableEq, Repr, Inhabited

/-- Why a step stops the model. -/
inductive Fault where
  /-- A matrix access to a unit whose content the spec does not give (12 R379: the Security Module's mailbox, the debug
  port, private registers other than SYS_REMAP, the fabric handles). Raised by `execMatrixTransaction` alone. Safe:
  the model stops where the hardware goes on. -/
  | unspecifiedDevice (addr : Nat)
deriving DecidableEq, Repr, Inhabited

/-- Why a step refuses a command. -/
inductive Refusal where
  /-- The command has no meaning yet. Raised by the dispatcher's arm of that command alone. Safe: nothing is claimed
  of the command. -/
  | notModelled (mnemonic : String)
deriving DecidableEq, Repr, Inhabited

/-- The state while power-on reset is asserted (13 R419, R421): every field at the value its docstring gives. -/
def State.reset : State := {}

end Sys2Proof.Machine
end

