-- ==== Sys2Proof/Machine/Update.lean ====
section
/-! DEFINITION. One update function per part of State: each changes that part alone. -/

namespace Sys2Proof.Machine

/-- `s` with its part `pending` changed by `f`, and nothing else. -/
def State.onPending (s : State) (f : List Instr → List Instr) : State :=
  { s with pending := f s.pending }

/-- `s` with its part `free` changed by `f`, and nothing else. -/
def State.onFree (s : State) (f : Nat → Nat) : State :=
  { s with free := f s.free }

/-- `s` with its part `wave` changed by `f`, and nothing else. -/
def State.onWave (s : State) (f : WaveS → WaveS) : State :=
  { s with wave := f s.wave }

/-- `s` with its part `sig` changed by `f`, and nothing else. -/
def State.onSig (s : State) (f : SigS → SigS) : State :=
  { s with sig := f s.sig }

/-- `s` with its part `xp` changed by `f`, and nothing else. -/
def State.onXp (s : State) (f : XpS → XpS) : State :=
  { s with xp := f s.xp }

/-- `s` with its part `lanes` changed by `f`, and nothing else. -/
def State.onLanes (s : State) (f : Tab LaneS → Tab LaneS) : State :=
  { s with lanes := f s.lanes }

/-- `s` with its part `plan` changed by `f`, and nothing else. -/
def State.onPlan (s : State) (f : PlanS → PlanS) : State :=
  { s with plan := f s.plan }

/-- `s` with its part `place` changed by `f`, and nothing else. -/
def State.onPlace (s : State) (f : PlaceS → PlaceS) : State :=
  { s with place := f s.place }

/-- `s` with its part `drv` changed by `f`, and nothing else. -/
def State.onDrv (s : State) (f : DrvS → DrvS) : State :=
  { s with drv := f s.drv }

/-- `s` with its part `net` changed by `f`, and nothing else. -/
def State.onNet (s : State) (f : NetS → NetS) : State :=
  { s with net := f s.net }

/-- `s` with its part `lio` changed by `f`, and nothing else. -/
def State.onLio (s : State) (f : LioS → LioS) : State :=
  { s with lio := f s.lio }

/-- `s` with its part `twin` changed by `f`, and nothing else. -/
def State.onTwin (s : State) (f : TwinS → TwinS) : State :=
  { s with twin := f s.twin }

/-- `s` with its part `host` changed by `f`, and nothing else. -/
def State.onHost (s : State) (f : HostS → HostS) : State :=
  { s with host := f s.host }

/-- `s` with its part `mat` changed by `f`, and nothing else. -/
def State.onMat (s : State) (f : MatS → MatS) : State :=
  { s with mat := f s.mat }

/-- `s` with its part `clk` changed by `f`, and nothing else. -/
def State.onClk (s : State) (f : ClkS → ClkS) : State :=
  { s with clk := f s.clk }

/-- `s` with its part `flt` changed by `f`, and nothing else. -/
def State.onFlt (s : State) (f : FltS → FltS) : State :=
  { s with flt := f s.flt }

/-- `s` with its part `sm` changed by `f`, and nothing else. -/
def State.onSm (s : State) (f : SmS → SmS) : State :=
  { s with sm := f s.sm }

end Sys2Proof.Machine
end

