-- ==== Sys2Proof/Machine/Ops.lean ====
section
/-! DEFINITION. The operations every family shares: time, byte memory, fault reports on their way to the collector
(14 R443 to R446, R517), interrupts (11 R365), and the answer of a Kiosk (11 R357, R358). -/

namespace Sys2Proof.Machine

/-! ### Rates and time -/

/-- Sample rate in Hz (00 R3). -/
def Rate.hz : Rate → Nat
  | .r48 => 48000
  | .r96 => 96000
  | .r192 => 192000

/-- The code of a rate in WAVE_STATUS and plan images (01 R36). -/
def Rate.code : Rate → Nat
  | .r48 => 0
  | .r96 => 1
  | .r192 => 2

/-- The rate of a code; 3 is no rate. -/
def rateOf : Nat → Option Rate
  | 0 => some .r48
  | 1 => some .r96
  | 2 => some .r192
  | _ => none

/-- RATE of WAVE_STATUS (01 R36). -/
def rateCode (s : State) : Nat :=
  match s.wave.rate with
  | some r => r.code
  | none => 3

/-- Samples per second; 96,000 stands in while no rate is set (nothing is timed in samples then). -/
def hz (s : State) : Nat :=
  match s.wave.rate with
  | some r => r.hz
  | none => 96000

/-- The rate is 192 kHz (02 R66). -/
def is192 (s : State) : Bool := s.wave.rate == some .r192

/-- The wave in progress; between waves the value of the last tick. -/
def sampleNow (s : State) : BitVec 64 := if s.wave.live then s.wave.num else s.wave.count

/-- The wave in which the command that is taking effect was accepted: a forwarded one takes effect one wave later
(10 R319). -/
def accWave (s : State) : BitVec 64 := if s.twin.applying then sampleNow s - 1 else sampleNow s

/-- The wave in which a command that acts at once takes effect: the wave in progress; a forwarded one is applied before
the flip that launches its wave (10 R319). -/
def effNow (s : State) : BitVec 64 := if s.twin.applying then sampleNow s + 1 else sampleNow s

/-- The value that the next tick carries (01 R35): a step's value, the first value of a new counter domain, or one
more than the last. -/
def nextTick (s : State) : BitVec 64 :=
  match s.wave.step with
  | some v => v
  | none =>
    match s.wave.firstTick with
    | some v => v
    | none => if s.wave.ticked then s.wave.count + 1 else 0

/-! ### Byte memory (12 R379) -/

/-- The byte at a 40-bit address; a byte nothing has written reads 0x00 (log entry 2). -/
def memByte (m : List Host.Cell) (a : Nat) : Byte := tget (α := Byte) 0 m a

/-- Memory with one byte written. -/
def memPut (m : List Host.Cell) (a : Nat) (v : Byte) : List Host.Cell := tput (α := Byte) 0 m a v

/-- `n` bytes from address `a` on. -/
def memRead (m : List Host.Cell) (a : Nat) : Nat → List Byte
  | 0 => []
  | n + 1 => memByte m a :: memRead m (a + 1) n

/-- Memory with the bytes `b` written from address `a` on. -/
def memWrite (m : List Host.Cell) (a : Nat) : List Byte → List Host.Cell
  | [] => m
  | v :: t => memWrite (memPut m a v) (a + 1) t

/-- The canonical form of the byte memory. -/
def memWf (m : List Host.Cell) : Bool := tabOk (α := Byte) 0 m

/-! ### Fault sources (14 R446, R517) -/

/-- The class of a source: 0 Event, 1 NOTE, 2 DEGRADE, 3 SEVERE, 4 FATAL; none for a code that names no source.
PLAYER_UNDERRUN depends on its player's protection. -/
def srcClass (prot : Bool) (c : Nat) : Option Nat :=
  if 0x0001 ≤ c ∧ c ≤ 0x0007 then some 0
  else if c = 0x0101 then some (if prot then 3 else 2)
  else if c = 0x0201 then some 1
  else if c = 0x0202 then some 3
  else if c = 0x0203 then some 2
  else if c = 0x0204 ∨ c = 0x0205 then some 3
  else if 0x0301 ≤ c ∧ c ≤ 0x0304 then some 1
  else if 0x0305 ≤ c ∧ c ≤ 0x0307 then some 3
  else if c = 0x0401 then some 3
  else if 0x0402 ≤ c ∧ c ≤ 0x0406 then some 1
  else if 0x0407 ≤ c ∧ c ≤ 0x040D then some 2
  else if c = 0x040E then some 3
  else if 0x0501 ≤ c ∧ c ≤ 0x0505 then some 1
  else if 0x0506 ≤ c ∧ c ≤ 0x050B then some 2
  else if 0x0601 ≤ c ∧ c ≤ 0x0604 then some 1
  else if c = 0x0605 ∨ c = 0x0606 then some 2
  else if 0x0701 ≤ c ∧ c ≤ 0x0704 then some 1
  else if c = 0x0705 then some 2
  else if c = 0x0801 then some 1
  else if 0x0802 ≤ c ∧ c ≤ 0x0807 then some 2
  else if c = 0x0808 ∨ c = 0x0809 then some 3
  else if c = 0x0901 ∨ c = 0x0902 then some 1
  else if 0x0903 ≤ c ∧ c ≤ 0x0907 then some 2
  else if 0x0908 ≤ c ∧ c ≤ 0x090A then some 3
  else if c = 0x090B ∨ c = 0x090C then some 4
  else if c = 0x0A01 then some 3
  else if c = 0x0A02 then some 1
  else if c = 0x0B01 then some 3
  else if c = 0x0B02 ∨ c = 0x0B03 then some 4
  else if 0x1001 ≤ c ∧ c ≤ 0x1003 then some 1
  else if 0x1004 ≤ c ∧ c ≤ 0x1006 then some 2
  else if c = 0x1007 ∨ c = 0x1008 then some 3
  else if c = 0x1009 ∨ c = 0x100A then some 4
  else none

/-- The source reports on a dual-rail pair ("Line" of 14 R446). -/
def srcLine (c : Nat) : Bool :=
  decide (c = 0x0101 ∨ (0x0201 ≤ c ∧ c ≤ 0x0205) ∨ (0x0301 ≤ c ∧ c ≤ 0x0307) ∨ c = 0x0401
    ∨ (0x0506 ≤ c ∧ c ≤ 0x050B) ∨ c = 0x0605 ∨ c = 0x0606 ∨ c = 0x0801 ∨ (0x0906 ≤ c ∧ c ≤ 0x090A)
    ∨ c = 0x090C ∨ (0x0B01 ≤ c ∧ c ≤ 0x0B03) ∨ (0x1001 ≤ c ∧ c ≤ 0x100A))

/-- The condition sources of 14 R517. -/
def srcCond (c : Nat) : Bool :=
  decide (c = 0x0205 ∨ c = 0x0506 ∨ c = 0x0507 ∨ c = 0x0508 ∨ c = 0x0509 ∨ c = 0x050A ∨ c = 0x050B
    ∨ c = 0x0605 ∨ c = 0x0606 ∨ c = 0x0802 ∨ c = 0x0901 ∨ c = 0x0903 ∨ c = 0x0906 ∨ c = 0x0908 ∨ c = 0x0909
    ∨ c = 0x0907 ∨ c = 0x1008 ∨ c = 0x040B ∨ c = 0x040E ∨ c = 0x0809 ∨ c = 0x0A01 ∨ c = 0x0A02)

/-- One number for a source and one of its instances. -/
def srcKey (c obj : Nat) : Nat := c * 2 ^ 32 + obj

/-- Put a report on its line, or at the firmware port (14 R443, R445). -/
def putRep (r : Rep) (s : State) : State :=
  let r := { r with sample := sampleNow s }
  s.onFlt fun f => if srcLine r.src then { f with lineQ := f.lineQ ++ [r] } else { f with fwQ := f.fwQ ++ [r] }

/-- Nolut is in a warm restart: the Dispatcher, the census and twin decisions pause, and nothing of theirs begins until READY
(13 R423, R437). -/
def nolutDown (s : State) : Bool := s.clk.restart

/-- A detector reports. A condition source that is in error already stays so and reports nothing (14 R517). -/
def raise (c obj : Nat) (data : BitVec 64) (s : State) : State :=
  if srcCond c then
    if s.flt.cond.contains (srcKey c obj) then s
    else putRep { src := c, obj := obj, data := data }
      (s.onFlt fun f => { f with cond := f.cond ++ [srcKey c obj] })
  else putRep { src := c, obj := obj, data := data } s

/-- The condition of a condition source ends: one report with ENDED (14 R451, R517). -/
def endCond (c obj : Nat) (s : State) : State :=
  if s.flt.cond.contains (srcKey c obj) then
    putRep { src := c, obj := obj, ended := true }
      (s.onFlt fun f => { f with cond := f.cond.filter (· != srcKey c obj) })
  else s

/-- OBJECT of subsystem 0x04: WORK, district and slot (14 R458). -/
def objWork (work district slot : Nat) : Nat := work * 65536 + district * 256 + slot

/-- OBJECT of subsystem 0x06 for a stream (14 R458). -/
def objStream (port stream : Nat) : Nat := stream * 65536 + port * 256 + 0xFF

/-- OBJECT of subsystem 0x06 for a ring (14 R458). -/
def objRing (port ring : Nat) : Nat := port * 256 + ring

/-- An audit failure of the unit: a vote lost, a comparison lost (10 R328). The waves of the last 264 are kept. -/
def noteAudit (s : State) : State :=
  s.onTwin fun t => { t with
    auditWaves := sampleNow s :: t.auditWaves.filter fun w => decide ((sampleNow s).toNat ≤ w.toNat + 264) }

/-! ### Interrupts (11 R349, R365) -/

/-- An MSI-X message on a vector. -/
def sendMsi (v : Nat) (s : State) : State := s.onHost fun h => { h with msix := h.msix ++ [v] }

/-- A bit of HOST_IRQ is set. -/
def setIrq (i : Nat) (s : State) : State :=
  s.onHost fun h => { h with irq := h.irq ||| BitVec.ofNat 32 (2 ^ i) }

/-- nHOST_IRQ is asserted (11 R352). -/
def hostIrq (s : State) : Bool :=
  s.host.irq &&& s.host.irqMask != 0 || s.host.irqHi &&& s.host.irqMaskHi != 0

/-- Kiosk `k` became DONE or EVENT: its bit and vector, when IRQ_EN is set (11 R356, R365). -/
def kioskIrq (k : Nat) (s : State) : State :=
  if (tget {} s.host.kiosks k).irqEn then
    sendMsi k (if k < 20 then setIrq k s
      else s.onHost fun h => { h with irqHi := h.irqHi ||| BitVec.ofNat 32 (2 ^ (k - 20)) })
  else s

/-! ### Kiosks (11 R356 to R361) -/

/-- A failing check: status, DETAIL, a failure payload where the owning chapter gives one, and the logical Squares
whose queues refused (02 R49). -/
structure Fail where
  /-- Status code (11 R361). -/
  status : Nat
  /-- DETAIL. -/
  detail : Nat := 0
  /-- Failure payload. -/
  payload : List Byte := []
  /-- Squares that refused. -/
  full : List Nat := []
deriving DecidableEq, Repr

/-- BAD_PARAM at a payload offset (11 R358, R361). -/
def badParam (o : Nat) : Fail := { status := 0x0003, detail := o }

/-- BAD_PARAM at the first field found wrong, in payload order (00 R10, 11 R358). -/
def paramCheck (l : List (Nat × Bool)) : Option Fail := (firstBad l).map badParam

/-- Findings on the value fields of a command whose OP stands at offset `o`: offset, bytes, and whether the value is one that
OP 1 takes. Where OP is not 1 the value is not used; it is still checked, so that no reserved bit or encoding passes (00 R10),
but 0 passes in every field (log entry 19). -/
def onOp (p : List Byte) (o : Nat) (l : List (Nat × Nat × Bool)) : List (Nat × Bool) :=
  l.map fun e => (e.1, e.2.2 || (byteAt p o != 1 && fld p e.1 e.2.1 == 0))

/-- The payload has exactly `n` bytes; the finding's offset is the first byte missing or in excess (log entry 15). -/
def lenIs (p : List Byte) (n : Nat) : Nat × Bool := (min p.length n, p.length == n)

/-- The first of two checks that fails. -/
def orElse (a b : Option Fail) : Option Fail :=
  match a with
  | some f => some f
  | none => b

/-- A status when a condition holds. -/
def failIf (c : Bool) (status : Nat) : Option Fail := if c then some { status := status } else none

/-- A change of one Kiosk. -/
def onKiosk (k : Nat) (g : KioskS → KioskS) (s : State) : State :=
  s.onHost fun h => { h with kiosks := tmod {} h.kiosks k g }

/-- The header of a response (11 R358): code, tag, length, no flags, the plan epoch, status and detail. -/
def respHeader (code tag len : Nat) (epoch : BitVec 32) (status detail : Nat) : List Byte :=
  le 2 code ++ le 2 tag ++ le 2 len ++ le 2 0 ++ le 4 epoch.toNat ++ le 2 status ++ le 2 detail

/-- A buffer of 256 bytes that holds `b` first; the bytes behind it keep their values. -/
def bufPut (buf : Tab Byte) (b : List Byte) : Tab Byte :=
  (List.range b.length).foldl (fun t i => tput 0 t i (byteAt b i)) buf

/-- The bytes of a buffer. -/
def bufBytes (buf : Tab Byte) (n : Nat) : List Byte := (List.range n).map fun i => tget 0 buf i

/-- The key and the IV of a sealed message of one direction, 0 host to engine, 1 engine to host (15 R472, R473). -/
def sealKeys (okm : List Byte) (dir : Nat) (ctr : BitVec 64) : List Byte × List Byte :=
  ((okm.drop (32 * dir)).take 32, (okm.drop (64 + 4 * dir)).take 4 ++ be 8 ctr.toNat)

/-- A sealed response payload: ciphertext and tag, with the header as sent for associated data (15 R473). -/
def sealed (q : Sess) (header p : List Byte) : List Byte :=
  let k := sealKeys q.okm 1 q.ctrOut
  gcmSeal k.1 k.2 header p

/-- The epoch after an epoch (05 R177). -/
def nextEpoch (e : BitVec 32) : BitVec 32 := if e = 0xFFFFFFFF then 1 else e + 1

/-- The plan epoch in force in a wave: a plan load or unload that takes effect at or before it has begun the next one
(11 R359). -/
def epochAt (w : Nat) (s : State) : BitVec 32 :=
  match s.plan.staged with
  | some q =>
    match q.effect with
    | some e =>
      let at_ := match q.rateChange, s.clk.rateDue with
        | true, some (_, last, _) => last.toNat + 1
        | _, _ => e.toNat
      if at_ ≤ w then nextEpoch s.plan.epoch else s.plan.epoch
    | none => s.plan.epoch
  | none => s.plan.epoch

/-- The command loads or unloads a plan: the check is against the epoch that it replaces, and the response carries the
one that it begins. -/
def isLoad (code : Nat) : Bool := code == 0x0101 || code == 0x0108

/-- The effect wave of a command (11 R358, R359): its AT_SAMPLE, two waves on for a scheduled change without one, the next
wave for what lands at a flip, and the wave of acceptance for the rest. -/
def effWave (code : Nat) (p : List Byte) (w : BitVec 64) : BitVec 64 :=
  if code = 0x0205 ∨ code = 0x0310 then (if fld p 8 8 = 0 then w + 2 else BitVec.ofNat 64 (fld p 8 8))
  else if code = 0x0107 ∨ code = 0x0907 then w + 2
  else if code = 0x0212 ∨ code = 0x0301 ∨ code = 0x0303 ∨ code = 0x0304 ∨ code = 0x0311 then w + 1
  else w

/-- The epoch of the response to a request (11 R358). -/
def respEpoch (r : Req) (s : State) : BitVec 32 := epochAt (if isLoad r.code then 2 ^ 64 else r.wave.toNat) s

/-- The engine answers the command in progress on Kiosk `k` (11 R357, R358): response buffer, DONE, TAG_DONE, the
interrupt. The response to a sealed request is sealed while the session lasts (15 R473). A response that a
function-level reset has discarded leaves the Kiosk IDLE (11 R377). -/
def answer (k status detail : Nat) (payload : List Byte) (s : State) : State :=
  let ks := tget {} s.host.kiosks k
  match ks.req with
  | none => s
  | some r =>
    if ks.drop then onKiosk k (fun q => { q with req := none, drop := false }) s
    else
      let head (n : Nat) : List Byte := respHeader r.code r.tag.toNat n (respEpoch r s) status detail
      let b := match r.sealed, s.sm.session with
        | true, some q =>
          let h := head (payload.length + 16)
          h ++ sealed q h payload
        | _, _ => head payload.length ++ payload
      let s := match r.sealed, s.sm.session with
        | true, some q => s.onSm fun m => { m with session := some { q with ctrOut := q.ctrOut + 1 } }
        | _, _ => s
      kioskIrq k (onKiosk k (fun q =>
        { q with respBuf := bufPut q.respBuf b, st := 2, tagDone := r.tag, req := none }) s)

/-- The answer of a command that succeeds. -/
def answerOk (k : Nat) (payload : List Byte) (s : State) : State := answer k 0 0 payload s

/-- The answer of a command that fails its own checks (11 R359): counted, with the Squares that refused marked
(02 R49). -/
def answerFail (k : Nat) (f : Fail) (s : State) : State :=
  let s := if f.full = [] then s else
    s.onXp fun x => { x with
      queueRefused := true
      refused := f.full.foldl (fun b q => b ||| BitVec.ofNat 80 (2 ^ q)) x.refused }
  answer k f.status f.detail f.payload (s.onHost fun h => { h with rejected := satAdd h.rejected 1 })

/-- Kiosk `k` is BUSY with a request of this code that the engine has not yet accepted. -/
def heldReq (code k : Nat) (s : State) : Option Req :=
  let ks := tget {} s.host.kiosks k
  match ks.req with
  | some r => if r.code = code ∧ r.taken = false then some r else none
  | none => none

/-- What a command does once its checks have passed: the state, and the response payload, or none while the Kiosk
stays BUSY. -/
abbrev Effect := State × Option (List Byte)

/-- The claimant of a pair forwards (10 R319, R335): PAIR, ACTIVE, and the Octot link up. -/
def forwards (s : State) : Bool := s.twin.pair && s.twin.active && s.twin.linkUp

/-- An effect on Kiosk `k`: the state it leaves, answered when it has a response. -/
def settle (k : Nat) (e : Effect) : State :=
  match e.2 with
  | some p => answerOk k p e.1
  | none => e.1

/-- Step 6 of 11 R359: the epoch that the request expects is in force at the command's effect wave. -/
def epochOk (r : Req) (s : State) : Bool :=
  !r.flags.getLsbD 0 || r.epoch == (if isLoad r.code then s.plan.epoch else epochAt (effWave r.code r.payload (sampleNow s)).toNat s)

/-- The command in progress on Kiosk `k`, when its code is `code`: step 6 of 11 R359, its own checks, and its effect.
A forwarded command of a claimant whose Octot link is up is queued for both units instead (10 R319): its effect comes
with FORWARDED_COMMAND_APPLY. Without such a request on the Kiosk nothing happens (log entry 4). -/
def runKiosk (code k : Nat) (fwd : List Byte → Bool) (check : List Byte → State → Option Fail)
    (effect : Nat → List Byte → State → Effect) (s : State) : State :=
  match heldReq code k s with
  | none => s
  | some r =>
    if epochOk r s then
      match check r.payload s with
      | some f => answerFail k f s
      | none =>
        let s := s.onHost fun h => { h with accepted := satAdd h.accepted 1 }
        if fwd r.payload && forwards s then
          let fr : FwdRec := { type := 1, code := code, wave := sampleNow s + 2, bytes := r.payload, kiosk := k }
          let r := { r with
            taken := true
            forwarded := true
            wave := effWave code r.payload (sampleNow s + 1) }
          onKiosk k (fun q => { q with req := some r }) (s.onTwin fun t => { t with fwdOut := t.fwdOut ++ [fr], fwdIn := t.fwdIn ++ [fr] })
        else
          let s := if fwd r.payload && s.twin.pair && s.twin.active then
            s.onTwin fun t => { t with ahead := true } else s
          let r := { r with
            taken := true
            wave := effWave code r.payload (sampleNow s) }
          let s := onKiosk k (fun q => { q with req := some r }) s
          settle k (effect k r.payload s)
    else answerFail k { status := 0x0005 } s

/-- No form of the command is forwarded. -/
def fwdNever (_ : List Byte) : Bool := false

/-- Every form of the command is forwarded. -/
def fwdAlways (_ : List Byte) : Bool := true

/-- The OP 1 form of the command is forwarded (10 R319). -/
def fwdWrites (p : List Byte) : Bool := byteAt p 0 == 1

end Sys2Proof.Machine
end

