-- ==== Sys2Proof/Machine/Crosspoint.lean ====
section
/-! DEFINITION. The mixing crosspoint (02): node words, queues, overlays, sums and the Alley vote, as operations. -/

namespace Sys2Proof.Machine

/-! ### Geometry (R37, R60, R66) -/

/-- Rows of a logical Square: 256, or 128 at 192 kHz. -/
def sqRows (s : State) : Nat := if is192 s then 128 else 256

/-- Logical Squares in a row of Squares: 8, or 4 at 192 kHz. -/
def sqCols (s : State) : Nat := if is192 s then 4 else 8

/-- Logical Squares: 80, or 40 at 192 kHz. -/
def squares (s : State) : Nat := 10 * sqCols s

/-- Row of a gain-space index. -/
def rowOf (i : Nat) : Nat := i / 2048

/-- Column of a gain-space index. -/
def colOf (i : Nat) : Nat := i % 2048

/-- The index lies within the rows and columns of the rate (R37, R66). -/
def idxOk (s : State) (i : Nat) : Bool := decide (rowOf i < 10 * sqRows s ∧ colOf i < 256 * sqCols s)

/-- The logical Square of an index (R37, R66). -/
def sqOf (s : State) (i : Nat) : Nat := sqCols s * (rowOf i / sqRows s) + colOf i / 256

/-- Number of the Alley bus that the running plan assigns to a column. -/
def alleyOf (s : State) (col : Nat) : Option Nat :=
  match s.plan.run with
  | none => none
  | some p => (p.buses.find? fun b => b.col == col && b.alley.isSome).bind (·.alley)

/-- The column of an Alley bus. -/
def alleyCol (s : State) (bus : Nat) : Option Nat :=
  match s.plan.run with
  | none => none
  | some p => (p.buses.find? fun b => b.alley == some bus).map (·.col)

/-- The row lies in the Alley row block of the running plan. -/
def alleyRow (s : State) (row : Nat) : Bool :=
  match s.plan.run.bind (·.alleyBlock) with
  | none => false
  | some a => row / sqRows s == a

/-- The Alley Square (R60). -/
def alleySq (s : State) : Option Nat :=
  match s.plan.run with
  | none => none
  | some p =>
    match p.alleyBlock, p.alleyCols with
    | some a, some c => some (sqCols s * a + c)
    | _, _ => none

/-! ### Node words (R39, R40, R54, R58) -/

/-- STEP of a node word. -/
def wStep (w : BitVec 32) : Nat := bitsOf w.toNat 27 26

/-- MUTE of a node word. -/
def wMute (w : BitVec 32) : Bool := w.getLsbD 25

/-- INV of a node word. -/
def wInv (w : BitVec 32) : Bool := w.getLsbD 24

/-- G of a node word. -/
def wG (w : BitVec 32) : Nat := w.toNat % 2 ^ 24

/-- The word contributes (R60). -/
def contributes (w : BitVec 32) : Bool := !wMute w && wG w != 0

/-- A contributing word that the Alley rules reject at this node (R60, R153). -/
def alleyBad (s : State) (i : Nat) (w : BitVec 32) : Bool :=
  contributes w && (alleyRow s (rowOf i) != (alleyOf s (colOf i)).isSome)

/-- The override of a level for a node. -/
def override (x : XpS) (level i : Nat) : Option (BitVec 32) := tget none x.ovr (level * 2 ^ 23 + i)

/-- The override of the highest of the first `n` levels that is active and holds one (R54). -/
def topOverride (x : XpS) (active : BitVec 16) (i : Nat) : Nat → Option (BitVec 32)
  | 0 => none
  | n + 1 =>
    match (if active.getLsbD n then override x n i else none) with
    | some w => some w
    | none => topOverride x active i n

/-- The base word of a node. -/
def baseWord (x : XpS) (i : Nat) : BitVec 32 := tget 0 x.base i

/-- The target word of a node (R54). -/
def targetWord (x : XpS) (i : Nat) : BitVec 32 := (topOverride x x.active i 16).getD (baseWord x i)

/-- The effective word of a node (R40, R58). -/
def effWord (x : XpS) (i : Nat) : BitVec 32 :=
  match tget none x.trans i with
  | some t => t.held
  | none => targetWord x i

/-- The effective word is an override (R70). -/
def effIsOvr (x : XpS) (i : Nat) : Bool :=
  match tget none x.trans i with
  | some t => t.ovr
  | none => (topOverride x x.active i 16).isSome

/-- Copy `c` of the node's base word has a double-bit error that mutes it (R38). Copies: 0 primary, 1 and 2 the Alley
replicas, 3 the second physical Square at 192 kHz. -/
def gainErr (x : XpS) (c i : Nat) : Bool := x.err.contains (c * 2 ^ 23 + i) && !effIsOvr x i

/-! ### Sums (R41) -/

/-- The product of one node. -/
def product (w : BitVec 32) (v : W36) : Int :=
  if wMute w then 0 else if wInv w then -(v.toInt * (wG w : Int)) else v.toInt * (wG w : Int)

/-- The partial sum of column `col` over rows `r0` to `r0 + n - 1`, for copy `c`. A row that `rows` does not list is 0
and adds nothing. -/
def colSum (x : XpS) (rows : Tab W36) (c r0 n col : Nat) : Int :=
  rows.foldl (fun acc p =>
    if r0 ≤ p.1 ∧ p.1 < r0 + n ∧ gainErr x c (p.1 * 2048 + col) = false then
      acc + product (effWord x (p.1 * 2048 + col)) p.2 else acc) 0

/-- The final step of R41: convergent rounding and saturation, and whether it saturated. -/
def finalStep (sum : Int) : W36 × Bool :=
  let y := roundEven sum (2 ^ 20)
  (BitVec.ofInt 36 (satInt 36 y), decide (satInt 36 y ≠ y))

/-- The 256 partial sums of logical Square `q`, for copy `c`. Nodes of an Alley column outside the Alley Square contribute 0,
whatever words an earlier plan has left there (R60). -/
def squareSums (s : State) (x : XpS) (c q : Nat) : List Int :=
  (List.range 256).map fun b =>
    let col := q % sqCols s * 256 + b
    if (alleyOf s col).isSome && alleySq s != some q then 0
    else colSum x s.sig.rowCur c (q / sqCols s * sqRows s) (sqRows s) col

/-! ### Queues (R44 to R50) -/

/-- A zero crossing between the words `a` and `b` of two waves (R44). -/
def wordCrosses (a b : W36) : Bool := b == 0 || (a != 0 && a.msb != b.msb)

/-- Row `r` has a zero crossing in the wave in progress (R44). -/
def crosses (s : State) (r : Nat) : Bool := wordCrosses (tget 0 s.sig.rowPrev r) (tget 0 s.sig.rowCur r)

/-- The timeout in samples of a code (R45). -/
def timeoutOf (s : State) (code : Nat) : Nat :=
  match s.wave.rate with
  | some .r48 => code * 24
  | some .r192 => code * 96
  | _ => code * 48

/-- M of R58: 1.0 ms in samples. -/
def transSamples (s : State) : Nat := hz s / 1000

/-- Write the base word of a node: the word is fresh in every copy (R38, R48). -/
def setBase (i : Nat) (w : BitVec 32) (x : XpS) : XpS :=
  { x with
    base := tput 0 x.base i w
    err := x.err.filter fun e => e % 2 ^ 23 != i }

/-- Work that shares the words and the queue of a logical Square: its second physical Square and the Alley replicas. -/
def sharers (s : State) (q : Nat) : List Nat :=
  [q, 0x1000 + q] ++ (if alleySq s = some q then [0x2000, 0x2001] else [])

/-- Logical Square `q` still takes part in the wave in progress: it is placed, and none of its copies has completed. -/
def squareOpen (s : State) (q : Nat) : Bool :=
  s.wave.live && (tget {} s.place.works q).placed && !(sharers s q).any fun w => s.wave.done.contains w

/-- A physical Square, a second copy or an Alley replica has completed the wave in progress. -/
def squaresBegun (s : State) : Bool := s.wave.live && s.wave.done.any fun w => decide (w < 0x4000)

/-- The wave in which the entries of a command enter their queues, and in which a change of overrides acts (R49, R58): the
wave in progress while every Square can still take part in it, else the next one. A forwarded command acts in the wave that
is launched next (10 R319). -/
def entryWave (s : State) : BitVec 64 :=
  if s.twin.applying || squaresBegun s then sampleNow s + 1 else sampleNow s

/-- Entries that logical Square `q` uses. -/
def queueUsed (s : State) (x : XpS) (q : Nat) : Nat := (x.queue.filter fun e => sqOf s e.idx == q).length

/-- The queue with the node's entry removed. -/
def queueDrop (i : Nat) (x : XpS) : XpS := { x with queue := x.queue.filter fun e => e.idx != i }

/-- The node's entry. -/
def queueFind (x : XpS) (i : Nat) : Option QEntry := x.queue.find? fun e => e.idx == i

/-- A word written at once that waits for its wave is dropped: a later write to its node has replaced it (R48, R64). -/
def directDrop (i : Nat) (x : XpS) : XpS := { x with direct := x.direct.filter fun q => q.idx != i }

/-- One node write under R48 in wave `e`, or none when its queue is full. Of two writes to one node the later wins. -/
def queueWrite (s : State) (tag i : Nat) (w : BitVec 32) (x : XpS) : Option XpS :=
  let e := entryWave s
  let n := timeoutOf s x.stTimeout.toNat
  let x := directDrop i x
  if s.wave.running = false ∧ wStep w ≠ 2 then some (setBase i w (queueDrop i x))
  else if wStep w = 1 then
    let d : QEntry := { idx := i, word := w, wave := e + 1 }
    some { queueDrop i x with direct := x.direct ++ [d] }
  else
    match queueFind x i with
    | some old =>
      let new : QEntry :=
        if wStep w = 0 then
          (if old.held then { idx := i, word := w, wave := e, timeout := n } else { old with word := w })
        else { old with word := w, held := true, tag := tag }
      some { x with queue := x.queue.map fun q => if q.idx == i then new else q }
    | none =>
      if queueUsed s x (sqOf s i) ≥ 1024 then none
      else
        let new : QEntry := { idx := i, word := w, held := wStep w == 2, tag := if wStep w == 2 then tag else 0,
                              wave := e, timeout := n }
        some { x with queue := x.queue ++ [new] }

/-- The writes of one command in order (R49): the first Square that is full stops it. -/
def queueWrites (s : State) (tag : Nat) : List (Nat × BitVec 32) → XpS → Except Nat XpS
  | [], x => .ok x
  | (i, w) :: t, x =>
    match queueWrite s tag i w x with
    | some x' => queueWrites s tag t x'
    | none => .error (sqOf s i)

/-- Count a timeout application of a completed wave and log it within the limit of R47. -/
def countTimeout (q : Nat) (s : State) : State :=
  let s := s.onXp fun x => { x with timeouts := satAdd x.timeouts 1 }
  let l := tget {} s.xp.toLog q
  let due := match l.last with
    | none => true
    | some w => decide (w.toNat + 4096 ≤ s.wave.num.toNat)
  if due then
    raise 0x0201 q (BitVec.ofNat 64 (l.held + 1))
      (s.onXp fun x => { x with toLog := tput {} x.toLog q { last := some s.wave.num, held := 0 } })
  else s.onXp fun x => { x with toLog := tput {} x.toLog q { l with held := l.held + 1 } }

/-- An entry is due by timeout in the wave in progress and its row does not cross (R45, R46). -/
def timeoutDue (s : State) (e : QEntry) : Bool :=
  !e.held && decide (e.wave.toNat + e.timeout ≤ s.wave.num.toNat) && !crosses s (rowOf e.idx)

/-- An entry applies at a zero crossing in the wave in progress (R45). -/
def crossDue (s : State) (e : QEntry) : Bool :=
  !e.held && decide (e.wave.toNat ≤ s.wave.num.toNat) && crosses s (rowOf e.idx)

/-- A transition is due by timeout, without a crossing (R58). -/
def transTimeoutDue (s : State) (i : Nat) (t : Trans) : Bool :=
  decide (t.start.toNat + transSamples s ≤ s.wave.num.toNat) && !crosses s (rowOf i)

/-- A transition applies at a crossing (R58). -/
def transCrossDue (s : State) (i : Nat) (t : Trans) : Bool :=
  decide (t.start.toNat ≤ s.wave.num.toNat) && crosses s (rowOf i)

/-- Apply one queue entry: the word becomes the base word and the entry leaves its queue (R40, R45). -/
def applyEntry (e : QEntry) (s : State) : State := s.onXp fun x => setBase e.idx e.word (queueDrop e.idx x)

/-- End one transition: the effective word becomes the target word (R58). -/
def applyTrans (i : Nat) (s : State) : State := s.onXp fun x => { x with trans := tput none x.trans i none }

/-- Everything that applies in Square `q` in a wave that it completes: entries at crossings, entries by timeout, and
transitions (R45, R46, R58, R64). -/
def squareApply (q : Nat) (s : State) : State :=
  let mine := s.xp.queue.filter fun e => sqOf s e.idx == q
  let s1 := mine.foldl (fun t e =>
    if crossDue s e || timeoutDue s e then applyEntry e t else t) s
  s.xp.trans.foldl (fun t p =>
    match p.2 with
    | some r => if sqOf s p.1 == q && (transCrossDue s p.1 r || transTimeoutDue s p.1 r) then applyTrans p.1 t else t
    | none => t) s1

/-- What Square `q` has applied in the wave in progress is committed (01 R25), and its applications by timeout are counted
(R47). -/
def squareCommit (q : Nat) (s : State) : State :=
  let timed := s.xp.undo.filter fun u => sqOf s u.idx == q && u.timed
  timed.foldl (fun t _ => countTimeout q t) (s.onXp fun x => { x with undo := x.undo.filter fun u => sqOf s u.idx != q })

/-- One application of a discarded wave is taken back (01 R25, R64): the entry applies in the next completed wave. -/
def undoOne (u : Undo) (x : XpS) : XpS :=
  match u.trans with
  | some t => { x with trans := tput none x.trans u.idx (some t) }
  | none =>
    let x := { x with
      base := tput 0 x.base u.idx u.base
      err := x.err ++ u.err }
    let x := match u.entry with
      | some e => if (queueFind x e.idx).isSome then x else { x with queue := x.queue ++ [e] }
      | none => x
    match u.direct with
    | some e => if x.direct.any (fun d => d.idx == e.idx) then x else { x with direct := x.direct ++ [e] }
    | none => x

/-- Square `q` has missed its wave: nothing that it applied is committed. -/
def squareDiscard (q : Nat) (s : State) : State :=
  s.onXp fun x =>
    let mine := x.undo.filter fun u => sqOf s u.idx == q
    mine.foldl (fun x u => undoOne u x) { x with undo := x.undo.filter fun u => sqOf s u.idx != q }

/-- Remember an application of an entry, so that a missed wave can take it back. -/
def noteUndo (e : QEntry) (isDirect timed : Bool) (s : State) : State :=
  s.onXp fun x => { x with
    undo := { idx := e.idx, base := baseWord x e.idx, err := x.err.filter (fun k => k % 2 ^ 23 == e.idx),
              entry := if isDirect then none else some e, direct := if isDirect then some e else none,
              timed := timed } :: x.undo }

/-- Words written with STEP 0b01 become base words in the wave that they carry (R48). -/
def directApply (s : State) : State :=
  let due := s.xp.direct.filter fun e => decide (e.wave.toNat ≤ s.wave.num.toNat)
  let s := s.onXp fun x => { x with direct := x.direct.filter fun e => !decide (e.wave.toNat ≤ s.wave.num.toNat) }
  due.foldl (fun t e => (noteUndo e true false t).onXp fun x => setBase e.idx e.word x) s

/-! ### Overlays (R54 to R58) -/

/-- Levels that the bound PRI inputs hold active, from what each input acts as (R55, R57). -/
def priHeld (x : XpS) : BitVec 16 :=
  (List.range 8).foldl (fun m k =>
    match tget none x.bind k with
    | some b => if (tget {} x.pri k).eff then m ||| BitVec.ofNat 16 (2 ^ b.level) else m
    | none => m) 0

/-- What a bound level takes input `k` for (R56, R57). -/
def priActs (x : XpS) (k : Nat) : Bool :=
  let p := tget {} x.pri k
  p.asserted || (p.broken && match tget none x.bind k with
    | some b => b.brokenActs
    | none => false)

/-- The nodes for which some override exists. -/
def ovrNodes (x : XpS) : List Nat := (x.ovr.map fun p => p.1 % 2 ^ 23).eraseDups

/-- Start the transitions that a change of the overlay state brings: for each node of `nodes` whose target word in
`new` differs from its target word in `old`, the word in force stays until the transition applies (R58). -/
def startTrans (wave : BitVec 64) (nodes : List Nat) (old new : XpS) : XpS :=
  nodes.foldl (fun x i =>
    if targetWord old i = targetWord new i then x
    else
      match tget none old.trans i with
      | some _ => x
      | none =>
        let t : Trans := { held := effWord old i, ovr := effIsOvr old i, start := wave }
        { x with trans := tput none x.trans i (some t) }) new

/-- Make `m` the active levels (R58). -/
def setActive (m : BitVec 16) (s : State) : State :=
  s.onXp fun x => startTrans (sampleNow s) (ovrNodes x) x { x with active := m }

/-! ### The Alley (R61 to R63) -/

/-- The sum that replica `c` (1 or 2) completes for an Alley bus. -/
def replicaSum (s : State) (x : XpS) (c col : Nat) : W36 × Bool :=
  match alleySq s with
  | some q => finalStep (colSum x s.sig.rowCur c (q / sqCols s * sqRows s) (sqRows s) col)
  | none => (0, false)

/-- The outcome of a vote: the value, whether it saturated, the copy that lost, and whether there is no majority. -/
structure Vote where
  /-- Voted value. -/
  val : W36
  /-- Its final step saturated. -/
  sat : Bool := false
  /-- 0 primary, 1 first replica, 2 second replica. -/
  loser : Option Nat := none
  /-- No two copies agree. -/
  noMaj : Bool := false
deriving DecidableEq, Repr

/-- The vote of R63 over the three copies (none: from a missed wave) and the previous voted sample. -/
def vote (prev : W36) (a b c : Option (W36 × Bool)) : Vote :=
  match a, b, c with
  | some a, some b, some c =>
    if a.1 = b.1 then (if b.1 = c.1 then { val := a.1, sat := a.2 } else { val := a.1, sat := a.2, loser := some 2 })
    else if a.1 = c.1 then { val := a.1, sat := a.2, loser := some 1 }
    else if b.1 = c.1 then { val := b.1, sat := b.2, loser := some 0 }
    else { val := prev, noMaj := true }
  | some a, some b, none => if a.1 = b.1 then { val := a.1, sat := a.2 } else { val := prev, noMaj := true }
  | some a, none, some c => if a.1 = c.1 then { val := a.1, sat := a.2 } else { val := prev, noMaj := true }
  | none, some b, some c => if b.1 = c.1 then { val := b.1, sat := b.2 } else { val := prev, noMaj := true }
  | _, _, _ => { val := prev, noMaj := true }

/-- The endpoint code of a bus (05 R518). -/
def busCode (col : Nat) : Nat := 0x60000000 + col

/-- The result of a producer is written into the input areas of its consumers (01 R20). -/
def produce (code : Nat) (v : W36) (s : State) : State :=
  s.onSig fun g => { g with outNew := tput none g.outNew code (some v) }

/-- The sticky saturation flag of a column (R43). -/
def setSat (col : Nat) (s : State) : State :=
  s.onXp fun x => if x.sat.contains col then x else { x with sat := x.sat ++ [col] }

/-- The vote on one Alley bus, its result and its reactions (R63). The Dispatcher's re-placement of a losing copy's
Square is `replaceCopy` (Placement). -/
def alleyVote (bus col : Nat) (primary : Option (W36 × Bool)) (s : State) : State × Option Nat :=
  let a := tget {} s.xp.alley bus
  let v := vote a.prev primary a.rep1 a.rep2
  let s := produce (busCode col) v.val s
  let s := if v.sat then setSat col s else s
  let s := s.onXp fun x => { x with
    alleyLoss := x.alleyLoss || v.loser.isSome
    alley := tput {} x.alley bus { a with
      prev := v.val
      losses := if v.loser.isSome then satAdd a.losses 1 else a.losses
      noMaj := if v.noMaj then satAdd a.noMaj 1 else a.noMaj
      lastLoser := match v.loser with
        | some c => BitVec.ofNat 8 c
        | none => a.lastLoser } }
  let s := if v.loser.isSome then raise 0x0203 bus (BitVec.ofNat 64 (v.loser.getD 0)) s else s
  let s := if v.noMaj then raise 0x0204 bus 0 s else s
  let s := if v.loser.isSome || v.noMaj then noteAudit s else s
  (s, v.loser)

/-- The Avenue's sum of a column, or none when a partial sum is from an older wave (01 R26). Only placed Squares
have partial sums. In the first wave after a return from HUSH every partial sum is from an older wave, and the spec does
not say what a column or a vote finds there: the sums of the last wave before HUSH stand in (DESIGN CHOICE, log entry 140). -/
def avenueSum (s : State) (col : Nat) : Option (W36 × Bool) :=
  let qs := (List.range 10).map fun r => sqCols s * r + col / 256
  let parts := (qs.filter fun q => (tget {} s.place.works q).placed).map fun q => tget {} s.sig.sumPart q
  if parts.all fun p => p.wave == s.wave.num - 1 then
    some (finalStep (parts.foldl (fun acc p => acc + p.vals.getD (col % 256) 0) 0))
  else none

/-- One column of an Avenue segment: a processed bus takes its sum, an Alley bus its vote; a column with an old partial
sum hands on its final sum of the previous wave again (01 R26). The second component is the Alley copy that lost a vote. -/
def avenueColumn (col : Nat) (s : State) : State × Option Nat :=
  match alleyOf s col with
  | some bus => alleyVote bus col (avenueSum s col) s
  | none =>
    match avenueSum s col with
    | some (y, sat) => (if sat then setSat col (produce (busCode col) y s) else produce (busCode col) y s, none)
    | none => (produce (busCode col) (tget 0 s.sig.outCur (busCode col)) s, none)

end Sys2Proof.Machine
end

