-- ==== Sys2Proof/Machine/Players.lean ====
section
/-! DEFINITION. The message library and the stored-message players (05 R170 to R172, 15 R476, R477, 12 R399). -/

namespace Sys2Proof.Machine

/-- First matrix address of the LPDDR5 (12 R379). -/
def ddrBase : Nat := 0x0400000000

/-- Usable LPDDR5 bytes: seven eighths of the installed capacity (12 R398, R402). -/
def ddrUsable (s : State) : Nat :=
  let gb := match s.mat.ddrCap with
    | 1 => 2
    | 2 => 4
    | 3 => 8
    | 4 => 12
    | 5 => 16
    | _ => 0
  gb * 2 ^ 30 / 8 * 7

/-- LIB_SIZE in bytes (15 R476). -/
def libSize (s : State) : Nat := s.sm.libMb * 2 ^ 20

/-- Matrix address of the library region: the top of the usable LPDDR5 (12 R399). -/
def libBase (s : State) : Nat := ddrBase + (ddrUsable s - libSize s)

/-- The directory record of an entry (15 R476). -/
def libRecord (s : State) (e : Nat) : List Byte := memRead s.mat.mem (libBase s + 128 * e) 128

/-- The library holds the entry: PRESENT, and OFFSET and SAMPLES within the region (15 R476). -/
def libPresent (s : State) (e : Nat) : Bool :=
  let r := libRecord s e
  decide (e < 1024) && bitOf (fld r 10 2) 0 && decide (1 ≤ fld r 4 4)
    && decide (131072 ≤ fld r 0 4) && fld r 0 4 % 64 == 0
    && decide (fld r 0 4 + 3 * fld r 4 4 ≤ libSize s)

/-- SAMPLES of an entry. -/
def libSamples (s : State) (e : Nat) : Nat := fld (libRecord s e) 4 4

/-- RATE of an entry. -/
def libRate (s : State) (e : Nat) : Nat := fld (libRecord s e) 8 1

/-- Sample `i` of an entry, entered as AES67 L24 (05 R170, 01 R29). -/
def libSample (s : State) (e i : Nat) : W36 :=
  let v := leNat (memRead s.mat.mem (libBase s + fld (libRecord s e) 0 4 + 3 * i) 3)
  BitVec.ofInt 36 (sgn 24 v * 256)

/-- The entry's VERIFIED bit (15 R477). -/
def libVerified (s : State) (e : Nat) : Bool := s.sm.verified.contains e

/-- The PLAYERS record of a player in the running plan. -/
def playRec (s : State) (p : Nat) : Option PlayRec :=
  s.plan.run.bind fun i => i.players.find? fun r => r.player == p

/-- The plan marks the player protected. -/
def playProt (s : State) (p : Nat) : Bool :=
  match playRec s p with
  | some r => r.prot
  | none => false

/-- A change of one player. -/
def onPlayer (p : Nat) (g : PlayerS → PlayerS) (s : State) : State :=
  s.onPlan fun q => { q with players := tmod {} q.players p g }

/-- The source code of a player (05 R161). -/
def playCode (p : Nat) : Nat := 0x20000000 + p

/-- The entry is there and has the running rate: a player plays no other (R170). -/
def entryPlays (s : State) (e : Nat) : Bool := libPresent s e && libRate s e == rateCode s

/-- The player's next sample is one of the first 4,096 of its entry, which stream-buffer eDRAM keeps for a bound player and
for one armed with AT_SAMPLE (R171). -/
def keptSample (s : State) (p : Nat) : Bool :=
  let q := tget {} s.plan.players p
  q.kept && decide (q.pos < 4096)

/-- An underrun (05 R171): the sample is 0, it is counted, and it is reported. -/
def playUnderrun (p : Nat) (s : State) : State :=
  raise 0x0101 p 0 (onPlayer p (fun q => { q with word := 0, under := satAdd q.under 1, pos := q.pos + 1 }) s)

/-- The player at a media tick: its word is latched for the next wave. `late` says that LPDDR5 has not delivered the
sample in time, or that it read a double-bit error (12 R391, R399), which a kept sample does not need; `lost`, that
stream-buffer eDRAM has read one. A protected player whose entry is not VERIFIED gives 0 and counts an underrun
(15 R477). -/
def playTick (p : Nat) (late lost : Bool) (s : State) : State :=
  let q := tget {} s.plan.players p
  if q.st = 2 ∨ q.st = 3 then
    if q.pos ≥ libSamples s q.entry || !entryPlays s q.entry then onPlayer p (fun q => { q with word := 0 }) s
    else if lost || (playProt s p && !libVerified s q.entry)
        || ((late || s.flt.cond.contains (srcKey 0x1008 0)) && !keptSample s p) then
      playUnderrun p s
    else onPlayer p (fun q => { q with word := libSample s q.entry q.pos, pos := q.pos + 1 }) s
  else onPlayer p (fun q => { q with word := 0 }) s

/-- The word of a player is latched for the next wave (R170). -/
def playLatch (late lost : Bool) (s : State) (p : Nat) : State :=
  let s := playTick p late lost s
  let w := (tget {} s.plan.players p).word
  s.onSig fun g => { g with latch := tput 0 g.latch (playCode p) w }

/-- A player that begins after the tick of the wave in progress gives its first sample at once, from the samples kept for
it: it is the row input of the next wave (R171). -/
def playFirst (s : State) (p : Nat) : State :=
  if s.wave.live && s.wave.count == s.wave.num then playLatch false false s p else s

/-- Bound players follow a change of the active levels in wave `a` (05 R171, R172, R173); one whose entry is not at the
running rate stays as it is (R170). -/
def playLevels (old new : BitVec 16) (s : State) : State :=
  let a := sampleNow s
  let begin_ := (List.range 64).filter fun p => match (tget {} s.plan.players p).bound with
    | some l => new.getLsbD l && !old.getLsbD l && entryPlays s (tget {} s.plan.players p).bEntry
    | none => false
  begin_.foldl playFirst <| s.onPlan fun q => { q with
    players := (List.range 64).foldl (fun t p =>
      let y := tget {} t p
      match y.bound with
      | some l =>
        if begin_.contains p then
          tput {} t p { y with
            st := 2, mode := y.bMode, entry := y.bEntry, loops := y.bLoops, pos := 0, startAt := a, byLevel := true
            kept := true }
        else if old.getLsbD l && !new.getLsbD l then
          if y.stopOnRel && y.st == 2 then tput {} t p { y with st := 3, stopAt := a + 96, byLevel := false }
          else tput {} t p { y with byLevel := false }
        else t
      | none => t) q.players }

/-- Every player stops at once (05 R173, R180). -/
def playStopAll (s : State) : State :=
  s.onPlan fun q => { q with
    players := (List.range 64).foldl (fun t p =>
      tmod {} t p fun y => { y with st := 0, word := 0, pos := 0, byLevel := false }) q.players }

/-- The rows that a player feeds directly (R153). -/
def playRows (s : State) (p : Nat) : List Nat :=
  match s.plan.run with
  | some i => (i.sources.filter fun r => r.src == playCode p).map (·.row)
  | none => []

/-- The player's row inputs are 0 in the wave in progress and from then on, what its row delays hold among them (05 R172). -/
def playSilence (p : Nat) (s : State) : State :=
  let rows := playRows s p
  let s := onPlayer p (fun q => { q with st := 0, word := 0, byLevel := false }) s
  s.onSig fun g => { g with
    srcCur := tput 0 g.srcCur (playCode p) 0
    latch := tput 0 g.latch (playCode p) 0
    rowCur := rows.foldl (fun t r => tput 0 t r 0) g.rowCur
    lines := rows.foldl (fun t r => tput [] t (0x50000000 + r) []) g.lines }

/-- PLAYER_BEGIN (R171): an armed player starts at its start wave. -/
def execPlayerBegin (p : Fin 64) (s : State) : Host.Outcome State Fault Refusal :=
  let q := tget {} s.plan.players p.val
  if q.st = 1 ∧ s.wave.live = true ∧ q.startAt.toNat ≤ s.wave.num.toNat then
    .next (playFirst (onPlayer p.val (fun q => { q with st := 2, pos := 0 }) s) p.val)
  else .next s

/-- PLAYER_STOP_EFFECT (R172): a stop takes effect at the message's first zero crossing, or 96 samples after. -/
def execPlayerStopEffect (p : Fin 64) (s : State) : Host.Outcome State Fault Refusal :=
  let q := tget {} s.plan.players p.val
  let row := match playRec s p.val with
    | some r => r.row
    | none => 0
  if q.st = 3 ∧ s.wave.live = true ∧ (crosses s row = true ∨ q.stopAt.toNat ≤ s.wave.num.toNat) then
    .next (playSilence p.val s)
  else .next s

/-- PLAYER_ENTRY_END (R172): at the end of its entry a player stops, loops or goes on by its mode. -/
def execPlayerEntryEnd (p : Fin 64) (s : State) : Host.Outcome State Fault Refusal :=
  let q := tget {} s.plan.players p.val
  if (q.st = 2 ∨ q.st = 3) ∧ libSamples s q.entry ≤ q.pos then
    if q.st = 2 ∧ q.mode = 2 then .next (onPlayer p.val (fun q => { q with pos := 0 }) s)
    else if q.st = 2 ∧ q.mode = 1 ∧ 1 < q.loops then
      .next (onPlayer p.val (fun q => { q with pos := 0, loops := q.loops - 1 }) s)
    else .next (onPlayer p.val (fun q => { q with st := 0, loops := 0, byLevel := false }) s)
  else .next s

end Sys2Proof.Machine
end

