-- ==== Sys2Proof/Machine/Log.lean ====
section
/-! DEFINITION. The event log and Kiosk 0 (11 R362 to R364; 14 R457). -/

namespace Sys2Proof.Machine

/-- The 32 bytes of a record (14 R457). -/
def recBytes (r : Rec) : List Byte :=
  le 4 r.seq.toNat ++ le 8 r.sample.toNat ++ le 2 r.ssrc ++ le 1 r.cls ++ le 1 r.flags.toNat ++ le 4 r.obj.toNat
    ++ le 8 r.data.toNat ++ le 2 r.repeats.toNat ++ le 2 r.epoch.toNat

/-- The record of a report, `n` reports merged (14 R451, R457). -/
def mkRec (r : Rep) (cls n : Nat) (s : State) : Rec where
  sample := r.sample
  ssrc := r.src
  cls := cls
  flags := BitVec.ofNat 8 (b2n r.injected + 2 * b2n r.reRaised + 4 * b2n r.ended + 8 * b2n s.wave.counterValid)
  obj := BitVec.ofNat 32 r.obj
  data := r.data
  repeats := BitVec.ofNat 16 (min n 0xFFFF)
  epoch := s.plan.epoch.truncate 16

/-- Messages that Kiosk 0 holds (R362). -/
def k0Held (s : State) : Nat := s.host.k0.length + if (tget {} s.host.kiosks 0).st = 3 then 1 else 0

/-- The class of a record is posted on Kiosk 0: bit 4 EVENTS for records without a fault class (R362, R366). -/
def classOn (s : State) (cls : Nat) : Bool := if cls = 0 then s.host.classes.getLsbD 4 else s.host.classes.getLsbD (cls - 1)

/-- A record waits for Kiosk 0, or is dropped and counted when 256 messages are held (R362). -/
def k0Queue (r : Rec) (s : State) : State :=
  if classOn s r.cls then
    if k0Held s < 256 then s.onHost fun h => { h with k0 := h.k0 ++ [r] }
    else s.onHost fun h => { h with k0drops := satAdd h.k0drops 1 }
  else s

/-- A record is written to its slot of the log; the record it overwrites is lost if the host has not released it (R363,
R364). -/
def logPut (r : Rec) (s : State) : State :=
  let q := s.host.head
  let slot := q.toNat % 4096
  let lost := (tget none s.host.log slot).isSome && decide ((q - 4096 - s.host.mark).toNat < 2 ^ 31)
  let s := s.onHost fun h => { h with
    log := tput none h.log slot (some { r with seq := q })
    head := q + 1 }
  if lost then
    sendMsi 37 (setIrq 25 (s.onHost fun h => { h with
      lost := satAdd h.lost 1
      lostTotal := satAdd h.lostTotal 1
      mark := q - 4095 }))
  else s

/-- A record is logged, and posted on Kiosk 0 when its class is enabled (R362, 14 R448). -/
def logRec (r : Rec) (s : State) : State := k0Queue { r with seq := s.host.head } (logPut r s)

/-- The message of a record on Kiosk 0 (R362). -/
def k0Message (r : Rec) (s : State) : List Byte :=
  respHeader 0x00F0 (r.seq.toNat % 65536) 32 s.plan.epoch 0 0 ++ recBytes r

/-- Kiosk 0 shows a message (R362). -/
def k0Show (r : Rec) (s : State) : State :=
  kioskIrq 0 (onKiosk 0 (fun k => { k with
    respBuf := bufPut k.respBuf (k0Message r s)
    st := 3
    tagDone := r.seq.truncate 16 }) s)

/-- KIOSK0_EVENT_POST (R362): in READY the next pending message is posted on Kiosk 0. -/
def execKiosk0EventPost (s : State) : Host.Outcome State Fault Refusal :=
  let k := tget {} s.host.kiosks 0
  if s.host.fwState = 5 ∧ k.st ≠ 3 then
    match s.host.k0 with
    | r :: t => .next (k0Show r (s.onHost fun h => { h with k0 := t }))
    | [] => .next s
  else .next s

/-- KIOSK0_ACK (R362): RING on Kiosk 0 acknowledges the message; while it is IDLE it is a command, which is never executed
and returns WRONG_KIOSK. Ignored unless STATE is READY (R355). -/
def execKiosk0Ack (s : State) : Host.Outcome State Fault Refusal :=
  let k := tget {} s.host.kiosks 0
  if s.host.fwState = 5 then
    if k.st = 3 then .next (onKiosk 0 (fun k => { k with st := 0 }) s)
    else
      let code := fld (bufBytes k.reqBuf 256) 0 2
      let tag := fld (bufBytes k.reqBuf 256) 2 2
      .next (kioskIrq 0 (onKiosk 0 (fun k => { k with
        respBuf := bufPut k.respBuf (respHeader code tag 0 s.plan.epoch 0x0008 0)
        st := 2
        tagDone := BitVec.ofNat 16 tag }) (s.onHost fun h => { h with rejected := satAdd h.rejected 1 })))
  else .next s

end Sys2Proof.Machine
end

