-- ==== Sys2Proof/Machine/Bus.lean ====
section
/-! DEFINITION. What masters of the bus matrix see (12 R378 to R387), and the gates that a command opens (13 R414, R416). -/

namespace Sys2Proof.Machine

/-! ### Port words (01 R29, R30) -/

/-- A `w`-bit two's-complement code entered left-justified below 2^31 (01 R29). -/
def portIn (w v : Nat) : W36 := BitVec.ofInt 36 (sgn w v * 2 ^ (32 - w))

/-- A Z36 word narrowed to a port word of `w` bits (01 R30). -/
def portOut (w : Nat) (z : W36) : Nat :=
  unsgn w (satInt w (roundEven z.toInt (2 ^ (32 - w))))

/-! ### Error responses (12 R387) -/

/-- An error response to master `m`: sticky bit, the first one captured, and one NOTE per millisecond and master. -/
def busErr (m : Nat) (data : Bool) (a : Nat) (wr : Bool) (id : BitVec 8) (s : State) : State :=
  let key := 2 * m + b2n data
  let due := match tget none s.mat.toldAt key with
    | some t => decide (t + 1000 ≤ s.clk.now)
    | none => true
  let s := s.onMat fun x => { x with
    dataErr := x.dataErr || data
    decErr := x.decErr || !data
    toldAt := if due then tput none x.toldAt key (some s.clk.now) else x.toldAt }
  let s := if s.mat.errValid then s else s.onMat fun x => { x with
    errValid := true
    errAddr := BitVec.ofNat 40 a
    errMaster := BitVec.ofNat 3 m
    errId := id
    errResp := if data then 2 else 1
    errWrite := wr }
  if due then raise (if data then 0x1002 else 0x1001) m (BitVec.ofNat 64 (a % 2 ^ 40)) s else s

/-! ### Addresses (12 R379, R380, R398) -/

/-- The range lies in the working SRAM. -/
def inSram (a n : Nat) : Bool := decide (0x10000000 ≤ a ∧ a + n ≤ 0x10400000)

/-- The range lies in usable LPDDR5 that is ready and not gated (R389). -/
def inDdr (s : State) (a n : Nat) : Bool :=
  decide (ddrBase ≤ a ∧ a + n ≤ ddrBase + ddrUsable s ∧ s.mat.ddrState = 2 ∧ s.clk.gates.getLsbD 13 = true)

/-- The range lies in the PCIe outbound window. -/
def inOb (a n : Nat) : Bool := decide (0x8000000000 ≤ a ∧ a + n ≤ 0x10000000000)

/-- Network DMA reaches the range (12 R378): SRAM, LPDDR5, or host memory while the PCIe link is up. -/
def dmaOk (s : State) (a n : Nat) : Bool := inSram a n || inDdr s a n || (inOb a n && s.mat.pcie)

/-- Where a byte lies: host memory stands beyond the 40-bit space, by its host address (12 R380). -/
def dmaKey (s : State) (a : Nat) : Nat :=
  if 0x8000000000 ≤ a then 2 ^ 40 + (s.mat.obBase.toNat + (a - 0x8000000000)) % 2 ^ 64 else a

/-- `n` bytes that network DMA reads from address `a` on. -/
def dmaRead (s : State) (a n : Nat) : List Byte := (List.range n).map fun i => memByte s.mat.mem (dmaKey s (a + i))

/-- Memory with the bytes `b` that a master writes from address `a` on. -/
def dmaPut (s : State) (a : Nat) (b : List Byte) : List Host.Cell :=
  (List.range b.length).foldl (fun m i => memPut m (dmaKey s (a + i)) (byteAt b i)) s.mat.mem

/-- The range touches the library region, which LPDDR5 lets only a session's channel and the module write (15 R477). -/
def inLib (s : State) (a n : Nat) : Bool := decide (libBase s < a + n ∧ a < libBase s + libSize s ∧ 0 < n)

/-- A write that the library region has refused is marked. -/
def libRefused (s : State) : State := s.onSm fun m => { m with libDenied := true }

/-- Network DMA writes the bytes `b`; a write into the library region is refused. -/
def dmaWrite (a : Nat) (b : List Byte) (s : State) : State :=
  if inLib s a b.length then libRefused s else s.onMat fun x => { x with mem := dmaPut s a b }

/-! ### Gates (13 R414, R416) -/

/-- The parent of a gate. -/
def gateParent (g : Nat) : Option Nat :=
  if 1 ≤ g ∧ g ≤ 6 then some 0 else if (8 ≤ g ∧ g ≤ 12) ∨ g = 14 then some 7 else none

/-- A gate opens, its closed parent first. -/
def openGate (g : Nat) (s : State) : State :=
  let m := 2 ^ g + match gateParent g with
    | some p => 2 ^ p
    | none => 0
  s.onClk fun c => { c with gates := c.gates ||| BitVec.ofNat 16 m }

/-- The owner of a group drives it (13 R427). -/
def drivePin (g : Nat) (s : State) : State := s.onClk fun c => { c with pinNow := tput 0 c.pinNow g 0 }

/-- A gate is open. -/
def gateOpen (s : State) (g : Nat) : Bool := s.clk.gates.getLsbD g

/-- The transaction goes to or from the port of a gated block (12 R389): LPDDR5, network DMA, debug. -/
def txGate (tx : BusTx) (g : Nat) : Bool :=
  if g = 13 then decide (ddrBase ≤ tx.addr.toNat ∧ tx.addr.toNat < 0x0800000000)
  else if 7 ≤ g ∧ g ≤ 12 then tx.master == 4
  else g == 15 && tx.master == 7

end Sys2Proof.Machine
end

