-- ==== Sys2Proof/Machine/LineCode.lean ====
section
/-! DEFINITION. The line code of the drive links (07 R220): the 8b/10b code-groups and running disparity of IEEE 802.3
Clause 36, whose tables stand here (log entry 158). A code-group is written abcdei fghj, bit a first; a running disparity is
negative (false) or positive (true). -/

namespace Sys2Proof.Machine

/-- abcdei of D0 to D31 at negative running disparity. -/
def sixCodes : List Nat :=
  [0b100111, 0b011101, 0b101101, 0b110001, 0b110101, 0b101001, 0b011001, 0b111000,
   0b111001, 0b100101, 0b010101, 0b110100, 0b001101, 0b101100, 0b011100, 0b010111,
   0b011011, 0b100011, 0b010011, 0b110010, 0b001011, 0b101010, 0b011010, 0b111010,
   0b110011, 0b100110, 0b010110, 0b110110, 0b001110, 0b101110, 0b011110, 0b101011]

/-- fghj of Dx.0 to Dx.7 at negative running disparity. -/
def fourCodes : List Nat := [0b1011, 0b1001, 0b0101, 0b1100, 0b1101, 0b1010, 0b0110, 0b1110]

/-- Ones among the low `w` bits. -/
def onesIn (w v : Nat) : Nat := (List.range w).foldl (fun n k => n + v / 2 ^ k % 2) 0

/-- A sub-block of `w` bits at a running disparity: at positive disparity an unbalanced one is inverted, and so is a balanced
one that alternates. -/
def subBlock (w code : Nat) (alternates rd : Bool) : Nat :=
  if rd && (alternates || onesIn w code != w / 2) then 2 ^ w - 1 - code else code

/-- The running disparity after a sub-block: an unbalanced one turns it. -/
def rdAfter (w code : Nat) (rd : Bool) : Bool := rd != (onesIn w code != w / 2)

/-- The code-group of a data byte, and the running disparity after it. Dx.7 takes its alternate form where the primary one
would make a run of five. -/
def dataGroup (rd : Bool) (b : Byte) : BitVec 10 × Bool :=
  let x := b.toNat % 32
  let y := b.toNat / 32
  let six := subBlock 6 (sixCodes.getD x 0) (x == 7) rd
  let rd1 := rdAfter 6 six rd
  let alt := y == 7 && (if rd1 then [11, 13, 14] else [17, 18, 20]).contains x
  let four := subBlock 4 (if alt then 0b0111 else fourCodes.getD y 0) (y == 3) rd1
  (BitVec.ofNat 10 (16 * six + four), rdAfter 4 four rd1)

/-- K28.5, the comma: it turns the running disparity. -/
def commaGroup (rd : Bool) : BitVec 10 × Bool := (if rd then 0b1100000101#10 else 0b0011111010#10, !rd)

/-- D16.2, the fill character. -/
def fillByte : Byte := 0x50

/-- The bytes at positions 1 to 255 of a frame whose data fields are `f` (R220). -/
def linePayload (f : List Byte) : List Byte := (f ++ List.replicate 255 fillByte).take 255

/-- The 256 code-groups of a frame sent at a running disparity: the comma at position 0, the data fields, and fill. -/
def lineGroups (rd : Bool) (f : List Byte) : List (BitVec 10) :=
  let k := commaGroup rd
  ((linePayload f).foldl (fun p b =>
    let g := dataGroup p.2 b
    (g.1 :: p.1, g.2)) ([k.1], k.2)).1.reverse

/-- The running disparity after such a frame. -/
def lineRd (rd : Bool) (f : List Byte) : Bool :=
  (linePayload f).foldl (fun rd b => (dataGroup rd b).2) (commaGroup rd).2

end Sys2Proof.Machine
end

