-- ==== Sys2Proof/Machine/Flags.lean ====
section
/-! DEFINITION. The results and flags of lane arithmetic (03 R93 to R96; 04 R128, R129, R133, R134, R140). -/

namespace Sys2Proof.Machine

/-- The result of an operation on D registers: the word, which flags it changes (N Z V C in bits 3 to 0), their values,
and whether SAT is set. -/
structure AluRes where
  /-- Word written. -/
  val : W36
  /-- Flags changed. -/
  mask : BitVec 4 := 0
  /-- Their values. -/
  flags : BitVec 4 := 0
  /-- SAT is set. -/
  sat : Bool := false
deriving DecidableEq, Repr

/-- N, Z, V, C as four bits. -/
def nzvc (n z v c : Bool) : BitVec 4 := BitVec.ofBool n ++ BitVec.ofBool z ++ BitVec.ofBool v ++ BitVec.ofBool c

/-- A result that sets N, Z, V and C. -/
def resNzvc (val : W36) (v c sat : Bool) : AluRes :=
  { val := val, mask := 0b1111, flags := nzvc val.msb (val == 0) v c, sat := sat }

/-- A result that sets N, Z and V and leaves C. -/
def resNzv (val : W36) (v sat : Bool) : AluRes :=
  { val := val, mask := 0b1110, flags := nzvc val.msb (val == 0) v false, sat := sat }

/-- The exact value fits 36 bits. -/
def fits36 (x : Int) : Bool := decide (satInt 36 x = x)

/-- sat36 of an exact value. -/
def sat36 (x : Int) : W36 := BitVec.ofInt 36 (satInt 36 x)

/-- ADD: wrapping sum, signed overflow, carry out of bit 35. -/
def aluAdd (a b : W36) : AluRes :=
  resNzvc (a + b) (!fits36 (a.toInt + b.toInt)) (decide (2 ^ 36 ≤ a.toNat + b.toNat)) false

/-- ADDS: saturating sum; C is the carry of the unsaturated sum. -/
def aluAdds (a b : W36) : AluRes :=
  let x := a.toInt + b.toInt
  resNzvc (sat36 x) (!fits36 x) (decide (2 ^ 36 ≤ a.toNat + b.toNat)) (!fits36 x)

/-- SUB: wrapping difference, signed overflow, borrow. -/
def aluSub (a b : W36) : AluRes :=
  resNzvc (a - b) (!fits36 (a.toInt - b.toInt)) (decide (a.toNat < b.toNat)) false

/-- SUBS: saturating difference. -/
def aluSubs (a b : W36) : AluRes :=
  let x := a.toInt - b.toInt
  resNzvc (sat36 x) (!fits36 x) (decide (a.toNat < b.toNat)) (!fits36 x)

/-- The most negative word. -/
def minWord : W36 := BitVec.ofInt 36 (-(2 ^ 35))

/-- NEG: wrapping negate. -/
def aluNeg (a : W36) : AluRes := resNzv (-a) (a == minWord) false

/-- NEGS: saturating negate. -/
def aluNegs (a : W36) : AluRes := resNzv (sat36 (-a.toInt)) (a == minWord) (!fits36 (-a.toInt))

/-- ABS: saturating absolute value. -/
def aluAbs (a : W36) : AluRes := resNzv (sat36 a.toInt.natAbs) (a == minWord) (!fits36 a.toInt.natAbs)

/-- A logic or move result: N and Z from the word, V cleared, C kept. -/
def aluLogic (v : W36) : AluRes := resNzv v false false

/-- The shift amount of a source: bits [6:0] in two's complement, held within ±36 (R134). -/
def shiftAmt (b : BitVec 7) : Int := max (-36) (min b.toInt 36)

/-- ASH: left saturating, right rounded half to even. -/
def aluAsh (a : W36) (sh : BitVec 7) : AluRes :=
  let n := shiftAmt sh
  if 0 ≤ n then
    let x := a.toInt * 2 ^ n.toNat
    resNzv (sat36 x) (!fits36 x) (!fits36 x)
  else resNzv (BitVec.ofInt 36 (roundEven a.toInt (2 ^ (-n).toNat))) false false

/-- LSH: a bit pattern shifted, vacated bits 0. -/
def aluLsh (a : W36) (sh : BitVec 7) : AluRes :=
  let n := shiftAmt sh
  aluLogic (if 0 ≤ n then a <<< n.toNat else a >>> (-n).toNat)

/-- MIN and MAX: signed. -/
def aluMin (a b : W36) : AluRes := aluLogic (if a.toInt ≤ b.toInt then a else b)

/-- The larger of two words. -/
def aluMax (a b : W36) : AluRes := aluLogic (if a.toInt ≤ b.toInt then b else a)

/-- MULF: fractional product, rounded and saturated. -/
def aluMulf (a b : W36) : AluRes :=
  let x := roundEven (a.toInt * b.toInt * 8) (2 ^ 36)
  resNzv (sat36 x) (!fits36 x) (!fits36 x)

/-- MULI: integer product, saturated. -/
def aluMuli (a b : W36) : AluRes :=
  let x := a.toInt * b.toInt
  resNzv (sat36 x) (!fits36 x) (!fits36 x)

/-- The product in one of the two alignments (R93). -/
def product80 (frac : Bool) (a b : W36) : Int := if frac then a.toInt * b.toInt * 8 else a.toInt * b.toInt

/-- An exact sum narrowed into an accumulator: the value held, and whether it left the range (R94). -/
def guard80 (x : Int) : BitVec 80 × Bool := (BitVec.ofInt 80 (satInt 80 x), decide (satInt 80 x ≠ x))

/-- The high field of an accumulator, rounded and saturated (R95). -/
def highField (a : BitVec 80) : W36 × Bool :=
  let x := roundEven a.toInt (2 ^ 36)
  (sat36 x, !fits36 x)

/-- Sticky bit SAT of LST (03 R103). -/
def stSat : W36 := 0x400

/-- Sticky bits GV and GVAC[k] of LST (03 R94, R103). -/
def stGv (k : BitVec 2) : W36 := 0x200 ||| (0x10 <<< k.toNat)

/-- A condition against LST (R129); 0xF is reserved and never taken. -/
def condTrue (lst : W36) (c : BitVec 4) : Bool :=
  let n := lst.getLsbD 3
  let z := lst.getLsbD 2
  let v := lst.getLsbD 1
  let cy := lst.getLsbD 0
  match c.toNat with
  | 0 => true
  | 1 => z
  | 2 => !z
  | 3 => n != v
  | 4 => n == v
  | 5 => z || n != v
  | 6 => !z && n == v
  | 7 => n
  | 8 => !n
  | 9 => v
  | 10 => !v
  | 11 => cy
  | 12 => !cy
  | 13 => lst.getLsbD 9
  | 14 => lst.getLsbD 10
  | _ => false

end Sys2Proof.Machine
end

