-- ==== Sys2Proof/Machine/LaneSos.lean ====
section
/-! DEFINITION. The second-order-section unit of a Lane: one section, a chain of sections, and the groups of its queue as far
as they have run by a slot (03 R111 to R118; 05 R166). -/

namespace Sys2Proof.Machine

/-- One section on one sample (03 R113): the output, whether it saturated, and the section's new state. -/
def sectionStep (k : Section) (x : W36) : W36 × Bool × Section :=
  let sum := k.b0.toInt * x.toInt + k.b1.toInt * k.x1.toInt + k.b2.toInt * k.x2.toInt
    - k.a1.toInt * k.y1.toInt - k.a2.toInt * k.y2.toInt
  let v := roundEven sum (2 ^ 33)
  let y := sat36 v
  (y, !fits36 v, { k with x2 := k.x1, x1 := x, y2 := k.y1, y1 := y })

/-- A crossfade of `f` samples in its sample `n`, from `a` to `b` (05 R166). -/
def crossfade (n f : Nat) (a b : W36) : W36 :=
  if f ≤ n then b
  else
    let g := roundEven (n * 2 ^ 33) f
    BitVec.ofInt 36 (roundEven (b.toInt * g + a.toInt * (2 ^ 33 - g)) (2 ^ 33))

/-- The chains of a group, in chain-table order. -/
def groupChains (l : LaneS) (g : BitVec 3) : List Chain :=
  (l.cur.chain.filterMap (·.2)).filter fun c => c.group == g.toNat

/-- Accounted slots of a group: 39 per section (03 R111, R118). -/
def groupSlots (l : LaneS) (g : BitVec 3) : Nat := 39 * ((groupChains l g).map (·.count)).sum

/-- The slot in which the group at the front of the queue is complete at the latest (03 R118). -/
def groupBound (l : LaneS) (g : BitVec 3) (t0 : Nat) : Nat := max t0 l.sosDone + groupSlots l g

/-- The unit at the start of a chain: the chain's input word is read (03 R116). -/
def sosLoad (l : LaneS) (n : Nat) (cs : List Chain) : SosRun :=
  let x := match cs with
    | c :: _ => tget 0 l.cur.x (0x80 + c.inp)
    | [] => 0
  { chains := cs, k := 0, n := n, x := x, x2 := x }

/-- A section output saturates: SOSSAT becomes visible in the slot after the section's completion (03 R96). -/
def sosSat (b : Nat) (sat : Bool) (l : LaneS) : LaneS :=
  if sat then { l with pend := l.pend ++ [{ vis := b + 1, shad := false, w := .sticky 0x800 }] } else l

/-- The output word of a chain is written into the SOS window (03 R113, R116); during a fade the old set's output and the
new set's crossfade (05 R166). -/
def sosOut (c : Chain) (y y2 : W36) (l : LaneS) : LaneS :=
  let v := match l.fade with
    | some (n, f) => crossfade (n + 1) f y y2
    | none => y
  { l with cur := { l.cur with x := tput 0 l.cur.x (0x80 + c.out) v } }

/-- The next section of the running group completes in slot `b` (03 R113, R116). During a fade the new set runs beside the
old one (05 R166). -/
def sosSection (b : Nat) (r : SosRun) (l : LaneS) : LaneS :=
  match r.chains with
  | [] => l
  | c :: cs =>
    let i := c.first + r.k
    let a := sectionStep (tget {} l.cur.sec i) r.x
    let l := sosSat b a.2.1 { l with cur := { l.cur with sec := tput {} l.cur.sec i a.2.2 } }
    let q := sectionStep (tget {} l.cur.sec2 i) r.x2
    let l := if l.fade.isSome then
        sosSat b q.2.1 { l with cur := { l.cur with sec2 := tput {} l.cur.sec2 i q.2.2 } } else l
    if r.k + 1 < c.count then
      { l with sosRun := some { r with k := r.k + 1, n := r.n + 1, x := a.1, x2 := q.1 } }
    else
      let l := sosOut c a.1 q.1 l
      { l with sosRun := some (sosLoad l (r.n + 1) cs) }

/-- The group at the front of the queue is complete in slot `b`. -/
def sosEnd (b : Nat) (g : BitVec 3) (t0 : Nat) (rest : List (BitVec 3 × Nat)) (l : LaneS) : LaneS :=
  { l with
    sosQ := rest
    sosRun := none
    sosDone := groupBound l g t0
    sosFree := b
    sosWait := if l.sosWait = some g then none else l.sosWait }

/-- What the unit has done at the latest by slot `t` (03 R116, R118): a group starts in the slot after its SOSRUN, or when the
group before it is complete, and each section completes in its accounted slot. `n` bounds the parts that run. -/
def sosAdvance (t : Nat) : Nat → LaneS → LaneS
  | 0, l => l
  | n + 1, l =>
    match l.sosQ with
    | [] => l
    | (g, t0) :: rest =>
      match l.sosRun with
      | none =>
        if max (t0 + 1) l.sosFree ≤ t then sosAdvance t n { l with sosRun := some (sosLoad l 0 (groupChains l g)) }
        else l
      | some r =>
        if r.chains.isEmpty then sosAdvance t n (sosEnd (max (max (t0 + 1) l.sosFree) (groupBound l g t0)) g t0 rest l)
        else
          let due := max t0 l.sosDone + 39 * (r.n + 1)
          if due ≤ t then sosAdvance t n (sosSection due r l) else l

/-- The sections of the running group that are left complete in slot `b`; `n` bounds them. -/
def sosSections (b : Nat) : Nat → LaneS → LaneS
  | 0, l => l
  | n + 1, l =>
    match l.sosRun with
    | some r => if r.chains.isEmpty then l else sosSections b n (sosSection b r l)
    | none => l

/-- The group at the front of the queue completes in slot `b`, all its sections with it (03 R113, R116). -/
def sosFinish (b : Nat) (g : BitVec 3) (t0 : Nat) (rest : List (BitVec 3 × Nat)) (l : LaneS) : LaneS :=
  let l := match l.sosRun with
    | some _ => l
    | none => { l with sosRun := some (sosLoad l 0 (groupChains l g)) }
  sosEnd b g t0 rest (sosSections b (groupSlots l g + 1) l)

end Sys2Proof.Machine
end

