-- ==== Sys2Proof/Machine/Lane.lean ====
section
/-! DEFINITION. A Lane between two slots: results in flight, flow of control, loops, events, and the issue of one
instruction (03 R82 to R110; 04 R122 to R149). -/

namespace Sys2Proof.Machine

/-- The active bank's registers. -/
def bankOf (c : LaneCtx) (sh : Bool) : Bank := if sh then c.shad else c.main

/-- A change of one bank. -/
def onBank (sh : Bool) (f : Bank → Bank) (c : LaneCtx) : LaneCtx :=
  if sh then { c with shad := f c.shad } else { c with main := f c.main }

/-- A D register of the active bank. -/
def rdD (l : LaneS) (r : BitVec 4) : W36 := tget 0 (bankOf l.cur l.shadow).d r.toNat

/-- An accumulator of the active bank. -/
def rdAc (l : LaneS) (r : BitVec 2) : BitVec 80 := tget 0 (bankOf l.cur l.shadow).ac r.toNat

/-- A pointer: PT0 to PT3 are banked, PT4 to PT7 are shared (R91). -/
def rdPt (l : LaneS) (k : BitVec 3) : BitVec 13 :=
  if k.toNat < 4 then tget 0 (bankOf l.cur l.shadow).pt k.toNat else tget 0 l.cur.pt k.toNat

/-- A base register. -/
def rdBs (l : LaneS) (k : BitVec 3) : BitVec 13 :=
  if k.toNat < 4 then tget 0 (bankOf l.cur l.shadow).bs k.toNat else tget 0 l.cur.bs k.toNat

/-- A length register. -/
def rdLn (l : LaneS) (k : BitVec 3) : BitVec 14 :=
  if k.toNat < 4 then tget 0 (bankOf l.cur l.shadow).ln k.toNat else tget 0 l.cur.ln k.toNat

/-- A step register. -/
def rdDt (l : LaneS) (k : BitVec 3) : BitVec 14 :=
  if k.toNat < 4 then tget 0 (bankOf l.cur l.shadow).dt k.toNat else tget 0 l.cur.dt k.toNat

/-- LST as a read returns it: PEND, BANK, EVSRC and SOSBUSY from their own places (R103). -/
def lstRead (l : LaneS) : W36 :=
  (l.cur.lst &&& 0xEFF) ||| (l.evPend.zeroExtend 36 <<< 16) ||| ((BitVec.ofBool l.shadow).zeroExtend 36 <<< 15)
    ||| (l.evSrc.zeroExtend 36 <<< 13) ||| ((BitVec.ofBool (l.sosQ != [])).zeroExtend 36 <<< 12)

/-- One write reaches its register, in the bank of the instruction that issued it (R97, R109, 04 R142). -/
def applyWr (sh : Bool) (w : LaneWr) (l : LaneS) : LaneS :=
  let cur (f : LaneCtx → LaneCtx) : LaneS := { l with cur := f l.cur }
  match w with
  | .nothing => l
  | .d r v => cur (onBank sh fun b => { b with d := tput 0 b.d r.toNat v })
  | .ac r v => cur (onBank sh fun b => { b with ac := tput 0 b.ac r.toNat v })
  | .pt r v =>
    if r.toNat < 4 then cur (onBank sh fun b => { b with pt := tput 0 b.pt r.toNat v })
    else cur fun c => { c with pt := tput 0 c.pt r.toNat v }
  | .bs r v =>
    if r.toNat < 4 then cur (onBank sh fun b => { b with bs := tput 0 b.bs r.toNat v })
    else cur fun c => { c with bs := tput 0 c.bs r.toNat v }
  | .ln r v =>
    if r.toNat < 4 then cur (onBank sh fun b => { b with ln := tput 0 b.ln r.toNat v })
    else cur fun c => { c with ln := tput 0 c.ln r.toNat v }
  | .dt r v =>
    if r.toNat < 4 then cur (onBank sh fun b => { b with dt := tput 0 b.dt r.toNat v })
    else cur fun c => { c with dt := tput 0 c.dt r.toNat v }
  | .flags m v => cur fun c =>
      { c with lst := (c.lst &&& ~~~ m.zeroExtend 36) ||| (v &&& m).zeroExtend 36 }
  | .sticky b => cur fun c => { c with lst := c.lst ||| b }
  | .lst v => cur fun c => { c with lst := ((c.lst &&& ~~~ 0xF) &&& ~~~ (v &&& 0xEF0)) ||| (v &&& 0xF) }
  | .lctl v =>
    { l with
      cur := { l.cur with lctl := v &&& 0x3FFF0701 }
      evPend := l.evPend &&& (v >>> 8).truncate 3 }
  | .epc v => cur fun c => { c with epc := v }

/-- Results in flight that slot `t` sees reach their registers in order of issue (R97, R99). -/
def settleTo (t : Nat) (l : LaneS) : LaneS :=
  let due := l.pend.filter fun p => decide (p.vis ≤ t)
  due.foldl (fun l p => applyWr p.shad p.w l) { l with pend := l.pend.filter fun p => !decide (p.vis ≤ t) }

/-- Every result in flight reaches its register (04 R130). -/
def settleAll (l : LaneS) : LaneS := l.pend.foldl (fun l p => applyWr p.shad p.w l) { l with pend := [] }

/-- A result of the instruction in the present slot, visible `n` slots later. -/
def push (n : Nat) (w : LaneWr) (l : LaneS) : LaneS :=
  { l with pend := l.pend ++ [{ vis := l.slot + n, shad := l.shadow, w := w }] }

/-- GV of LST. -/
def gvSet (l : LaneS) : Bool := l.cur.lst.getLsbD 9

/-! ### Addresses (R92, R101; 04 R126, R127) -/

/-- Words of a memory. -/
def memSize : LaneMem → Nat
  | .p => 4096
  | _ => 8192

/-- The pointer after a post-step by `m`, in a memory of `size` words (R101). -/
def stepPtr (l : LaneS) (k : BitVec 3) (m : Int) (size : Nat) : BitVec 13 :=
  let pt : Int := (rdPt l k).toNat
  let bs : Int := (rdBs l k).toNat
  let ln : Int := (rdLn l k).toNat
  if ln = 0 then BitVec.ofInt 13 ((pt + m) % size)
  else BitVec.ofInt 13 ((bs + (pt - bs + m) % ln) % size)

/-- A word of a Lane memory; the address is taken modulo its size (R92). -/
def laneRd (l : LaneS) (m : LaneMem) (a : Nat) : W36 :=
  match m with
  | .x => tget 0 l.cur.x (a % 8192)
  | .y => tget 0 l.cur.y (a % 8192)
  | .p => tget 0 l.cur.p (a % 4096)

/-- A program's write to X: the IN window is read only (R83). -/
def laneWrX (a : Nat) (v : W36) (l : LaneS) : LaneS :=
  if a % 8192 < 64 then l else { l with cur := { l.cur with x := tput 0 l.cur.x (a % 8192) v } }

/-- A program's write to Y. -/
def laneWrY (a : Nat) (v : W36) (l : LaneS) : LaneS :=
  { l with cur := { l.cur with y := tput 0 l.cur.y (a % 8192) v } }

/-! ### Flow of control -/

/-- What the issued instruction does to the flow. -/
inductive Flow where
  /-- The next instruction follows. -/
  | seq
  /-- A branch, with its target when it is taken: the delay slot follows. -/
  | branch (target : Option (BitVec 12))
  /-- A return from an event: the delay slot follows. -/
  | rete
  /-- A loop that starts or is skipped: the flow goes to an address at once. -/
  | goto (a : BitVec 12)
  /-- The program's wave ends. -/
  | halt
  /-- A loop stack overflows: the block stops. -/
  | stop
deriving DecidableEq, Repr

/-- The outcome of one issued instruction. -/
structure Issued where
  /-- The Lane with the instruction's results pushed and its stores made. -/
  lane : LaneS
  /-- Slots. -/
  cost : Nat := 1
  /-- Flow. -/
  flow : Flow := .seq
  /-- A lane NOTE: cause and source code. -/
  note : Option (Nat × Nat) := none
deriving Repr

/-- The active bank's loop stack, top first. -/
def loopsOf (l : LaneS) : List LoopE := (bankOf l.cur l.shadow).loops

/-- The Lane with another loop stack in the active bank. -/
def setLoops (t : List LoopE) (l : LaneS) : LaneS :=
  { l with cur := onBank l.shadow (fun b => { b with loops := t }) l.cur }

/-- The entries left, and the address to fetch next, after the instruction at `a` has issued (04 R146). -/
def loopTest (a : BitVec 12) : List LoopE → List LoopE × Option (BitVec 12)
  | [] => ([], none)
  | e :: t =>
    if e.last = a then
      if 1 < e.count.toNat then ({ e with count := e.count - 1 } :: t, some e.first) else loopTest a t
    else (e :: t, none)

/-- The repeat cache when the flow goes back to the start of a body (R89, R110). -/
def cacheBack (first : BitVec 12) (l : LaneS) : LaneS :=
  match l.cache with
  | some (f, e, n) => if f = first then { l with cache := some (f, e, min (n + 1) 2) } else l
  | none => l

/-- The body in the cache is dropped when its loop has ended. -/
def cacheDrop (l : LaneS) : LaneS :=
  match l.cache with
  | some (f, e, _) => if (loopsOf l).any (fun q => q.first == f && q.last == e) then l else { l with cache := none }
  | none => l

/-- The instruction at the PC is fetched from the repeat cache. -/
def fromCache (l : LaneS) : Bool :=
  match l.cache with
  | some (f, e, n) => n == 2 && decide (f.toNat ≤ l.pc.toNat ∧ l.pc.toNat ≤ e.toNat)
  | none => false

/-- Slots of a P-data read (R90). -/
def pCost (l : LaneS) : Nat := if fromCache l then 1 else 2

/-- An active loop of the active bank ends at the PC (04 R148). -/
def atLoopEnd (l : LaneS) : Bool := (loopsOf l).any fun e => e.last == l.pc

/-- The flow after an instruction in the slot `l.slot` at `l.pc` (R97, R100, R108; 04 R124, R143, R146). -/
def advance (o : Issued) : LaneS :=
  let l := { o.lane with slot := o.lane.slot + o.cost }
  let a := l.pc
  let along (l : LaneS) : LaneS :=
    match loopTest a (loopsOf l) with
    | (t, some f) => cacheDrop (cacheBack f { setLoops t l with pc := f })
    | (t, none) => cacheDrop { setLoops t l with pc := a + 1 }
  match l.delay with
  | .branch (some t) => { l with pc := t, delay := .none }
  | .branch none => along { l with delay := .none }
  | .rete =>
    let l := { l with delay := .none, shadow := false, evSrc := 0, cache := l.cacheSave, cacheSave := none }
    let epc := (settleTo l.slot l).cur.epc
    if l.haltWait then
      if epc = l.haltAt then { l with pc := epc, phase := .halting } else { l with pc := epc, haltWait := false }
    else { l with pc := epc }
  | .none =>
    match o.flow with
    | .seq => along l
    | .branch t => { l with pc := a + 1, delay := .branch t }
    | .rete => { l with pc := a + 1, delay := .rete }
    | .goto t => { l with pc := t }
    | .halt => { l with phase := .halting, haltAt := a, haltWait := true }
    | .stop => l

/-! ### Lanes of the state -/

/-- A change of one Lane. -/
def onLane (key : Nat) (f : LaneS → LaneS) (s : State) : State := { s with lanes := tmod {} s.lanes key f }

/-- The Lane of a key. -/
def laneAt (s : State) (key : Nat) : LaneS := tget {} s.lanes key

/-- The WORK code of a Lane key; a second site stands at 0x10000 above it. -/
def workOf (key : Nat) : Nat := key % 65536

/-- The block id of a Lane key (06 R214). -/
def blockOf (key : Nat) : Nat := key % 4096

/-- The lane budget (00 R3, 03 R119). -/
def laneBudget (s : State) : Nat :=
  match s.wave.rate with
  | some .r48 => 15000
  | some .r192 => 3750
  | _ => 7500

/-- A lane NOTE, once per block load and cause (04 R123, R130, R131, R145, R148; 03 R100); cause 0 at every time
(03 R115). -/
def laneNote (key cause code : Nat) (s : State) : State :=
  if cause = 0 then raise code (blockOf key) 0 s
  else if (laneAt s key).noted.contains cause then s
  else raise code (blockOf key) 0 (onLane key (fun l => { l with noted := l.noted ++ [cause] }) s)

/-- The results that the present slot sees are written; GV rising from 0 raises one NOTE (R94). -/
def laneSee (key : Nat) (s : State) : State :=
  let l := laneAt s key
  let l' := settleTo l.slot l
  let s := onLane key (fun _ => l') s
  if !gvSet l && gvSet l' then raise 0x0301 (blockOf key) 0 s else s

/-- The wave of a Lane is discarded for a double-bit error (R88): SEVERE; the Dispatcher moves the block at the flip. -/
def laneDed (key : Nat) (s : State) : State :=
  raise 0x0305 (blockOf key) 0 (onLane key (fun l => { l with phase := .over, cause := 1 }) s)

/-- A block stops (R120, 04 R147): SEVERE, the wave is discarded, its outputs repeat, and it is not moved. -/
def laneStop (key code : Nat) (s : State) : State :=
  raise code (blockOf key) 0 (onLane key (fun l =>
    { l with phase := .over, cause := 2, st := 3, evNext := 0, evWave := 0, evPend := 0 }) s)

/-- The pending event of highest priority: its PEND bit, source code and vector (03 R86, R103, R105). -/
def topEvent (p : BitVec 3) : Option (BitVec 3 × BitVec 2 × BitVec 12) :=
  if p.getLsbD 2 then some (4, 1, 0x004)
  else if p.getLsbD 1 then some (2, 2, 0x008)
  else if p.getLsbD 0 then some (1, 3, 0x00C)
  else none

/-- EV_SLOT of LCTL (03 R104). -/
def evSlot (l : LaneS) : Nat := bitsOf l.cur.lctl.toNat 29 16

/-- An event may be taken at this slot boundary (03 R106), of a Lane whose results of the slot have settled. None is taken
while a SOSWAIT holds the instruction stream: R106 does not name that case (DESIGN CHOICE, log entry 143). -/
def canTake (l : LaneS) : Bool :=
  l.evSrc == 0 && l.delay == .none && l.sosWait.isNone
    && (l.phase == .halting || (l.phase == .run && decide (evSlot l ≤ l.slot)))

/-- A pending event is taken at this slot boundary, so no instruction issues (03 R106). -/
def mustTake (l : LaneS) : Bool :=
  let l := settleTo l.slot l
  canTake l && (topEvent l.evPend).isSome

/-- The Lane of a key may issue an instruction: a wave runs, its program runs, no SOSWAIT holds it, no event is taken in the
slot, and the budget is not used up. -/
def canIssue (s : State) (key : Nat) : Bool :=
  let l := laneAt s key
  s.wave.live && l.phase == .run && l.sosWait.isNone && decide (l.slot < laneBudget s) && !mustTake l

/-- Issue one instruction on a Lane, after what the SOS unit has done by its slot. `ded` says that the fetch or a read of the slot meets a double-bit error (R88). -/
def issue (key : Nat) (ded : Bool) (body : LaneS → Issued) (s : State) : State :=
  if canIssue s key then
    if ded then laneDed key s
    else
      let s := laneSee key (onLane key (fun l => sosAdvance l.slot (l.slot + 20) l) s)
      let o := body (laneAt s key)
      let s := match o.note with
        | some (cause, code) => laneNote key cause code s
        | none => s
      let noted := (laneAt s key).noted
      match o.flow with
      | .stop => laneStop key 0x0307 s
      | _ => onLane key (fun _ => { advance o with noted := noted }) s
  else s

/-- The instruction is a no-operation with a NOTE. -/
def noteNop (l : LaneS) (cause code : Nat) : Issued := { lane := l, note := some (cause, code) }

/-- A branch, loop or HALT instruction: in a delay slot, or at the end address of an active loop, it is a no-operation
with a NOTE (R100; 04 R144, R148). -/
def flowInstr (body : LaneS → Issued) (l : LaneS) : Issued :=
  if l.delay ≠ .none then noteNop l 1 0x0304
  else if atLoopEnd l then noteNop l 5 0x0304
  else body l

/-- The results of an operation on D registers, visible `n` slots later (R97; 04 R128). -/
def pushRes (n : Nat) (d : Option (BitVec 4)) (r : AluRes) (l : LaneS) : LaneS :=
  let l := match d with
    | some d => push n (.d d r.val) l
    | none => l
  let l := push n (.flags r.mask r.flags) l
  if r.sat then push n (.sticky stSat) l else l

/-- An accumulator result visible two slots later, with GV and GVAC when the guard overflows (R94). -/
def pushAc (a : BitVec 2) (v : BitVec 80) (past : Bool) (l : LaneS) : LaneS :=
  let l := push 2 (.ac a v) l
  if past then push 2 (.sticky (stGv a)) l else l

/-- The accumulator that a multiply-accumulate adds to: the result of one issued in the slot before, or the register
(R98). -/
def macOperand (l : LaneS) (a : BitVec 2) : BitVec 80 :=
  match l.mac with
  | some (t, sh, r, v) => if t + 1 = l.slot ∧ sh = l.shadow ∧ r = a then v else rdAc l a
  | none => rdAc l a

/-- A multiply result into an accumulator, kept for forwarding (R98). -/
def pushMac (a : BitVec 2) (x : Int) (l : LaneS) : LaneS :=
  let g := guard80 x
  { pushAc a g.1 g.2 l with mac := some (l.slot, l.shadow, a, g.1) }

end Sys2Proof.Machine
end

