-- ==== Sys2Proof/Machine/Operands.lean ====
section
/-! DEFINITION. The operand forms of lane instructions: address modes, stores, parallel loads, address registers
(04 R125 to R127, R137, R139, R141). -/

namespace Sys2Proof.Machine

/-- The address an access uses (R126); reading takes it modulo the memory's size (R92). -/
def modeAddr (l : LaneS) (m : LaneMem) : AddrMode → Nat
  | .ptr k => (rdPt l k).toNat
  | .inc k => (rdPt l k).toNat
  | .dec k => (rdPt l k).toNat
  | .disp k d => (stepPtr l k d.toInt (memSize m)).toNat
  | .abs a => a.toNat
  | .incOne k => (rdPt l k).toNat
  | .decOne k => (rdPt l k).toNat

/-- The post-step of an access, visible in the next slot (R126, 03 R101). -/
def modeStep (m : LaneMem) (mode : AddrMode) (l : LaneS) : LaneS :=
  match mode with
  | .inc k => push 1 (.pt k (stepPtr l k (rdDt l k).toInt (memSize m))) l
  | .dec k => push 1 (.pt k (stepPtr l k (-(rdDt l k).toInt) (memSize m))) l
  | .incOne k => push 1 (.pt k (stepPtr l k 1 (memSize m))) l
  | .decOne k => push 1 (.pt k (stepPtr l k (-1) (memSize m))) l
  | _ => l

/-- A store by a lane program (R139): X beyond the IN window, or Y. -/
def laneStore (toY : Bool) (a : Nat) (v : W36) (l : LaneS) : LaneS :=
  if toY then laneWrY a v l else laneWrX a v l

/-- The word a store writes, and whether narrowing it saturates (R139, 03 R95). -/
def storeVal (l : LaneS) : StoreSrc → W36 × Bool
  | .d r => (rdD l r, false)
  | .ac r => highField (rdAc l r)

/-- The parallel load from X through PT0 to PT3 (R137). -/
def parX (q : ParLoad) (l : LaneS) : LaneS :=
  let k := q.p.zeroExtend 3
  let l' := push 2 (.d q.d (laneRd l .x (rdPt l k).toNat)) l
  if q.post then push 1 (.pt k (stepPtr l k (rdDt l k).toInt 8192)) l' else l'

/-- The parallel load from Y through PT4 to PT7 (R137). -/
def parY (q : ParLoad) (l : LaneS) : LaneS :=
  let k := 4 + q.p.zeroExtend 3
  let l' := push 2 (.d q.d (laneRd l .y (rdPt l k).toNat)) l
  if q.post then push 1 (.pt k (stepPtr l k (rdDt l k).toInt 8192)) l' else l'

/-- Both parallel loads: with one destination the Y load is kept, as the later of the two (R137). -/
def parLoads (x y : Option ParLoad) (l : LaneS) : LaneS :=
  let l := match x with
    | some q => parX q l
    | none => l
  match y with
  | some q => parY q l
  | none => l

/-- A write of an address register: kind 0 PT, 1 BS, 2 LN, 3 DT (R125, R141). -/
def arWrite (kind : BitVec 2) (reg : BitVec 3) (v : BitVec 14) : LaneWr :=
  match kind.toNat with
  | 0 => .pt reg (v.truncate 13)
  | 1 => .bs reg (v.truncate 13)
  | 2 => .ln reg (if 8192 < v.toNat then 8192 else v)
  | _ => .dt reg v

/-- A read of an address register: PT, BS and LN zero-extended, DT sign-extended (R141). -/
def arRead (l : LaneS) (kind : BitVec 2) (reg : BitVec 3) : W36 :=
  match kind.toNat with
  | 0 => (rdPt l reg).zeroExtend 36
  | 1 => (rdBs l reg).zeroExtend 36
  | 2 => (rdLn l reg).zeroExtend 36
  | _ => (rdDt l reg).signExtend 36

end Sys2Proof.Machine
end

