-- ==== Sys2Proof/Machine/LaneMem.lean ====
section
/-! DEFINITION. Formats L, S and G: loads, stores, address and control registers (04 R139, R141, R142). -/

namespace Sys2Proof.Machine

/-- LD (R139): one word into Dd, visible at i + 2; a load from P is a P-data read (03 R90). -/
def execLd (lane : Nat) (ded : Bool) (mem : LaneMem) (mode : AddrMode) (d : BitVec 4) (s : State) :
    Host.Outcome State Fault Refusal :=
  .next (issue lane ded (fun l =>
    { lane := modeStep mem mode (push 2 (.d d (laneRd l mem (modeAddr l mem mode))) l)
      cost := if mem = .p then pCost l else 1 }) s)

/-- ST (R139): a D register, or an accumulator's high field, to X or Y; a later load issued in i + 1 reads it. -/
def execSt (lane : Nat) (ded : Bool) (toY : Bool) (mode : AddrMode) (src : StoreSrc) (s : State) :
    Host.Outcome State Fault Refusal :=
  .next (issue lane ded (fun l =>
    let m : LaneMem := if toY then .y else .x
    let v := storeVal l src
    let l' := modeStep m mode l
    let l' := if v.2 then push 1 (.sticky stSat) l' else l'
    { lane := laneStore toY (modeAddr l m mode) v.1 l' }) s)

/-- MVTA (R141): an address register from Ds[13:0]. -/
def execMvta (lane : Nat) (ded : Bool) (kind : BitVec 2) (reg : BitVec 3) (d : BitVec 4) (s : State) :
    Host.Outcome State Fault Refusal :=
  .next (issue lane ded (fun l => { lane := push 1 (arWrite kind reg ((rdD l d).truncate 14)) l }) s)

/-- MVFA (R141): Dd from an address register. -/
def execMvfa (lane : Nat) (ded : Bool) (d : BitVec 4) (kind : BitVec 2) (reg : BitVec 3) (s : State) :
    Host.Outcome State Fault Refusal :=
  .next (issue lane ded (fun l => { lane := push 1 (.d d (arRead l kind reg)) l }) s)

/-- LDA (R141): an address register from an immediate. -/
def execLda (lane : Nat) (ded : Bool) (kind : BitVec 2) (reg : BitVec 3) (imm : BitVec 14) (s : State) :
    Host.Outcome State Fault Refusal :=
  .next (issue lane ded (fun l => { lane := push 1 (arWrite kind reg imm) l }) s)

/-- AADD (R141): post-steps PTk by an immediate step, in 8,192 words (03 R101). -/
def execAadd (lane : Nat) (ded : Bool) (reg : BitVec 3) (imm : BitVec 14) (s : State) :
    Host.Outcome State Fault Refusal :=
  .next (issue lane ded (fun l => { lane := push 1 (.pt reg (stepPtr l reg imm.toInt 8192)) l }) s)

/-- AMOD (R141): post-steps PTk by DTk without a memory access. -/
def execAmod (lane : Nat) (ded : Bool) (reg : BitVec 3) (s : State) : Host.Outcome State Fault Refusal :=
  .next (issue lane ded (fun l => { lane := push 1 (.pt reg (stepPtr l reg (rdDt l reg).toInt 8192)) l }) s)

/-- MVTC (R142): LST by its fields' access, LCTL, or EPC from Ds. -/
def execMvtc (lane : Nat) (ded : Bool) (cr : LaneCr) (d : BitVec 4) (s : State) : Host.Outcome State Fault Refusal :=
  .next (issue lane ded (fun l =>
    { lane := push 1 (match cr with
        | .lst => .lst (rdD l d)
        | .lctl => .lctl (rdD l d)
        | .epc => .epc ((rdD l d).truncate 12)) l }) s)

/-- MVFC (R141): Dd from a control register. -/
def execMvfc (lane : Nat) (ded : Bool) (d : BitVec 4) (cr : LaneCr) (s : State) : Host.Outcome State Fault Refusal :=
  .next (issue lane ded (fun l =>
    { lane := push 1 (.d d (match cr with
        | .lst => lstRead l
        | .lctl => l.cur.lctl
        | .epc => l.cur.epc.zeroExtend 36)) l }) s)

end Sys2Proof.Machine
end

