-- ==== Sys2Proof/Machine/LaneCode.lean ====
section
/-! DEFINITION. The words of lane instructions (04 R122 to R127 and the format tables): which command a P word issues as,
and the word of each lane command. Reserved encodings issue as ILLEGAL_OP (R123). -/

namespace Sys2Proof.Machine

/-- The bits `hi` down to `lo` of a P word. -/
def wf (w : W36) (hi lo : Nat) : Nat := bitsOf w.toNat hi lo

/-- A P word from its fields. -/
def mk (n : Nat) : W36 := BitVec.ofNat 36 n

/-- Format E. -/
def decE (lane : Nat) (ded : Bool) (w : W36) : Option Instr :=
  if wf w 27 3 ≠ 0 then none
  else match wf w 31 28 with
    | 0 => if wf w 2 0 = 0 then some (.nop lane ded) else none
    | 1 => if wf w 2 0 = 0 then some (.halt lane ded) else none
    | 2 => if wf w 2 0 = 0 then some (.rete lane ded) else none
    | 3 => some (.sosrun lane ded (BitVec.ofNat 3 (wf w 2 0)))
    | 4 => some (.soswait lane ded (BitVec.ofNat 3 (wf w 2 0)))
    | _ => none

/-- Format A. -/
def decA (lane : Nat) (ded : Bool) (w : W36) : Option Instr :=
  let d := BitVec.ofNat 4 (wf w 25 22)
  let a := BitVec.ofNat 4 (wf w 21 18)
  let b := BitVec.ofNat 4 (wf w 17 14)
  if wf w 13 0 ≠ 0 then none
  else match wf w 31 26 with
    | 0 => if b = 0 then some (.mov lane ded d a) else none
    | 1 => some (.add lane ded d a b)
    | 2 => some (.adds lane ded d a b)
    | 3 => some (.sub lane ded d a b)
    | 4 => some (.subs lane ded d a b)
    | 5 => if b = 0 then some (.neg lane ded d a) else none
    | 6 => if b = 0 then some (.negs lane ded d a) else none
    | 7 => if b = 0 then some (.abs lane ded d a) else none
    | 8 => some (.and lane ded d a b)
    | 9 => some (.or lane ded d a b)
    | 10 => some (.xor lane ded d a b)
    | 11 => if b = 0 then some (.not lane ded d a) else none
    | 12 => some (.ash lane ded d a b)
    | 13 => some (.lsh lane ded d a b)
    | 14 => some (.min lane ded d a b)
    | 15 => some (.max lane ded d a b)
    | 16 => if d = 0 then some (.cmp lane ded a b) else none
    | 17 => some (.mulf lane ded d a b)
    | 18 => some (.muli lane ded d a b)
    | _ => none

/-- Format I. -/
def decI (lane : Nat) (ded : Bool) (w : W36) : Option Instr :=
  let d := BitVec.ofNat 4 (wf w 27 24)
  let a := BitVec.ofNat 4 (wf w 23 20)
  let i := BitVec.ofNat 20 (wf w 19 0)
  let h := BitVec.ofNat 7 (wf w 6 0)
  match wf w 31 28 with
  | 0 => some (.addi lane ded d a i)
  | 1 => some (.addsi lane ded d a i)
  | 2 => some (.andi lane ded d a i)
  | 3 => some (.ori lane ded d a i)
  | 4 => some (.xori lane ded d a i)
  | 5 => if wf w 19 7 = 0 then some (.ashi lane ded d a h) else none
  | 6 => if wf w 19 7 = 0 then some (.lshi lane ded d a h) else none
  | 7 => if d = 0 then some (.cmpi lane ded a i) else none
  | _ => none

/-- Format K. -/
def decK (lane : Nat) (ded : Bool) (w : W36) : Option Instr :=
  let d := BitVec.ofNat 4 (wf w 30 27)
  if wf w 26 24 ≠ 0 then none
  else if wf w 31 31 = 0 then some (.ldi lane ded d (BitVec.ofNat 24 (wf w 23 0)))
  else if wf w 23 12 = 0 then some (.ldih lane ded d (BitVec.ofNat 12 (wf w 11 0)))
  else none

/-- The X load of format M. -/
def decX (w : W36) : Option ParLoad :=
  if wf w 17 17 = 1 then
    some { d := BitVec.ofNat 4 (wf w 16 13), p := BitVec.ofNat 2 (wf w 12 11), post := wf w 10 10 == 1 }
  else none

/-- The Y load of format M. -/
def decY (w : W36) : Option ParLoad :=
  if wf w 9 9 = 1 then
    some { d := BitVec.ofNat 4 (wf w 8 5), p := BitVec.ofNat 2 (wf w 4 3), post := wf w 2 2 == 1 }
  else none

/-- Format M. -/
def decM (lane : Nat) (ded : Bool) (w : W36) : Option Instr :=
  let f := wf w 28 28 == 1
  let ac := BitVec.ofNat 2 (wf w 27 26)
  let dx := BitVec.ofNat 4 (wf w 25 22)
  let dy := BitVec.ofNat 4 (wf w 21 18)
  if wf w 1 0 ≠ 0 then none
  else match wf w 31 29 with
    | 0 => some (.mpy lane ded f ac dx dy (decX w) (decY w))
    | 1 => some (.mac lane ded f ac dx dy (decX w) (decY w))
    | 2 => some (.msu lane ded f ac dx dy (decX w) (decY w))
    | 3 => some (.mpyn lane ded f ac dx dy (decX w) (decY w))
    | 4 => if wf w 28 18 = 0 then some (.pld lane ded (decX w) (decY w)) else none
    | _ => none

/-- Format F. -/
def decF (lane : Nat) (ded : Bool) (w : W36) : Option Instr :=
  let ac := BitVec.ofNat 2 (wf w 29 28)
  let p := wf w 27 27 == 1
  let mv := wf w 26 26 == 1
  let ix := BitVec.ofNat 3 (wf w 25 23)
  let ic := BitVec.ofNat 3 (wf w 22 20)
  if wf w 19 0 ≠ 0 ∨ ix = ic then none
  else match wf w 31 30 with
    | 0 => some (.firtap lane ded ac p mv ix ic)
    | 1 => some (.firtapn lane ded ac p mv ix ic)
    | _ => none

/-- The address mode of formats L and S (R126): fields that a mode does not use must be 0. -/
def decMode (w : W36) : Option AddrMode :=
  let k := BitVec.ofNat 3 (wf w 21 19)
  let disp := wf w 18 13
  let abs := wf w 12 0
  match wf w 29 27 with
  | 0 => if disp = 0 ∧ abs = 0 then some (.ptr k) else none
  | 1 => if disp = 0 ∧ abs = 0 then some (.inc k) else none
  | 2 => if disp = 0 ∧ abs = 0 then some (.dec k) else none
  | 3 => if abs = 0 then some (.disp k (BitVec.ofNat 6 disp)) else none
  | 4 => if disp = 0 ∧ k = 0 then some (.abs (BitVec.ofNat 13 abs)) else none
  | 5 => if disp = 0 ∧ abs = 0 then some (.incOne k) else none
  | 6 => if disp = 0 ∧ abs = 0 then some (.decOne k) else none
  | _ => none

/-- Format L. -/
def decL (lane : Nat) (ded : Bool) (w : W36) : Option Instr :=
  let d := BitVec.ofNat 4 (wf w 25 22)
  if wf w 26 26 ≠ 0 then none
  else match decMode w with
    | none => none
    | some m =>
      match wf w 31 30 with
      | 0 => some (.ld lane ded .x m d)
      | 1 => some (.ld lane ded .y m d)
      | 2 => some (.ld lane ded .p m d)
      | _ => none

/-- The source of format S. -/
def decSrc (w : W36) : Option StoreSrc :=
  if wf w 26 26 = 0 then some (.d (BitVec.ofNat 4 (wf w 25 22)))
  else if wf w 25 24 = 0 then some (.ac (BitVec.ofNat 2 (wf w 23 22)))
  else none

/-- Format S. -/
def decS (lane : Nat) (ded : Bool) (w : W36) : Option Instr :=
  match decMode w, decSrc w with
  | some m, some r =>
    match wf w 31 30 with
    | 0 => some (.st lane ded false m r)
    | 1 => some (.st lane ded true m r)
    | _ => none
  | _, _ => none

/-- Format C: fields that an operation does not use must be 0. -/
def decC (lane : Nat) (ded : Bool) (w : W36) : Option Instr :=
  let a := BitVec.ofNat 2 (wf w 27 26)
  let b := BitVec.ofNat 2 (wf w 25 24)
  let d := BitVec.ofNat 4 (wf w 23 20)
  let h := BitVec.ofNat 7 (wf w 19 13)
  if wf w 12 0 ≠ 0 then none
  else match wf w 31 28 with
    | 0 => if b = 0 ∧ d = 0 ∧ h = 0 then some (.clra lane ded a) else none
    | 1 => if b = 0 ∧ h = 0 then some (.movah lane ded d a) else none
    | 2 => if b = 0 ∧ h = 0 then some (.moval lane ded d a) else none
    | 3 => if b = 0 ∧ h = 0 then some (.movag lane ded d a) else none
    | 4 => if b = 0 ∧ h = 0 then some (.ldah lane ded a d) else none
    | 5 => if b = 0 ∧ h = 0 then some (.ldal lane ded a d) else none
    | 6 => if d = 0 ∧ h = 0 then some (.adda lane ded a b) else none
    | 7 => if d = 0 ∧ h = 0 then some (.suba lane ded a b) else none
    | 8 => if d = 0 ∧ h = 0 then some (.cpya lane ded a b) else none
    | 9 => if b = 0 ∧ d = 0 ∧ h = 0 then some (.nega lane ded a) else none
    | 10 => if b = 0 ∧ d = 0 then some (.asha lane ded a h) else none
    | 11 => if b = 0 ∧ d = 0 ∧ h = 0 then some (.tsta lane ded a) else none
    | _ => none

/-- A control register of format G (R125). -/
def decCr (w : W36) : Option LaneCr :=
  match wf w 13 0 with
  | 0 => some .lst
  | 1 => some .lctl
  | 2 => some .epc
  | _ => none

/-- Format G: fields that an operation does not use must be 0, IMM14 of MVTA, MVFA and AMOD among them: the format names no
value for it there (DEDUCED from R123, log entry 147). -/
def decG (lane : Nat) (ded : Bool) (w : W36) : Option Instr :=
  let kind := BitVec.ofNat 2 (wf w 27 26)
  let reg := BitVec.ofNat 3 (wf w 25 23)
  let d := BitVec.ofNat 4 (wf w 22 19)
  let imm := BitVec.ofNat 14 (wf w 13 0)
  if wf w 18 14 ≠ 0 then none
  else match wf w 31 28 with
    | 0 => if imm = 0 then some (.mvta lane ded kind reg d) else none
    | 1 => if imm = 0 then some (.mvfa lane ded d kind reg) else none
    | 2 => if d = 0 then some (.lda lane ded kind reg imm) else none
    | 3 => if kind = 0 ∧ d = 0 then some (.aadd lane ded reg imm) else none
    | 4 => if kind = 0 ∧ d = 0 ∧ imm = 0 then some (.amod lane ded reg) else none
    | 5 => if kind = 0 ∧ reg = 0 then (decCr w).map fun c => .mvtc lane ded c d else none
    | 6 => if kind = 0 ∧ reg = 0 then (decCr w).map fun c => .mvfc lane ded d c else none
    | _ => none

/-- Format B. -/
def decB (lane : Nat) (ded : Bool) (w : W36) : Option Instr :=
  let c := BitVec.ofNat 4 (wf w 28 25)
  let d := BitVec.ofNat 4 (wf w 24 21)
  let t := BitVec.ofNat 12 (wf w 11 0)
  if wf w 20 12 ≠ 0 ∨ c = 15 then none
  else match wf w 31 29 with
    | 0 => if d = 0 then some (.j lane ded c t) else none
    | 1 => some (.call lane ded c d t)
    | 2 => if t = 0 then some (.jr lane ded c d) else none
    | _ => none

/-- Format R. -/
def decR (lane : Nat) (ded : Bool) (w : W36) : Option Instr :=
  match wf w 31 30 with
  | 0 => if wf w 13 8 = 0 then some (.rep lane ded (BitVec.ofNat 16 (wf w 29 14)) (BitVec.ofNat 8 (wf w 7 0))) else none
  | 1 => if wf w 25 12 = 0 then some (.loop lane ded (BitVec.ofNat 4 (wf w 29 26)) (BitVec.ofNat 12 (wf w 11 0))) else none
  | 2 => if wf w 29 0 = 0 then some (.lpop lane ded) else none
  | _ => none

/-- The command that a P word issues as on a Lane, or none for a reserved encoding (R122, R123). -/
def laneDecode (lane : Nat) (ded : Bool) (w : W36) : Option Instr :=
  match wf w 35 32 with
  | 0 => decE lane ded w
  | 1 => decA lane ded w
  | 2 => decI lane ded w
  | 3 => decK lane ded w
  | 4 => decM lane ded w
  | 5 => decF lane ded w
  | 6 => decL lane ded w
  | 7 => decS lane ded w
  | 8 => decC lane ded w
  | 9 => decG lane ded w
  | 10 => decB lane ded w
  | 11 => decR lane ded w
  | _ => none

/-- Format A with its operation code. -/
def encA (op : Nat) (d a b : BitVec 4) : W36 :=
  mk (1 * 2 ^ 32 + op * 2 ^ 26 + d.toNat * 2 ^ 22 + a.toNat * 2 ^ 18 + b.toNat * 2 ^ 14)

/-- Format I with its operation code. -/
def encI (op : Nat) (d a : BitVec 4) (imm : Nat) : W36 :=
  mk (2 * 2 ^ 32 + op * 2 ^ 28 + d.toNat * 2 ^ 24 + a.toNat * 2 ^ 20 + imm)

/-- The load fields of format M. -/
def encPar (x y : Option ParLoad) : Nat :=
  (match x with
    | some q => 2 ^ 17 + q.d.toNat * 2 ^ 13 + q.p.toNat * 2 ^ 11 + b2n q.post * 2 ^ 10
    | none => 0)
  + (match y with
    | some q => 2 ^ 9 + q.d.toNat * 2 ^ 5 + q.p.toNat * 2 ^ 3 + b2n q.post * 2 ^ 2
    | none => 0)

/-- Format M with its operation code. -/
def encM (op : Nat) (f : Bool) (ac : BitVec 2) (dx dy : BitVec 4) (x y : Option ParLoad) : W36 :=
  mk (4 * 2 ^ 32 + op * 2 ^ 29 + b2n f * 2 ^ 28 + ac.toNat * 2 ^ 26 + dx.toNat * 2 ^ 22 + dy.toNat * 2 ^ 18 + encPar x y)

/-- Format F with its operation code. -/
def encF (op : Nat) (ac : BitVec 2) (p mv : Bool) (ix ic : BitVec 3) : W36 :=
  mk (5 * 2 ^ 32 + op * 2 ^ 30 + ac.toNat * 2 ^ 28 + b2n p * 2 ^ 27 + b2n mv * 2 ^ 26 + ix.toNat * 2 ^ 23
    + ic.toNat * 2 ^ 20)

/-- The mode fields of formats L and S (R126). -/
def encMode : AddrMode → Nat
  | .ptr k => k.toNat * 2 ^ 19
  | .inc k => 1 * 2 ^ 27 + k.toNat * 2 ^ 19
  | .dec k => 2 * 2 ^ 27 + k.toNat * 2 ^ 19
  | .disp k d => 3 * 2 ^ 27 + k.toNat * 2 ^ 19 + d.toNat * 2 ^ 13
  | .abs a => 4 * 2 ^ 27 + a.toNat
  | .incOne k => 5 * 2 ^ 27 + k.toNat * 2 ^ 19
  | .decOne k => 6 * 2 ^ 27 + k.toNat * 2 ^ 19

/-- The code of a Lane memory. -/
def memCode : LaneMem → Nat
  | .x => 0
  | .y => 1
  | .p => 2

/-- The source fields of format S. -/
def encSrc : StoreSrc → Nat
  | .d r => r.toNat * 2 ^ 22
  | .ac r => 2 ^ 26 + r.toNat * 2 ^ 22

/-- Format C with its operation code. -/
def encC (op : Nat) (a b : BitVec 2) (d : BitVec 4) (h : BitVec 7) : W36 :=
  mk (8 * 2 ^ 32 + op * 2 ^ 28 + a.toNat * 2 ^ 26 + b.toNat * 2 ^ 24 + d.toNat * 2 ^ 20 + h.toNat * 2 ^ 13)

/-- The code of a control register. -/
def crCode : LaneCr → Nat
  | .lst => 0
  | .lctl => 1
  | .epc => 2

/-- Format G with its operation code. -/
def encG (op : Nat) (kind : BitVec 2) (reg : BitVec 3) (d : BitVec 4) (imm : Nat) : W36 :=
  mk (9 * 2 ^ 32 + op * 2 ^ 28 + kind.toNat * 2 ^ 26 + reg.toNat * 2 ^ 23 + d.toNat * 2 ^ 19 + imm)

/-- Format B with its operation code. -/
def encB (op : Nat) (c d : BitVec 4) (t : BitVec 12) : W36 :=
  mk (10 * 2 ^ 32 + op * 2 ^ 29 + c.toNat * 2 ^ 25 + d.toNat * 2 ^ 21 + t.toNat)

/-- Format E with its operation code. -/
def encE (op : Nat) (g : BitVec 3) : W36 := mk (op * 2 ^ 28 + g.toNat)

/-- The P word of a lane command; a command that is no lane instruction has none. -/
def laneEncode (i : Instr) : Option W36 :=
  match i with
  | .nop _ _ => some (encE 0 0)
  | .halt _ _ => some (encE 1 0)
  | .rete _ _ => some (encE 2 0)
  | .sosrun _ _ group => some (encE 3 group)
  | .soswait _ _ group => some (encE 4 group)
  | .mov _ _ d a => some (encA 0 d a 0)
  | .add _ _ d a b => some (encA 1 d a b)
  | .adds _ _ d a b => some (encA 2 d a b)
  | .sub _ _ d a b => some (encA 3 d a b)
  | .subs _ _ d a b => some (encA 4 d a b)
  | .neg _ _ d a => some (encA 5 d a 0)
  | .negs _ _ d a => some (encA 6 d a 0)
  | .abs _ _ d a => some (encA 7 d a 0)
  | .and _ _ d a b => some (encA 8 d a b)
  | .or _ _ d a b => some (encA 9 d a b)
  | .xor _ _ d a b => some (encA 10 d a b)
  | .not _ _ d a => some (encA 11 d a 0)
  | .ash _ _ d a b => some (encA 12 d a b)
  | .lsh _ _ d a b => some (encA 13 d a b)
  | .min _ _ d a b => some (encA 14 d a b)
  | .max _ _ d a b => some (encA 15 d a b)
  | .cmp _ _ a b => some (encA 16 0 a b)
  | .mulf _ _ d a b => some (encA 17 d a b)
  | .muli _ _ d a b => some (encA 18 d a b)
  | .addi _ _ d a imm => some (encI 0 d a imm.toNat)
  | .addsi _ _ d a imm => some (encI 1 d a imm.toNat)
  | .andi _ _ d a imm => some (encI 2 d a imm.toNat)
  | .ori _ _ d a imm => some (encI 3 d a imm.toNat)
  | .xori _ _ d a imm => some (encI 4 d a imm.toNat)
  | .ashi _ _ d a sh => some (encI 5 d a sh.toNat)
  | .lshi _ _ d a sh => some (encI 6 d a sh.toNat)
  | .cmpi _ _ a imm => some (encI 7 0 a imm.toNat)
  | .ldi _ _ d imm => some (mk (3 * 2 ^ 32 + d.toNat * 2 ^ 27 + imm.toNat))
  | .ldih _ _ d imm => some (mk (3 * 2 ^ 32 + 2 ^ 31 + d.toNat * 2 ^ 27 + imm.toNat))
  | .mpy _ _ frac ac dx dy x y => some (encM 0 frac ac dx dy x y)
  | .mac _ _ frac ac dx dy x y => some (encM 1 frac ac dx dy x y)
  | .msu _ _ frac ac dx dy x y => some (encM 2 frac ac dx dy x y)
  | .mpyn _ _ frac ac dx dy x y => some (encM 3 frac ac dx dy x y)
  | .pld _ _ x y => some (encM 4 false 0 0 0 x y)
  | .firtap _ _ ac fromP move ix ic => some (encF 0 ac fromP move ix ic)
  | .firtapn _ _ ac fromP move ix ic => some (encF 1 ac fromP move ix ic)
  | .ld _ _ mem mode d => some (mk (6 * 2 ^ 32 + memCode mem * 2 ^ 30 + d.toNat * 2 ^ 22 + encMode mode))
  | .st _ _ toY mode src => some (mk (7 * 2 ^ 32 + b2n toY * 2 ^ 30 + encSrc src + encMode mode))
  | .clra _ _ a => some (encC 0 a 0 0 0)
  | .movah _ _ d a => some (encC 1 a 0 d 0)
  | .moval _ _ d a => some (encC 2 a 0 d 0)
  | .movag _ _ d a => some (encC 3 a 0 d 0)
  | .ldah _ _ a d => some (encC 4 a 0 d 0)
  | .ldal _ _ a d => some (encC 5 a 0 d 0)
  | .adda _ _ a b => some (encC 6 a b 0 0)
  | .suba _ _ a b => some (encC 7 a b 0 0)
  | .cpya _ _ a b => some (encC 8 a b 0 0)
  | .nega _ _ a => some (encC 9 a 0 0 0)
  | .asha _ _ a sh => some (encC 10 a 0 0 sh)
  | .tsta _ _ a => some (encC 11 a 0 0 0)
  | .mvta _ _ kind reg d => some (encG 0 kind reg d 0)
  | .mvfa _ _ d kind reg => some (encG 1 kind reg d 0)
  | .lda _ _ kind reg imm => some (encG 2 kind reg 0 imm.toNat)
  | .aadd _ _ reg imm => some (encG 3 0 reg 0 imm.toNat)
  | .amod _ _ reg => some (encG 4 0 reg 0 0)
  | .mvtc _ _ cr d => some (encG 5 0 0 d (crCode cr))
  | .mvfc _ _ d cr => some (encG 6 0 0 d (crCode cr))
  | .j _ _ cond target => some (encB 0 cond 0 target)
  | .call _ _ cond d target => some (encB 1 cond d target)
  | .jr _ _ cond d => some (encB 2 cond d 0)
  | .rep _ _ count len => some (mk (11 * 2 ^ 32 + count.toNat * 2 ^ 14 + len.toNat))
  | .loop _ _ d last => some (mk (11 * 2 ^ 32 + 2 ^ 30 + d.toNat * 2 ^ 26 + last.toNat))
  | .lpop _ _ => some (mk (11 * 2 ^ 32 + 2 * 2 ^ 30))
  | _ => none

/-- The operands that the encodings of R122 to R148 admit: two different pointers for a filter tap, and no reserved
condition. -/
def laneOperandsOk (i : Instr) : Bool :=
  match i with
  | .firtap _ _ _ _ _ ix ic => ix != ic
  | .firtapn _ _ _ _ _ ix ic => ix != ic
  | .j _ _ c _ => c != 15
  | .call _ _ c _ _ => c != 15
  | .jr _ _ c _ => c != 15
  | _ => true

/-- The Lane and the double-bit flag of a lane instruction. -/
def laneCtx (i : Instr) : Nat × Bool :=
  match i with
  | .nop l b => (l, b)
  | .halt l b => (l, b)
  | .rete l b => (l, b)
  | .sosrun l b _ => (l, b)
  | .soswait l b _ => (l, b)
  | .mov l b _ _ => (l, b)
  | .add l b _ _ _ => (l, b)
  | .adds l b _ _ _ => (l, b)
  | .sub l b _ _ _ => (l, b)
  | .subs l b _ _ _ => (l, b)
  | .neg l b _ _ => (l, b)
  | .negs l b _ _ => (l, b)
  | .abs l b _ _ => (l, b)
  | .and l b _ _ _ => (l, b)
  | .or l b _ _ _ => (l, b)
  | .xor l b _ _ _ => (l, b)
  | .not l b _ _ => (l, b)
  | .ash l b _ _ _ => (l, b)
  | .lsh l b _ _ _ => (l, b)
  | .min l b _ _ _ => (l, b)
  | .max l b _ _ _ => (l, b)
  | .cmp l b _ _ => (l, b)
  | .mulf l b _ _ _ => (l, b)
  | .muli l b _ _ _ => (l, b)
  | .addi l b _ _ _ => (l, b)
  | .addsi l b _ _ _ => (l, b)
  | .andi l b _ _ _ => (l, b)
  | .ori l b _ _ _ => (l, b)
  | .xori l b _ _ _ => (l, b)
  | .ashi l b _ _ _ => (l, b)
  | .lshi l b _ _ _ => (l, b)
  | .cmpi l b _ _ => (l, b)
  | .ldi l b _ _ => (l, b)
  | .ldih l b _ _ => (l, b)
  | .mpy l b _ _ _ _ _ _ => (l, b)
  | .mac l b _ _ _ _ _ _ => (l, b)
  | .msu l b _ _ _ _ _ _ => (l, b)
  | .mpyn l b _ _ _ _ _ _ => (l, b)
  | .pld l b _ _ => (l, b)
  | .firtap l b _ _ _ _ _ => (l, b)
  | .firtapn l b _ _ _ _ _ => (l, b)
  | .ld l b _ _ _ => (l, b)
  | .st l b _ _ _ => (l, b)
  | .clra l b _ => (l, b)
  | .movah l b _ _ => (l, b)
  | .moval l b _ _ => (l, b)
  | .movag l b _ _ => (l, b)
  | .ldah l b _ _ => (l, b)
  | .ldal l b _ _ => (l, b)
  | .adda l b _ _ => (l, b)
  | .suba l b _ _ => (l, b)
  | .cpya l b _ _ => (l, b)
  | .nega l b _ => (l, b)
  | .asha l b _ _ => (l, b)
  | .tsta l b _ => (l, b)
  | .mvta l b _ _ _ => (l, b)
  | .mvfa l b _ _ _ => (l, b)
  | .lda l b _ _ _ => (l, b)
  | .aadd l b _ _ => (l, b)
  | .amod l b _ => (l, b)
  | .mvtc l b _ _ => (l, b)
  | .mvfc l b _ _ => (l, b)
  | .j l b _ _ => (l, b)
  | .call l b _ _ _ => (l, b)
  | .jr l b _ _ => (l, b)
  | .rep l b _ _ => (l, b)
  | .loop l b _ _ => (l, b)
  | .lpop l b => (l, b)
  | _ => (0, false)

/-- The command that a Lane issues next: the word of P memory at its PC, or ILLEGAL_OP for a reserved word (R123, R124);
none while it issues nothing. -/
def laneNext (s : State) (lane : Nat) : Option Instr :=
  let l := laneAt s lane
  if canIssue s lane then
    let w := tget 0 l.cur.p l.pc.toNat
    match laneDecode lane false w with
    | some i => some i
    | none => some (.illegalOp lane false w)
  else none

end Sys2Proof.Machine
end

