-- ==== Sys2Proof/Machine/LaneCtl.lean ====
section
/-! DEFINITION. Formats E, B and R, reserved words, events, the second-order-section unit and the end of a Lane's wave
(03 R105 to R120; 04 R123, R130 to R132, R143 to R148). -/

namespace Sys2Proof.Machine

/-- NOP (R122). -/
def execNop (lane : Nat) (ded : Bool) (s : State) : Host.Outcome State Fault Refusal :=
  .next (issue lane ded (fun l => { lane := l }) s)

/-- HALT (R130, R131): ends the wave's program; in the shadow bank a no-operation with a NOTE. With an SOS group still
queued it raises SOS_OPEN and waits. -/
def execHalt (lane : Nat) (ded : Bool) (s : State) : Host.Outcome State Fault Refusal :=
  .next (issue lane ded (flowInstr fun l =>
    if l.shadow then noteNop l 2 0x0304
    else { lane := l, flow := .halt, note := if l.sosQ = [] then none else some (11, 0x0303) }) s)

/-- RETE (R108, R131): returns from an event after its delay slot; with no event being handled a no-operation with a
NOTE. -/
def execRete (lane : Nat) (ded : Bool) (s : State) : Host.Outcome State Fault Refusal :=
  .next (issue lane ded (flowInstr fun l =>
    if l.evSrc = 0 then noteNop l 3 0x0304 else { lane := l, flow := .rete }) s)

/-- SOS_EN of LCTL (03 R104). -/
def sosEn (l : LaneS) : Bool := l.cur.lctl.getLsbD 0

/-- SOSRUN (R132, 03 R115): the group enters the unit's queue; of a group queued or running, nothing but a NOTE. -/
def execSosrun (lane : Nat) (ded : Bool) (group : BitVec 3) (s : State) : Host.Outcome State Fault Refusal :=
  .next (issue lane ded (fun l =>
    if sosEn l then
      if l.sosQ.any fun q => q.1 == group then noteNop l 0 0x0304
      else { lane := { l with sosQ := l.sosQ ++ [(group, l.slot)] } }
    else { lane := l }) s)

/-- SOSWAIT (R132, 03 R115): holds the instruction stream while its group is queued or running. -/
def execSoswait (lane : Nat) (ded : Bool) (group : BitVec 3) (s : State) : Host.Outcome State Fault Refusal :=
  .next (issue lane ded (fun l =>
    { lane := if l.sosQ.any (fun q => q.1 == group) then { l with sosWait := some group } else l }) s)

/-- The slot in which the group at the front of the queue completes (03 R115, R116): while a SOSWAIT or a HALT waits, the slot
given, within the accounted bound; else the slot that the Lane has reached. -/
def sosSlot (l : LaneS) (g : BitVec 3) (t0 slot : Nat) : Nat :=
  if l.sosWait.isSome || l.phase == .halting then
    max (max l.slot (max (t0 + 1) l.sosFree)) (min slot (groupBound l g t0))
  else l.slot

/-- SOS_GROUP_COMPLETE (03 R113, R115, R116): the group at the front of the queue has run, at its bound or before. A SOSWAIT
for it, or a HALT, has held the Lane until the slot of its completion. -/
def execSosGroupComplete (lane : Nat) (slot : Nat) (ded : Bool) (s : State) : Host.Outcome State Fault Refusal :=
  let l := laneAt s lane
  match l.sosQ with
  | [] => .next s
  | (g, t0) :: rest =>
    if s.wave.live = true ∧ (l.phase = .run ∨ l.phase = .halting) then
      if ded then .next (laneDed lane s)
      else
        let b := sosSlot l g t0 slot
        let held := l.sosWait == some g || l.phase == .halting
        .next (onLane lane (fun _ => { sosFinish b g t0 rest l with slot := if held then b else l.slot }) s)
    else .next s

/-- A branch whose condition is not the reserved code 0xF; that one is a no-operation with the NOTE ILLEGAL_OP (R123, R129). -/
def condInstr (cond : BitVec 4) (body : LaneS → Issued) (l : LaneS) : Issued :=
  if cond = 15 then noteNop l 10 0x0302 else flowInstr body l

/-- J (R143). -/
def execJ (lane : Nat) (ded : Bool) (cond : BitVec 4) (target : BitVec 12) (s : State) :
    Host.Outcome State Fault Refusal :=
  .next (issue lane ded (condInstr cond fun l =>
    { lane := l, flow := .branch (if condTrue l.cur.lst cond then some target else none) }) s)

/-- CALL (R143): a taken call writes its address plus 2 to the link register. -/
def execCall (lane : Nat) (ded : Bool) (cond : BitVec 4) (d : BitVec 4) (target : BitVec 12) (s : State) :
    Host.Outcome State Fault Refusal :=
  .next (issue lane ded (condInstr cond fun l =>
    if condTrue l.cur.lst cond then
      { lane := push 1 (.d d ((l.pc + 2).zeroExtend 36)) l, flow := .branch (some target) }
    else { lane := l, flow := .branch none }) s)

/-- JR (R143): to Ds[11:0]. -/
def execJr (lane : Nat) (ded : Bool) (cond : BitVec 4) (d : BitVec 4) (s : State) : Host.Outcome State Fault Refusal :=
  .next (issue lane ded (condInstr cond fun l =>
    { lane := l, flow := .branch (if condTrue l.cur.lst cond then some ((rdD l d).truncate 12) else none) }) s)

/-- Start a loop of `count` passes over the instructions after the PC up to `last` (R145): a count of 0 skips it, a fifth
entry stops the block (R147). `rep` loops of 1 to 16 instructions fill the repeat cache (03 R89). -/
def loopStart (count : BitVec 16) (last : BitVec 12) (rep : Bool) (l : LaneS) : Issued :=
  if count = 0 then { lane := l, flow := .goto (last + 1) }
  else if 4 ≤ (loopsOf l).length then { lane := l, flow := .stop }
  else
    let first := l.pc + 1
    let e : LoopE := { first := first, last := last, count := count, rep := rep }
    let l' := setLoops (e :: loopsOf l) l
    let l' := if rep then
        { l' with cache := if last.toNat - first.toNat < 16 then some (first, last, 1) else none }
      else l'
    { lane := l', flow := .goto first }

/-- REP (R145): a body that would pass 0xFFF makes it a no-operation with a NOTE. -/
def execRep (lane : Nat) (ded : Bool) (count : BitVec 16) (len : BitVec 8) (s : State) :
    Host.Outcome State Fault Refusal :=
  .next (issue lane ded (flowInstr fun l =>
    if 0xFFF < l.pc.toNat + len.toNat + 1 then noteNop l 4 0x0304
    else loopStart count (l.pc + 1 + len.zeroExtend 12) true l) s)

/-- LOOP (R145): the count is Ds[15:0], read at issue; an END before a + 1 makes it a no-operation with a NOTE. -/
def execLoop (lane : Nat) (ded : Bool) (d : BitVec 4) (last : BitVec 12) (s : State) :
    Host.Outcome State Fault Refusal :=
  .next (issue lane ded (flowInstr fun l =>
    if last.toNat < l.pc.toNat + 1 then noteNop l 4 0x0304
    else loopStart ((rdD l d).truncate 16) last false l) s)

/-- LPOP (R148): pops the top entry of the active bank; of an empty stack, nothing but a NOTE, each time. -/
def execLpop (lane : Nat) (ded : Bool) (s : State) : Host.Outcome State Fault Refusal :=
  .next (issue lane ded (flowInstr fun l =>
    match loopsOf l with
    | [] => noteNop l 0 0x0304
    | _ :: t => { lane := cacheDrop (setLoops t l) }) s)

/-- ILLEGAL_OP (R123): a reserved word issues as a no-operation with the NOTE ILLEGAL_OP. A word that is no reserved
encoding is not illegal, and nothing happens. -/
def execIllegalOp (lane : Nat) (ded : Bool) (word : W36) (s : State) : Host.Outcome State Fault Refusal :=
  .next (if (laneDecode lane ded word).isSome then s else issue lane ded (fun l => noteNop l 10 0x0302) s)

/-- LANE_EVENT_TAKE (03 R106, R107, R110): one slot in which EPC takes the address of the next instruction, the shadow
bank is selected, EVSRC is set, the PEND bit is cleared and the PC goes to the vector. -/
def execLaneEventTake (lane : Nat) (s : State) : Host.Outcome State Fault Refusal :=
  if s.wave.live = true ∧ (laneAt s lane).slot < laneBudget s ∧ mustTake (laneAt s lane) = true then
    let s := laneSee lane (onLane lane (fun l => sosAdvance l.slot (l.slot + 20) l) s)
    let l := laneAt s lane
    match topEvent l.evPend with
    | some (bit, src, vec) =>
      .next (onLane lane (fun _ => { l with
        cur := { l.cur with epc := if l.phase = .halting then l.haltAt else l.pc }
        evPend := l.evPend &&& ~~~ bit
        evSrc := src
        shadow := true
        phase := .run
        pc := vec
        slot := l.slot + 1
        cache := none
        cacheSave := l.cache.map fun c => (c.1, c.2.1, 0) }) s)
    | none => .next s
  else .next s

/-- The BLOCKS record of a block in the running plan, or in the plan of a pre-roll. -/
def blockRec (s : State) (key : Nat) : Option BlockRec :=
  if workOf key / 4096 = 6 then
    s.plan.swap.bind fun w => w.img.blocks.find? fun b => b.id == blockOf key
  else s.plan.run.bind fun i => i.blocks.find? fun b => b.id == blockOf key

/-- The endpoint code of a block channel (05 R518). -/
def blockCode (id ch : Nat) : Nat := 0x40000000 + id * 65536 + ch

/-- The endpoint code that the copy of a block in a pre-roll uses (a code the plan image reserves). -/
def preCode (id ch : Nat) : Nat := 0x48000000 + id * 65536 + ch

/-- The input channels from which an output channel of a block is computed (05 R164): its own channel in the blocks that work
channel by channel, the input that its band splits in a crossover, and every input in a custom block. -/
def chanInputs (b : BlockRec) (ch : Nat) : List Nat :=
  if b.type = 2 then [ch * b.chIn / b.chOut]
  else if b.type = 0x10 then List.range b.chIn
  else [ch]

/-- The OUT words of a Lane are handed to their consumers (03 R83, R84): those of a block and of its copy in a
pre-roll; a DUPLEX second copy and a second site hand on nothing. A channel computed from a word of an older wave repeats
its previous sample (01 R26). -/
def handOut (key : Nat) (s : State) : State :=
  match blockRec s key with
  | none => s
  | some b =>
    let l := laneAt s key
    if workOf key / 4096 = 5 ∨ 65536 ≤ key then s
    else
      (List.range b.chOut).foldl (fun s ch =>
        let code := if workOf key / 4096 = 6 then preCode b.id ch else blockCode b.id ch
        produce code (if (chanInputs b ch).any l.stale.contains then tget 0 s.sig.outCur code
          else tget 0 l.cur.x (0x40 + ch)) s) s

/-- LANE_WAVE_COMPLETE (R130): HALT completes once every event and SOS group is done: results in flight are written, the
OUT words are handed on, and all writes are committed. -/
def execLaneWaveComplete (lane : Nat) (s : State) : Host.Outcome State Fault Refusal :=
  let l := laneAt s lane
  if s.wave.live = true ∧ l.phase = .halting ∧ l.evPend = 0 ∧ l.evSrc = 0 ∧ l.sosQ = [] ∧ l.slot ≤ laneBudget s then
    let l' := settleAll l
    let s' := handOut lane (onLane lane (fun _ =>
      { l' with
        cmt := l'.cur, phase := .done, haltWait := false, mac := none
        fade := l'.fade.map fun p => (p.1 + 1, p.2) }) s)
    .next (if !gvSet l && gvSet l' then raise 0x0301 (blockOf lane) 0 s' else s')
  else .next s

/-- A HALT has used the last slot of the budget or an earlier one, and nothing is left for it to wait for (03 R120). -/
def haltReady (s : State) (l : LaneS) : Bool :=
  l.phase == .halting && l.evPend == 0 && l.evSrc == 0 && l.sosQ.isEmpty && decide (l.slot ≤ laneBudget s)

/-- The Lane has reached the end of its budget without completing HALT: its next slot lies past it, or it waits for a group
that may complete past it (03 R118, R120). -/
def overBudget (s : State) (l : LaneS) : Bool :=
  !haltReady s l && (decide (laneBudget s ≤ l.slot) ||
    match l.sosQ with
    | (g, t0) :: _ =>
      l.sosWait.isSome && decide (laneBudget s ≤ groupBound l g t0)
        || l.phase == .halting && decide (laneBudget s < groupBound l g t0)
    | [] => false)

/-- BUDGET_OVERRUN (03 R120): SEVERE; the wave is discarded and the block is stopped. -/
def execBudgetOverrun (lane : Nat) (s : State) : Host.Outcome State Fault Refusal :=
  let l := laneAt s lane
  if s.wave.live = true ∧ (l.phase = .run ∨ l.phase = .halting) ∧ overBudget s l = true then
    .next (laneStop lane 0x0306 s)
  else .next s

end Sys2Proof.Machine
end

