-- ==== Sys2Proof/Machine/Account.lean ====
section
/-! DEFINITION. The accounted length of a block's program (03 R118, R119; 04 R149): the longest way through it, slot by slot,
with the flow of control of the Lane itself. What a program computes is not followed, but for D registers that it loads with
an immediate or a link address: a loop whose count is not known that way counts 65,535 passes, and a jump whose target is not
known has no accounted length. -/

namespace Sys2Proof.Machine

/-- A way through a program: the Lane's flow of control, with its SOS groups and the slots of their accounted completion in
`sosQ`, and the D registers whose values the program has fixed. -/
structure AccS where
  /-- Flow of control. -/
  l : LaneS := {}
  /-- D registers of known value. -/
  known : Tab (Option W36) := []
deriving DecidableEq, Repr

/-- What an instruction makes of a way through a program. -/
inductive AccOut where
  /-- The way goes on. -/
  | more (a : AccS)
  /-- The program's wave, or the handler, ends; its length in slots. -/
  | ends (n : Nat)
  /-- The way has no accounted length, or breaks R119. -/
  | bad
deriving DecidableEq, Repr

/-- The D registers that an instruction writes. -/
def dWrites (i : Instr) : List (BitVec 4) :=
  let par (x y : Option ParLoad) : List (BitVec 4) := (x.map (·.d)).toList ++ (y.map (·.d)).toList
  match i with
  | .mov _ _ d _ => [d]
  | .add _ _ d _ _ => [d]
  | .adds _ _ d _ _ => [d]
  | .sub _ _ d _ _ => [d]
  | .subs _ _ d _ _ => [d]
  | .neg _ _ d _ => [d]
  | .negs _ _ d _ => [d]
  | .abs _ _ d _ => [d]
  | .and _ _ d _ _ => [d]
  | .or _ _ d _ _ => [d]
  | .xor _ _ d _ _ => [d]
  | .not _ _ d _ => [d]
  | .ash _ _ d _ _ => [d]
  | .lsh _ _ d _ _ => [d]
  | .min _ _ d _ _ => [d]
  | .max _ _ d _ _ => [d]
  | .mulf _ _ d _ _ => [d]
  | .muli _ _ d _ _ => [d]
  | .addi _ _ d _ _ => [d]
  | .addsi _ _ d _ _ => [d]
  | .andi _ _ d _ _ => [d]
  | .ori _ _ d _ _ => [d]
  | .xori _ _ d _ _ => [d]
  | .ashi _ _ d _ _ => [d]
  | .lshi _ _ d _ _ => [d]
  | .ldi _ _ d _ => [d]
  | .ldih _ _ d _ => [d]
  | .mpy _ _ _ _ _ _ x y => par x y
  | .mac _ _ _ _ _ _ x y => par x y
  | .msu _ _ _ _ _ _ x y => par x y
  | .mpyn _ _ _ _ _ _ x y => par x y
  | .pld _ _ x y => par x y
  | .ld _ _ _ _ d => [d]
  | .movah _ _ d _ => [d]
  | .moval _ _ d _ => [d]
  | .movag _ _ d _ => [d]
  | .mvfa _ _ d _ _ => [d]
  | .mvfc _ _ d _ => [d]
  | .call _ _ _ d _ => [d]
  | _ => []

/-- The registers of known value after an instruction at `pc`. -/
def knownAfter (pc : BitVec 12) (i : Instr) (k : Tab (Option W36)) : Tab (Option W36) :=
  let k' := (dWrites i).foldl (fun t d => tput none t d.toNat none) k
  match i with
  | .ldi _ _ d imm => tput none k' d.toNat (some (imm.signExtend 36))
  | .ldih _ _ d imm => tput none k' d.toNat ((tget none k d.toNat).map fun v => imm ++ v.truncate 24)
  | .call _ _ _ d _ => tput none k' d.toNat (some ((pc + 2).zeroExtend 36))
  | _ => k'

/-- The branch targets of a condition: a data-dependent branch goes either way (03 R118). -/
def condWays (cond : BitVec 4) (target : BitVec 12) : List (Option (BitVec 12)) :=
  if cond = 0 then [some target] else [some target, none]

/-- The instruction as the ways that its flow can take, none where a jump's target is not known. -/
def accIssue (i : Instr) (k : Tab (Option W36)) (l : LaneS) : Option (List Issued) :=
  let branch (ws : List (Option (BitVec 12))) : List Issued :=
    ws.map fun w => flowInstr (fun l => { lane := l, flow := .branch w }) l
  match i with
  | .halt _ _ => some [flowInstr (fun l => if l.shadow then { lane := l } else { lane := l, flow := .halt }) l]
  | .rete _ _ => some [flowInstr (fun l => if l.evSrc = 0 then { lane := l } else { lane := l, flow := .rete }) l]
  | .j _ _ c t => some (branch (condWays c t))
  | .call _ _ c _ t => some (branch (condWays c t))
  | .jr _ _ c d => (tget none k d.toNat).map fun v => branch (condWays c (v.truncate 12))
  | .rep _ _ count len => some [flowInstr (fun l =>
      if 0xFFF < l.pc.toNat + len.toNat + 1 then { lane := l }
      else loopStart count (l.pc + 1 + len.zeroExtend 12) true l) l]
  | .loop _ _ d last => some [flowInstr (fun l =>
      if last.toNat < l.pc.toNat + 1 then { lane := l }
      else loopStart (((tget none k d.toNat).getD 0xFFFF).truncate 16) last false l) l]
  | .lpop _ _ => some [flowInstr (fun l =>
      match loopsOf l with
      | [] => { lane := l }
      | _ :: t => { lane := cacheDrop (setLoops t l) }) l]
  | .ld _ _ m _ _ => some [{ lane := l, cost := if m = .p then pCost l else 1 }]
  | .firtap _ _ _ fromP _ _ _ => some [{ lane := l, cost := if fromP then pCost l else 1 }]
  | .firtapn _ _ _ fromP _ _ _ => some [{ lane := l, cost := if fromP then pCost l else 1 }]
  | _ => some [{ lane := l }]

/-- The groups of the SOS unit after an instruction in slot `l.slot` (03 R118): a group completes 39 slots per section after
the later of its SOSRUN and the completion of the group queued before it; a SOSWAIT lasts until its group completes. -/
def accSos (chains : List Chain) (i : Instr) (l : LaneS) : LaneS :=
  match i with
  | .sosrun _ _ g =>
    if sosEn l && !l.sosQ.any fun q => q.1 == g && decide (l.slot < q.2) then
      let t := max l.slot l.sosDone + 39 * ((chains.filter fun c => c.group == g.toNat).map (·.count)).sum
      { l with
        sosQ := (l.sosQ.filter fun q => q.1 != g) ++ [(g, t)]
        sosDone := t }
    else l
  | .soswait _ _ g =>
    let t := ((l.sosQ.filter fun q => q.1 == g).map (·.2)).foldl max 0
    { l with
      sosQ := l.sosQ.filter fun q => q.1 != g
      slot := max l.slot (t - 1) }
  | _ => l

/-- One instruction of a way. A program ends with its HALT, and every group that it has started must have been waited for
(03 R119); a handler ends with the delay slot of its RETE. -/
def accStep (prog : Nat → W36) (chains : List Chain) (handler : Bool) (a : AccS) : List AccOut :=
  let l := a.l
  let i := (laneDecode 0 false (prog l.pc.toNat)).getD (.nop 0 false)
  match accIssue i a.known (accSos chains i l) with
  | none => [.bad]
  | some ways => ways.map fun o =>
    match o.flow with
    | .stop => .bad
    | .halt => if l.sosQ.isEmpty then .ends (l.slot + 1) else .bad
    | _ =>
      let n := advance o
      if handler && !n.shadow then .ends n.slot
      else .more { l := n, known := knownAfter l.pc i a.known }

/-- A way joins those that are known already. -/
def accJoin (ws : List AccS) (a : AccS) : List AccS := if ws.contains a then ws else a :: ws

/-- All ways from slot `t` on, for `n` more slots: the longest length, or none when one way does not end in them. -/
def accRun (prog : Nat → W36) (chains : List Chain) (handler : Bool) : Nat → Nat → Nat → List AccS → Option Nat
  | 0, _, best, ws => if ws.isEmpty then some best else none
  | n + 1, t, best, ws =>
    let outs := (ws.filter fun a => a.l.slot == t).flatMap (accStep prog chains handler)
    if outs.contains .bad then none
    else
      let ends := outs.filterMap fun o => match o with
        | .ends k => some k
        | _ => none
      let more := outs.filterMap fun o => match o with
        | .more a => some a
        | _ => none
      let ws := more.foldl accJoin (ws.filter fun a => a.l.slot != t)
      if ws.isEmpty then some (ends.foldl max best) else accRun prog chains handler n (t + 1) (ends.foldl max best) ws

/-- The Lane at the start of a way: the block's LCTL, and for a handler its vector in the shadow bank. -/
def accStart (lctl : W36) (vec : Option (BitVec 12)) : LaneS :=
  { cur := { lctl := lctl }, phase := .run, pc := vec.getD 0, shadow := vec.isSome, evSrc := if vec.isSome then 1 else 0 }

/-- The accounted length of a program (03 R118): its longest way, and for every enabled source one slot and its longest
handler; none when it does not lie within `budget`, or breaks R119. -/
def accounted (prog : List W36) (lctl : W36) (chains : List Chain) (budget : Nat) : Option Nat :=
  let word (a : Nat) : W36 := prog.getD a 0
  let way (vec : Option (BitVec 12)) : Option Nat :=
    accRun word chains vec.isSome (budget + 1) 0 0 [{ l := accStart lctl vec }]
  let vecs : List (BitVec 12) := [(10, 0x004), (9, 0x008), (8, 0x00C)].filterMap fun p =>
    if lctl.getLsbD p.1 then some (BitVec.ofNat 12 p.2) else none
  let total := vecs.foldl (fun (t : Option Nat) v => t.bind fun n => (way (some v)).map fun k => n + 1 + k) (way none)
  total.bind fun n => if n ≤ budget then some n else none

end Sys2Proof.Machine
end

