-- ==== Sys2Proof/Machine/Placement.lean ====
section
/-! DEFINITION. Placement of work on districts, slots and tiles: the Dispatcher's choices, moves, audits, health,
retirement and shedding, as operations (06 R184 to R210), and the VDD_CORE requests they make (13 R436). -/

namespace Sys2Proof.Machine

/-! ### Districts and tiles (01 R13, R14; R185) -/

/-- A mix district. -/
def distMix (d : Nat) : Bool := decide (d < 12)

/-- Quarter of a district. -/
def quarterOf (d : Nat) : Nat := if d < 12 then d / 3 else (d - 12) / 10

/-- The work is a Square of some kind (R214). -/
def workMix (w : Nat) : Bool := decide (w < 0x4000)

/-- Tile `k` = district x 8 + tile. -/
def tileAt (s : State) (k : Nat) : TileS := tget {} s.place.tiles k

/-- A change of one tile. -/
def onTile (k : Nat) (f : TileS → TileS) (s : State) : State :=
  s.onPlace fun p => { p with tiles := tmod {} p.tiles k f }

/-- A change of one piece of work. -/
def onWork (w : Nat) (f : WorkS → WorkS) (s : State) : State :=
  s.onPlace fun p => { p with works := tmod {} p.works w f }

/-- A change of one district. -/
def onDist (d : Nat) (f : DistS → DistS) (s : State) : State :=
  s.onPlace fun p => { p with dist := tmod {} p.dist d f }

/-- A piece of work. -/
def workAt (s : State) (w : Nat) : WorkS := tget {} s.place.works w

/-- Healthy and not retired (R185). -/
def tileOk (s : State) (k : Nat) : Bool := !(tileAt s k).failed && !(tileAt s k).retired

/-- The work of a district. -/
def occupants (s : State) (d : Nat) : Tab WorkS := s.place.works.filter fun p => p.2.placed && p.2.district == d

/-- Tiles of a district that carry placed work or the second site of a move or audit. -/
def busyTiles (s : State) (d : Nat) : List Nat :=
  (occupants s d).map (·.2.tile) ++ (s.place.moving.filter fun m => m.dd == d).map (·.dt)

/-- Healthy tiles, h. -/
def healthyTiles (s : State) (d : Nat) : List Nat := (List.range 8).filter fun t => tileOk s (d * 8 + t)

/-- Idle tiles. -/
def idleTiles (s : State) (d : Nat) : List Nat := (healthyTiles s d).filter fun t => !(busyTiles s d).contains t

/-- Tiles that hold no placed work: IDLE of R215, the second sites of audits and moves among them (R185). -/
def unplacedTiles (s : State) (d : Nat) : List Nat :=
  (healthyTiles s d).filter fun t => !((occupants s d).any fun p => p.2.tile == t)

/-- Slots offered: min(7, h). -/
def offered (s : State) (d : Nat) : Nat := min 7 (healthyTiles s d).length

/-- Slots of a district that hold no work and that no move has taken. -/
def freeSlots (s : State) (d : Nat) : List Nat :=
  (List.range (offered s d)).filter fun x =>
    !(occupants s d).any (fun p => p.2.slot == x)
      && !s.place.moving.any (fun m => m.dd == d && m.ds == x && (m.kind == .planned || m.kind == .urgent))

/-- Free slots of one kind of tile: FREE_SQUARE and FREE_LANE; 0 until the self-test completes (R211). -/
def freeCount (s : State) (mix : Bool) : Nat :=
  if s.place.selfTest then
    (((List.range 52).filter fun d => distMix d == mix).map fun d =>
      offered s d - (occupants s d).length).sum
  else 0

/-! ### Relative speed and predicted slack (R187, R188) -/

/-- Median speed of a quarter's working tiles of one kind in the last window, in thousand steps per second; the
guaranteed worst-corner speed (01 R18) while none has been measured. -/
def medianOf (s : State) (d : Nat) : Nat :=
  match tget 0 s.place.medians (quarterOf d * 2 + b2n (distMix d)) with
  | 0 => if distMix d then 465116 else 800000
  | n + 1 => n + 1

/-- Program words of a block. -/
def progOf (img : Image) (b : BlockRec) : List W36 := (img.progs.drop b.progFirst).take b.progLen

/-- Accounted length of a block (03 R118), as the reading of its image has counted it (log entry 16). -/
def accountedOf (b : BlockRec) : Nat := b.acc.getD 0

/-- Work per wave: MAC steps per cell of a Square, accounted slots of a Lane (R188). -/
def workLen (s : State) (w : Nat) : Nat :=
  if workMix w then (if is192 s then 2048 else 4096)
  else
    match (if w / 4096 = 6 then s.plan.swap.map (·.img) else s.plan.run) with
    | none => 0
    | some i =>
      match i.blocks.find? fun b => b.id == w % 4096 with
      | some b => accountedOf b
      | none => 0

/-- Predicted slack of a piece of work on a tile. -/
def predicted (s : State) (w d t : Nat) : Nat :=
  let rate := medianOf s d * (tileAt s (d * 8 + t)).rs / 256 * 1000
  let need := workLen s w * hz s
  if rate ≤ need then 0 else min 255 (256 * (rate - need) / rate)

/-! ### Choice of a slot (R186, R187) -/

/-- Work that must lie in another district. -/
def siblings (s : State) (w : Nat) : List Nat :=
  let q := alleySq s
  if w < 0x1000 then
    (if is192 s then [0x1000 + w] else []) ++ (if q = some w then [0x2000, 0x2001] else [])
  else if w < 0x2000 then [w - 0x1000]
  else if w < 0x3000 then
    (if w = 0x2000 then [0x2001] else [0x2000]) ++ (match q with
      | some q => [q]
      | none => [])
  else if w < 0x5000 then [w + 0x1000]
  else if w < 0x6000 then [w - 0x1000, w + 0x1000]
  else [w - 0x1000]

/-- The work also wants another quarter than its siblings. -/
def wantsQuarter (s : State) (w : Nat) : Bool :=
  decide (0x2000 ≤ w ∧ w < 0x6000) || alleySq s == some w

/-- Districts and quarters of the placed siblings. -/
def sibDistricts (s : State) (w : Nat) : List Nat :=
  ((siblings s w).filter fun x => (workAt s x).placed).map fun x => (workAt s x).district

/-- The work may lie in the district. -/
def allowedIn (s : State) (quarter : Bool) (w d : Nat) : Bool :=
  distMix d == workMix w && !(sibDistricts s w).contains d
    && !(quarter && (sibDistricts s w).any fun x => quarterOf x == quarterOf d)

/-- A site: district, slot, tile and predicted slack. -/
abbrev Site := Nat × Nat × Nat × Nat

/-- The idle tile of a district with the highest relative speed. -/
def bestTile (s : State) (d : Nat) : Option Nat :=
  (idleTiles s d).foldl (fun b t =>
    match b with
    | none => some t
    | some u => if (tileAt s (d * 8 + u)).rs < (tileAt s (d * 8 + t)).rs then some t else some u) none

/-- The lowest free slot of a district, on its best idle tile. -/
def siteIn (s : State) (w d : Nat) : Option Site :=
  match freeSlots s d, bestTile s d with
  | x :: _, some t => some (d, x, t, predicted s w d t)
  | _, _ => none

/-- The piece's own slot on an idle tile of its own district. -/
def siteHere (s : State) (w : Nat) : Option Site :=
  let k := workAt s w
  (bestTile s k.district).map fun t => (k.district, k.slot, t, predicted s w k.district t)

/-- The site of highest predicted slack among districts; ties go to the lowest district and slot. -/
def bestOf (s : State) (w : Nat) (ds : List Nat) : Option Site :=
  ds.foldl (fun b d =>
    match siteIn s w d with
    | none => b
    | some x =>
      match b with
      | none => some x
      | some y => if y.2.2.2 < x.2.2.2 then some x else some y) none

/-- The best site that R186 allows among the districts `ds`. -/
def bestSlot (s : State) (w : Nat) (ds : List Nat) : Option Site :=
  let first := if wantsQuarter s w then bestOf s w (ds.filter (allowedIn s true w)) else none
  match first with
  | some x => some x
  | none => bestOf s w (ds.filter (allowedIn s false w))

/-- Every district. -/
def allDistricts : List Nat := List.range 52

/-- Put a piece of work on a site. -/
def settleWork (w : Nat) (x : Site) (s : State) : State :=
  onWork w (fun k => { k with placed := true, district := x.1, slot := x.2.1, tile := x.2.2.1, winMin := none, below := 0 }) s

/-! ### The work of a plan (R184, 05 R176) -/

/-- Blocks that occupy a Lane: every type but the delay block (05 R151, R164). -/
def laneBlocks (i : Image) : List BlockRec := i.blocks.filter fun b => b.type != 6

/-- Every piece of work of a plan at a rate. -/
def planWorks (i : Image) : List Nat :=
  (if i.alleyBlock.isSome then [0x2000, 0x2001] else [])
    ++ (if i.rate = .r192 then (List.range 40) ++ (List.range 40).map (0x1000 + ·) else List.range 80)
    ++ (laneBlocks i).map (0x4000 + ·.id)
    ++ ((laneBlocks i).filter (·.duplex)).map (0x5000 + ·.id)

/-- Pinned district of a piece of work; a pre-roll copy has the pin of its block (R208). -/
def pinOf (i : Image) (w : Nat) : Option Nat :=
  let v := if w / 4096 = 6 then w - 0x2000 else w
  (i.pins.find? fun p => p.work == v).map (·.district)

/-- Place one piece of work of a plan; the second component says whether every piece so far has a slot. -/
def placeOne (i : Image) (w : Nat) (p : State × Bool) : State × Bool :=
  let ds := match pinOf i w with
    | some d => [d]
    | none => allDistricts
  let s := onWork w (fun k => { k with pin := pinOf i w }) p.1
  match bestSlot s w ds with
  | some x => (settleWork w x s, p.2)
  | none => (s, false)

/-- Place all the work of the plan that `s` runs, pinned work first, the Alley before the rest; and whether all of it
fits. -/
def placeAll (i : Image) (s : State) : State × Bool :=
  let s := s.onPlace fun p => { p with works := [], moving := [], waits := [] }
  let all := planWorks i
  let pinned := all.filter fun w => (pinOf i w).isSome
  let rest := all.filter fun w => (pinOf i w).isNone
  let alley := rest.filter fun w => wantsQuarter { s with plan := { s.plan with run := some i } } w
  let plain := rest.filter fun w => !wantsQuarter { s with plan := { s.plan with run := some i } } w
  (pinned ++ alley ++ plain).foldl (fun p w => placeOne i w p) (s, true)

/-- The plan fits the slots offered now (R207): placement on a state that would run it. -/
def planFits (i : Image) (s : State) : Bool :=
  (placeAll i { s with
    plan := { s.plan with run := some i }
    wave := { s.wave with rate := some i.rate } }).2

/-! ### VDD_CORE requests (13 R436) -/

/-- A request for a raise: one code up, at most once per 10 ms; at CEILING DEGRADE, at most once per 3,600 s. The
controller works from READY on. -/
def vcoreRequest (s : State) : State :=
  if s.host.fwState = 5 then
    let c := s.clk
    let s := s.onClk fun c => { c with vReqAt := c.now }
    if c.ceil ≤ c.vid then
      let due := match c.vCeilAt with
        | some t => decide (t + 3600000000 ≤ c.now)
        | none => true
      if due then raise 0x0905 0 0 (s.onClk fun c => { c with vCeilAt := some c.now }) else s
    else
      let due := match c.vUpAt with
        | some t => decide (t + 10000 ≤ c.now)
        | none => true
      if due then s.onClk fun c => { c with vid := c.vid + 1, vUpAt := some c.now } else s
  else s

/-- VCORE_LOWER (13 R436): after 600 s without a request and with ample slack the code falls by one, not below FLOOR. -/
def execVcoreLower (s : State) : Host.Outcome State Fault Refusal :=
  .next (if s.host.fwState = 5 ∧ s.clk.vReqAt + 600000000 ≤ s.clk.now ∧ s.clk.floor < s.clk.vid then
    s.onClk fun c => { c with vid := c.vid - 1, vReqAt := c.now }
  else s)

/-! ### Moves (R192 to R195) -/

/-- The next wave to be launched. -/
def nextWave (s : State) : BitVec 64 := if s.wave.live then s.wave.num + 1 else nextTick s

/-- OBJECT of a piece of work where it is now. -/
def workObj (s : State) (w : Nat) : Nat := objWork w (workAt s w).district (workAt s w).slot

/-- OBJECT of a district without a piece of work (log entry 17). -/
def distObj (d : Nat) : Nat := objWork 0xFFFF d 0xFF

/-- A transfer or shadow run uses a district (R195). -/
def holds (m : MoveS) : Bool := m.kind == .planned || m.kind == .urgent || m.j.isNone

/-- The district is source or target of a transfer or shadow run. -/
def heldDistrict (s : State) (d : Nat) : Bool := s.place.moving.any fun m => holds m && (m.sd == d || m.dd == d)

/-- Transfers and shadow runs in progress. -/
def migrating (s : State) : Nat := (s.place.moving.filter holds).length

/-- The second site of a Lane is dropped. -/
def dropSecond (w : Nat) (s : State) : State := { s with lanes := tput {} s.lanes (0x10000 + w) {} }

/-- A move leaves the list. -/
def endMove (m : MoveS) (s : State) : State :=
  dropSecond m.work (s.onPlace fun p => { p with moving := p.moving.filter (· != m) })

/-- A transfer, shadow run, audit or tie-break is abandoned; a planned move with its NOTE, and a new target for it is tried
at the end of the next window (R194). -/
def abandon (m : MoveS) (s : State) : State :=
  let s := endMove m s
  if m.kind = .planned then
    raise 0x0405 (workObj s m.work) 0
      (onWork m.work (fun k => { k with
          below := 0
          retry := some (k.why, 2) })
        (s.onPlace fun p => { p with nAbandon := satAdd p.nAbandon 1 }))
  else s

/-- Everything in progress is abandoned (R210). -/
def abandonAll (s : State) : State :=
  let s := s.place.moving.foldl (fun s m => abandon m s) s
  s.onPlace fun p => { p with
    waits := []
    ties := []
    dist := (List.range 52).foldl (fun t d =>
      tmod {} t d fun q => { q with auditNext := 0, auditAt := s.clk.now, wrapped := false }) p.dist }

/-- The move of a piece of work in progress. -/
def moveOf (s : State) (w : Nat) : Option MoveS := s.place.moving.find? fun m => m.work == w && m.kind != .tieBreak

/-- Start the transfer of a piece of work to a site at flip `f` (R192). -/
def startMove (kind : MoveKind) (w : Nat) (x : Site) (k : Nat) (f : BitVec 64) (s : State) : State :=
  let o := workAt s w
  let m : MoveS := { work := w, kind := kind, sd := o.district, ss := o.slot, st := o.tile,
                     dd := x.1, ds := x.2.1, dt := x.2.2.1, f := f, k := k }
  s.onPlace fun p => { p with moving := p.moving ++ [m] }

/-- Work leaves its pinned district (R208). -/
def breakPin (w : Nat) (s : State) : State :=
  if (workAt s w).pinBroken then s
  else raise 0x040C (workObj s w) 0
    (onWork w (fun k => { k with pinBroken := true }) (s.onPlace fun p => { p with pinBroken := true }))

/-- A piece of work has a place; its pin breaks or is restored with it (R208). -/
def pinCheck (w : Nat) (s : State) : State :=
  match (workAt s w).pin with
  | some d =>
    if (workAt s w).district = d then onWork w (fun k => { k with pinBroken := false }) s else breakPin w s
  | none => s

/-- The new site takes over (R191, R193): MOVE_DONE and the counters. -/
def takeOver (m : MoveS) (s : State) : State :=
  let second := tget {} s.lanes (0x10000 + m.work)
  let s := if m.kind = .planned ∧ workMix m.work = false then
      { s with lanes := tput {} s.lanes m.work second }
    else s
  let s := endMove m s
  let s := onWork m.work (fun k => { k with
    placed := true
    district := m.dd
    slot := m.ds
    tile := m.dt
    below := 0
    warn := false
    unaudited := k.unaudited || m.kind == .urgent
    winMin := none
    slackRead := 0xFF
    moves := satAdd k.moves 1
    lastMove := (sampleNow s).truncate 32 }) s
  let s := s.onPlace fun p => { p with
    moveCount := satAdd p.moveCount 1
    nPlanned := if m.kind = .urgent then p.nPlanned else satAdd p.nPlanned 1
    nUrgent := if m.kind = .urgent then satAdd p.nUrgent 1 else p.nUrgent
    urgent := p.urgent || m.kind == .urgent }
  let s := onDist m.dd (fun d => { d with moves := satAdd d.moves 1 }) s
  let s := if m.sd = m.dd then s else onDist m.sd (fun d => { d with moves := satAdd d.moves 1 }) s
  let data := m.sd + m.ss * 256 + m.dd * 65536 + m.ds * 16777216
  pinCheck m.work (raise 0x0404 (workObj s m.work) (BitVec.ofNat 64 data) s)

/-- Which reason stands when a piece of work that waits has another one: a move that is dropped without a target, for slack or
rebalancing, gives way to a return to the pin, that to a lost comparison, and every one to a retirement. -/
def reasonRank (r : Nat) : Nat := if r = 0 ∨ r = 3 then 0 else if r = 2 then 1 else if r = 1 then 3 else 2

/-- A move is decided and waits for its turn (R195). -/
def decideMove (w reason : Nat) (s : State) : State :=
  let waits := s.place.waits
  let next := if waits.any fun q => q.1 == w then
      waits.map fun q => if q.1 = w ∧ reasonRank q.2 < reasonRank reason then (w, reason) else q
    else waits ++ [(w, reason)]
  s.onPlace fun p => { p with waits := next }

/-- A given tile as the site of a piece of work, when it is free to take it. -/
def siteOn (s : State) (w d t : Nat) : Option Site :=
  let k := workAt s w
  if (idleTiles s d).contains t then
    if d = k.district then some (d, k.slot, t, predicted s w d t)
    else if allowedIn s false w d then (freeSlots s d).head?.map fun x => (d, x, t, predicted s w d t)
    else none
  else none

/-- The site of a planned move by its reason: 0 slack (R189), 1 retirement (R201), 2 a broken pin (R208), 3 an idle tile
for audit (R204), 4 a lost vote or an unresolved comparison (R63, R198), for which pinned work does not leave its district
(R208); from 16 on, a comparison that was lost to the tile `reason` - 16 (R198). -/
def plannedSite (s : State) (w reason : Nat) : Option Site :=
  let k := workAt s w
  let away := allDistricts.filter (· != k.district)
  match reason with
  | 0 =>
    let x := match k.pin with
      | some _ => siteHere s w
      | none => bestSlot s w allDistricts
    match x with
    | some x => if s.place.warn.toNat ≤ x.2.2.2 then some x else none
    | none => none
  | 1 =>
    match siteHere s w with
    | some x => some x
    | none => bestSlot s w away
  | 2 => k.pin.bind fun d => siteIn s w d
  | 3 => bestSlot s w away
  | 4 =>
    match k.pin with
    | some _ => siteHere s w
    | none => (bestSlot s w allDistricts).or (siteHere s w)
  | r =>
    let third := if r < 16 then none else siteOn s w ((r - 16) / 8) ((r - 16) % 8)
    match k.pin with
    | some _ =>
      (third.filter fun x => x.1 == k.district).or ((siteHere s w).or (third.or (bestSlot s w away)))
    | none => third.or ((bestSlot s w allDistricts).or (siteHere s w))

/-- One decided move starts when its districts are free and fewer than 8 run, and not before an abandoned one may be tried
again (R194); a slack move or a rebalancing without a target is dropped. -/
def tryWait (f : BitVec 64) (s : State) (p : Nat × Nat) : State :=
  let drop (s : State) : State := s.onPlace fun q => { q with waits := q.waits.filter (· != p) }
  if (workAt s p.1).placed = false then drop s
  else if (moveOf s p.1).isSome ∨ (workAt s p.1).retry.isSome ∨ 8 ≤ migrating s then s
  else
    match plannedSite s p.1 p.2 with
    | none => if p.2 = 0 ∨ p.2 = 3 then drop s else s
    | some x =>
      if heldDistrict s (workAt s p.1).district || heldDistrict s x.1 then s
      else startMove .planned p.1 x s.place.shadowK.toNat f (onWork p.1 (fun k => { k with why := p.2 }) (drop s))

/-- A broken pin is restored as soon as the pinned district has a free slot (R208). -/
def pinReturns (s : State) : State :=
  s.place.works.foldl (fun s p =>
    match p.2.pin with
    | some d =>
      if p.2.placed && p.2.pinBroken && !(freeSlots s d).isEmpty && (moveOf s p.1).isNone && p.2.retry.isNone then
        decideMove p.1 2 s
      else s
    | none => s) s

/-- A site for an urgent move (R191, R208): pinned work goes to an idle tile of its pinned district when one exists. -/
def urgentSite (s : State) (w : Nat) : Option Site :=
  let k := workAt s w
  match k.pin with
  | some d =>
    match (if k.district = d then siteHere s w else siteIn s w d) with
    | some x => some x
    | none => (bestSlot s w (allDistricts.filter (· != d))).or (siteHere s w)
  | none =>
    match bestSlot s w allDistricts with
    | some x => some x
    | none => siteHere s w

/-- Abandoned moves whose time has come are decided again, at the end of a window (R194). -/
def retryMoves (s : State) : State :=
  s.place.works.foldl (fun s p =>
    match p.2.retry with
    | some (r, n + 2) => onWork p.1 (fun k => { k with retry := some (r, n + 1) }) s
    | some (r, _) => decideMove p.1 r (onWork p.1 (fun k => { k with retry := none }) s)
    | none => s) s

/-- An urgent move of a piece of work at the flip `f` (R191, R195): it abandons what holds its work, its target or its
districts. -/
def urgentMove (w : Nat) (f : BitVec 64) (s : State) : State :=
  if ((moveOf s w).any fun m => m.kind == .urgent) || nolutDown s then s
  else
    let s := match moveOf s w with
      | some m => abandon m s
      | none => s
    if (workAt s w).placed then
      let s := match urgentSite s w with
        | some _ => s
        | none => (s.place.moving.filter fun m => m.kind == .planned && workMix m.work == workMix w).foldl
            (fun s m => abandon m s) s
      match urgentSite s w with
      | some x =>
        let rivals := s.place.moving.filter fun m =>
          m.kind == .planned && (m.sd == x.1 || m.dd == x.1 || m.sd == (workAt s w).district
            || m.dd == (workAt s w).district)
        startMove .urgent w x 0 f (rivals.foldl (fun s m => abandon m s) s)
      | none => s
    else s

/-! ### Tie-breaks and losses (R198, R200) -/

/-- A tile loses a tie-break. -/
def tileLoses (w d slot t : Nat) (s : State) : State :=
  let s := s.onPlace fun p => { p with nLosses := satAdd p.nLosses 1, audLoss := true }
  let s := onDist d (fun q => { q with losses := satAdd q.losses 1 }) s
  let s := onTile (d * 8 + t) (fun q => { q with lossTo := q.lossTo ++ [s.clk.now + 604800000000] }) s
  raise 0x0408 (objWork w d slot) 0 s

/-- A double-bit error in a tile's memories counts as a loss (R200). -/
def tileDed (d t : Nat) (s : State) : State :=
  onTile (d * 8 + t) (fun q => { q with lossTo := q.lossTo ++ [s.clk.now + 604800000000] }) s

/-- AUDIT_UNRESOLVED: no tile is penalised and the work moves when a target exists. -/
def unresolved (w : Nat) (s : State) : State :=
  decideMove w 4 (raise 0x0409 (workObj s w) 0 (s.onPlace fun p => { p with nUnres := satAdd p.nUnres 1 }))

/-- A third tile for a tie-break, idle in a district of `ds` of the kind. -/
def thirdTile (s : State) (w od ot : Nat) (ds : List Nat) : Option (Nat × Nat) :=
  ds.findSome? fun d =>
    if distMix d == workMix w then
      ((idleTiles s d).find? fun t => !(d == od && t == ot)).map fun t => (d, t)
    else none

/-- A difference between the placed tile and another tile starts a tie-break on a third tile, idle in any district of
the kind, whose transfer waits for its districts like every other (R195); without one it is unresolved, and both tiles are
marked for the next audit. -/
def startTie (w od ot : Nat) (s : State) : State :=
  let s := s.onPlace fun p => { p with ties := p.ties.filter (·.1 != w) }
  if s.place.moving.any (fun m => m.work == w && m.kind == .tieBreak) then s
  else
    let o := workAt s w
    match thirdTile s w od ot allDistricts with
    | none =>
      unresolved w (onDist od (fun q => { q with auditTile := ot }) (onWork w (fun k => { k with unaudited := true }) s))
    | some _ =>
      let third := if heldDistrict s o.district || decide (8 ≤ migrating s) then none
        else thirdTile s w od ot (allDistricts.filter fun d => !heldDistrict s d)
      match third with
      | some (d, t) =>
        let m : MoveS := { work := w, kind := .tieBreak, sd := o.district, ss := o.slot, st := o.tile, dd := d, ds := 0xFF,
                           dt := t, f := nextWave s, od := od, ot := ot }
        s.onPlace fun p => { p with moving := p.moving ++ [m] }
      | none => s.onPlace fun p => { p with ties := p.ties ++ [(w, od, ot)] }

/-- Tie-breaks and decided moves start at a flip, in order of decision (R192, R195, R198). -/
def startWaits (f : BitVec 64) (s : State) : State :=
  if nolutDown s then s
  else
    let s := pinReturns (s.place.ties.foldl (fun s t =>
      if (workAt s t.1).placed then startTie t.1 t.2.1 t.2.2 s
      else s.onPlace fun p => { p with ties := p.ties.filter (·.1 != t.1) }) s)
    s.place.waits.foldl (tryWait f) s

/-- The Alley copy that lost a vote is re-placed (02 R63). -/
def replaceCopy (c : Nat) (s : State) : State :=
  match c with
  | 0 =>
    match alleySq s with
    | some q => decideMove q 4 s
    | none => s
  | n + 1 => decideMove (0x2000 + n) 4 s

/-! ### Retirement and shedding (R201, R204, R205) -/

/-- The shedding order of one kind of tile (R205); at 192 kHz the second half of a logical Square goes before its first. -/
def shedOrder (s : State) (mix : Bool) : List Nat :=
  let placed := ((s.place.works.filter fun p => p.2.placed && workMix p.1 == mix).map (·.1)).reverse
  if mix then
    let a := alleySq s
    let squares := (placed.filter fun w => decide (w < 0x2000)).mergeSort fun x y =>
      decide (y % 0x1000 < x % 0x1000 ∨ (y % 0x1000 = x % 0x1000 ∧ y ≤ x))
    placed.filter (· == 0x2000)
      ++ (squares.filter fun w => a != some (w % 0x1000)) ++ (squares.filter fun w => a == some (w % 0x1000))
      ++ placed.filter (· == 0x2001)
  else
    let blocks := placed.filter fun w => decide (w < 0x5000)
    (placed.filter fun w => decide (0x5000 ≤ w ∧ w < 0x6000))
      ++ blocks.filter (fun w => (workAt s w).pin.isNone) ++ blocks.filter (fun w => (workAt s w).pin.isSome)

/-- Work loses its slot. -/
def shedWork (w : Nat) (s : State) : State :=
  let s := (s.place.moving.filter fun m => m.work == w).foldl (fun s m => abandon m s) s
  let o := workObj s w
  raise 0x040E o 0 (onWork w (fun k => { k with placed := false, district := 0xFF, slot := 0xFF })
    (s.onPlace fun p => { p with shortfall := true }))

/-- Every SHORTFALL condition ends (14 R517). -/
def clearShort (s : State) : State :=
  (s.flt.cond.filter fun c => c / 2 ^ 32 == 0x040E).foldl (fun s c => endCond 0x040E (c % 2 ^ 32) s)
    (s.onPlace fun p => { p with shortfall := false })

/-- Every piece of work holds a slot, or there is none: SHORTFALL ends. -/
def endShortfall (s : State) : State := if s.place.works.all fun p => p.2.placed then clearShort s else s

/-- A new plan's work that found no slot is shed (R205); what the plan before it lacked is over. -/
def newShortfall (s : State) : State :=
  (s.place.works.filter fun p => !p.2.placed).foldl (fun s p =>
    raise 0x040E (objWork p.1 0xFF 0xFF) 0 (s.onPlace fun q => { q with shortfall := true })) (clearShort s)

/-- Shed until the work of one kind fits its healthy tiles; at most `n` pieces. -/
def shed (mix : Bool) : Nat → State → State
  | 0, s => s
  | n + 1, s =>
    let ds := allDistricts.filter fun d => distMix d == mix
    let used := (ds.map fun d => (occupants s d).length).sum
    let have_ := (ds.map fun d => (healthyTiles s d).length).sum
    let short := ds.any fun d => decide ((healthyTiles s d).length < (occupants s d).length)
    let free := ds.any fun d => !(freeSlots s d).isEmpty && !(unplacedTiles s d).isEmpty
    if short && (!free || decide (have_ < used)) then
      match shedOrder s mix with
      | w :: _ => shed mix n (shedWork w s)
      | [] => s
    else s

/-- A piece in a slot that its district no longer offers takes the lowest one that is free. -/
def renumber (d : Nat) (s : State) : State :=
  (occupants s d).foldl (fun s p =>
    if offered s d ≤ p.2.slot then
      match freeSlots s d with
      | x :: _ => onWork p.1 (fun k => { k with slot := x }) s
      | [] => s
    else s) s

/-- The consequences of lost tiles, in the order of R204. -/
def rebalance (mix : Bool) (s : State) : State :=
  let ds := allDistricts.filter fun d => distMix d == mix
  let s := ds.foldl (fun s d =>
    if (unplacedTiles s d).isEmpty && !(occupants s d).isEmpty then
      let free := ds.any fun e => e != d && !(freeSlots s e).isEmpty && !(unplacedTiles s e).isEmpty
      if free then
        match (occupants s d).reverse.find? fun p => p.2.pin.isNone && p.2.retry.isNone with
        | some p => if (moveOf s p.1).isSome then s else decideMove p.1 3 s
        | none => s
      else if (tget {} s.place.dist d).gap then s
      else raise 0x040B (distObj d) 0 (onDist d (fun q => { q with gap := true }) s)
    else if (tget {} s.place.dist d).gap then
      endCond 0x040B (distObj d) (onDist d (fun q => { q with gap := false }) s)
    else s) s
  shed mix 400 s

/-- A tile is retired (R201): never used again; its work moves by a planned shadow run. -/
def retireTile (d t : Nat) (s : State) : State :=
  if (tileAt s (d * 8 + t)).retired then s
  else
    let mine := (occupants s d).filter fun p => p.2.tile == t
    let o := match mine with
      | p :: _ => objWork p.1 d p.2.slot
      | [] => distObj d
    let s := onTile (d * 8 + t) (fun q => { q with retired := true }) (s.onPlace fun p => { p with retired := true })
    let s := (s.place.moving.filter fun m => m.dd == d && m.dt == t).foldl (fun s m => abandon m s) s
    let s := raise 0x0006 0 0 (raise 0x040A o 0 s)
    let s := mine.foldl (fun s p => decideMove p.1 1 s) s
    rebalance (distMix d) (renumber d s)

/-! ### What the windows record (R188 to R190) -/

/-- Single-bit corrections in a tile's memories count for its health (R200). -/
def noteEcc (k n : Nat) (s : State) : State :=
  if n = 0 then s else onTile k (fun q => { q with eccAt := List.replicate n s.clk.now ++ q.eccAt }) s

/-- The slack of a completed tile (01 R24) and its memory corrections (R200). -/
def noteSlack (w : Nat) (slack : BitVec 8) (ecc : Nat) (s : State) : State :=
  let lower (o : Option (BitVec 8)) : Option (BitVec 8) := match o with
    | some v => some (if slack < v then slack else v)
    | none => some slack
  let s := onWork w (fun k => { k with
    slackNow := slack
    slackRead := if slack < k.slackRead then slack else k.slackRead
    winMin := lower k.winMin }) s
  let k := workAt s w
  let s := s.onWave fun x => { x with minAcc := lower x.minAcc }
  noteEcc (k.district * 8 + k.tile) ecc s

/-- The middle of a sorted list; between the two middle values when their number is even. -/
def medianNat (l : List Nat) : Nat :=
  let m := l.mergeSort (· ≤ ·)
  if l.length % 2 = 1 then m.getD (l.length / 2) 0
  else (m.getD (l.length / 2 - 1) 0 + m.getD (l.length / 2) 0) / 2

/-- A tile that carries placed work. -/
def working (s : State) (k : Nat) : Bool := (occupants s (k / 8)).any fun p => p.2.tile == k % 8

/-- RS of one tile from its measured speed. -/
def noteSpeed (p : Nat × Nat) (s : State) : State :=
  let m := medianOf s (p.1 / 8)
  let rs := min 511 (p.2 * 256 / m)
  onTile p.1 (fun q => { q with
    rs := rs
    rsAt := (s.clk.now, rs) :: q.rsAt.filter fun x => decide (s.clk.now ≤ x.1 + 3600000000) }) s

/-- The medians of a window, from the speeds of its working tiles. -/
def noteMedians (speeds : List (Nat × Nat)) (s : State) : State :=
  (List.range 8).foldl (fun t i =>
    let mine := speeds.filter fun p =>
      working s p.1 && quarterOf (p.1 / 8) * 2 + b2n (distMix (p.1 / 8)) == i
    match mine with
    | [] => t
    | _ => t.onPlace fun q => { q with medians := tput 0 q.medians i (medianNat (mine.map (·.2))) }) s

/-- The actions of R189 on one piece of work at the end of a window. While a move of the work is in progress there is nothing to
start (log entry 152). -/
def windowWork (w : Nat) (s : State) : State :=
  let k := workAt s w
  match k.winMin with
  | none => s
  | some m =>
    let warn := s.place.warn
    let move := s.place.move
    let band := decide (move ≤ m ∧ m < warn)
    let told := match (tileAt s (k.district * 8 + k.tile)).warnAt with
      | some t => decide (s.clk.now < t + 3600000000)
      | none => false
    let s := onWork w (fun k => { k with
      winMin := none
      slackLast := m
      slackMin := if m < k.slackMin then m else k.slackMin
      warn := band
      below := if m < move then k.below + 1 else 0 }) s
    let s := if m.toNat < 2 * warn.toNat then s.onClk fun c => { c with vReqAt := c.now } else s
    let s := if band && !told then
        raise 0x0402 (workObj s w) (BitVec.ofNat 64 m.toNat)
          (onTile (k.district * 8 + k.tile) (fun q => { q with warnAt := some s.clk.now }) s)
      else s
    if m < move ∧ 2 ≤ (workAt s w).below ∧ ((moveOf s w).any fun x => x.kind != .audit) = false then
      match plannedSite s w 0 with
      | some x => decideMove w 0 (raise 0x0403 (workObj s w) (BitVec.ofNat 64 (x.1 * 256 + x.2.1)) s)
      | none => vcoreRequest (raise 0x0403 (workObj s w) 0xFFFF s)
    else s

/-- The Avenue segment of a district at the end of a window (R190). -/
def windowAvenue (d : Nat) (s : State) : State :=
  let q := tget {} s.place.dist d
  let mine := (occupants s d).map fun p => p.2.slackLast
  let low := mine.foldl (fun a b => if b < a then b else a) (q.avWin.getD 255)
  let s := onDist d (fun q => { q with avWin := none, slackMin := low }) s
  match q.avWin with
  | some m =>
    let s := if m.toNat < 2 * s.place.warn.toNat then s.onClk fun c => { c with vReqAt := c.now } else s
    if m < s.place.move then
      let told := match q.avAt with
        | some t => decide (s.clk.now < t + 3600000000)
        | none => false
      vcoreRequest (if told then s
        else raise 0x0407 (distObj d) (BitVec.ofNat 64 m.toNat) (onDist d (fun q => { q with avAt := some s.clk.now }) s))
    else s
  | none => s

/-! ### The placement table (R214) -/

/-- A row of the placement table: work, state, district, slot and tile. -/
abbrev PlaceRow := Nat × Nat × Nat × Nat × Nat

/-- The rows of one piece of work, by STATE (R214). -/
def placeRows (s : State) (p : Nat × WorkS) : List PlaceRow :=
  let m := s.place.moving.find? fun m => m.work == p.1 && (m.kind == .planned || m.kind == .urgent)
  if p.2.placed then
    match m with
    | some m =>
      if m.j.isSome && m.kind == .planned then
        [(p.1, 1, p.2.district, p.2.slot, p.2.tile), (p.1, 3, m.dd, m.ds, m.dt)]
      else [(p.1, 0, p.2.district, p.2.slot, p.2.tile), (p.1, 2, m.dd, m.ds, m.dt)]
    | none => [(p.1, 0, p.2.district, p.2.slot, p.2.tile)]
  else [(p.1, 4, 0xFF, 0xFF, 8)]

/-- One entry of the placement table. -/
def placeEntry (s : State) (r : PlaceRow) : List Byte :=
  let k := workAt s r.1
  let t := if r.2.1 = 4 then {} else tileAt s (r.2.2.1 * 8 + r.2.2.2.2)
  let flags := b2n k.pin.isSome + 2 * b2n k.pinBroken
    + 4 * b2n (s.place.moving.any fun m => m.work == r.1 && m.kind == .audit) + 8 * b2n k.warn
    + 16 * b2n (s.place.waits.any fun p => p.1 == r.1) + 32 * b2n k.unaudited
  le 2 r.1 ++ le 1 r.2.2.1 ++ le 1 r.2.2.2.1 ++ le 1 r.2.1 ++ le 1 flags ++ le 1 k.slackLast.toNat
    ++ le 1 k.slackMin.toNat ++ le 1 t.health.toNat ++ le 1 k.moves.toNat ++ le 2 t.rs ++ le 4 k.lastMove.toNat

/-- What a window has measured is dropped: its end falls in a restart of Nolut (13 R423). -/
def windowDrop (s : State) : State :=
  s.onPlace fun p => { p with
    works := p.works.map fun q => (q.1, { q.2 with winMin := none })
    dist := p.dist.map fun q => (q.1, { q.2 with avWin := none }) }

/-- The placement table as it stands at the end of a window (R214); until a plan's first window has ended, as it was when the
plan took effect (log entry 153). -/
def placeSnap (s : State) : State :=
  s.onPlace fun p => { p with
    table := p.works.flatMap fun w => (placeRows s w).map fun r => (r.1, placeEntry s r) }

end Sys2Proof.Machine
end

