-- ==== Sys2Proof/Machine/PlanImage.lean ====
section
/-! DEFINITION. Plan images: their bytes, their records, and the eight checks (05 R151 to R164, R518). -/

namespace Sys2Proof.Machine

/-- The failure of a check of R162. -/
structure Finding where
  /-- Status (11 R361). -/
  status : Nat
  /-- Check step, 1 to 8. -/
  step : Nat
  /-- TYPE of the failing section, 0 for header and directory. -/
  sec : Nat := 0
  /-- Index of the failing record, or byte offset of the failing field. -/
  record : Nat := 0
deriving DecidableEq, Repr

/-- Bytes of the plan image space (12 R399). -/
def planSpace : Nat := 67108864

/-- `n` bytes of the plan image space from an offset. -/
def planBytes (s : State) (o n : Nat) : List Byte := memRead s.mat.mem (ddrBase + o) n

/-- The first failure of a list of findings. -/
def firstFinding (l : List (Option Finding)) : Option Finding := l.findSome? id

/-- A finding when a condition fails. -/
def need (ok : Bool) (f : Finding) : Option Finding := if ok then none else some f

/-! ### Steps 1 to 4: header, CRC, directory, rate -/

/-- Step 1; `room` is what the plan image space holds from the image's start. -/
def headerCheck (h : List Byte) (room : Nat) : Option Finding :=
  let len := fld h 8 4
  let bad (o : Nat) (ok : Bool) : Option Finding := need ok { status := 0x0020, step := 1, record := o }
  let ab := fld h 14 1
  let ac := fld h 28 1
  firstFinding [bad 8 (decide (32 ≤ room)), bad 0 (fld h 0 4 == 0x4E4C505A),
    bad 4 (decide (0x0300 ≤ fld h 4 2 ∧ fld h 4 2 ≤ 0x0304)),
    bad 6 (decide (fld h 6 2 < 4)), bad 8 (decide (64 ≤ len ∧ len ≤ 33554432 ∧ len % 16 = 0 ∧ len ≤ room)),
    bad 13 (decide (6 ≤ fld h 13 1 ∧ fld h 13 1 ≤ 64)), bad 14 (decide (ab ≤ 9 ∨ ab = 0xFF)),
    bad 15 (decide (1 ≤ fld h 15 1 ∧ fld h 15 1 ≤ 16)),
    bad 28 (decide ((ac ≤ 7 ∨ ac = 0xFF) ∧ (ab = 0xFF ↔ ac = 0xFF))), bad 29 (fld h 29 3 == 0)]

/-- Step 2: the CRC-32 over the image with its own field taken as 0. -/
def crcCheck (b : List Byte) : Option Finding :=
  need ((crc32 (b.take 24 ++ zeros 4 ++ b.drop 28)).toNat == fld b 24 4) { status := 0x0021, step := 2, record := 24 }

/-- A directory entry: type, offset, length, count. -/
structure DirE where
  /-- TYPE. -/
  type : Nat
  /-- OFFSET. -/
  off : Nat
  /-- LENGTH. -/
  len : Nat
  /-- COUNT. -/
  count : Nat
deriving DecidableEq, Repr

/-- The directory. -/
def directory (b : List Byte) : List DirE :=
  (List.range (fld b 15 1)).map fun i =>
    let o := 32 + 16 * i
    { type := fld b o 2, off := fld b (o + 4) 4, len := fld b (o + 8) 4, count := fld b (o + 12) 4 }

/-- Size of a record of a section; 0 for the run sections. -/
def recSize (t : Nat) : Nat :=
  match t with
  | 1 => 8
  | 2 => 4
  | 3 => 32
  | 4 => 8
  | 6 => 8
  | 8 => 8
  | 9 => 8
  | 10 => 8
  | 11 => 4
  | 12 => 8
  | _ => 0

/-- Bytes of one item of a COEFS run; 0 for a reserved KIND. -/
def itemSize (k : Nat) : Nat :=
  match k with
  | 0 => 8
  | 1 => 72
  | 2 => 8
  | _ => 0

/-- Split a run section into its runs (header and body bytes); none when COUNT and LENGTH disagree. A reserved KIND of
COEFS ends the reading, since its length is unknown. -/
def runs (coefs : Bool) : Nat → List Byte → Option (List (List Byte))
  | 0, b => if b = [] then some [] else none
  | n + 1, b =>
    if b.length < 8 then none
    else
      let size := if coefs then itemSize (fld b 2 1) * fld b 6 2 else (4 * fld b 4 4 + 7) / 8 * 8
      if coefs && itemSize (fld b 2 1) == 0 then some [b.take 8]
      else if b.length < 8 + size then none
      else (runs coefs n (b.drop (8 + size))).map fun l => b.take (8 + size) :: l

/-- The bytes of a section. -/
def secBytes (b : List Byte) (e : DirE) : List Byte := (b.drop e.off).take e.len

/-- The records of a section, or none when COUNT and LENGTH disagree. -/
def records (b : List Byte) (e : DirE) : Option (List (List Byte)) :=
  if e.type = 5 ∨ e.type = 7 then runs (e.type == 5) e.count (secBytes b e)
  else if e.len = e.count * recSize e.type then
    some ((List.range e.count).map fun i => ((secBytes b e).drop (recSize e.type * i)).take (recSize e.type))
  else none

/-- Two sections overlap. -/
def overlap (a b : DirE) : Bool :=
  decide (0 < a.len ∧ 0 < b.len ∧ a.off < b.off + b.len ∧ b.off < a.off + a.len)

/-- Step 3. A section whose OFFSET lies below the end of the directory is a BAD_IMAGE of this step, which does not name that
case (DESIGN CHOICE, log entry 148). -/
def directoryCheck (b : List Byte) : Option Finding :=
  let d := directory b
  let bad (o : Nat) (ok : Bool) : Option Finding := need ok { status := 0x0020, step := 3, record := o }
  let end_ := 32 + 16 * d.length
  firstFinding ([bad 15 (decide (end_ ≤ b.length))]
    ++ ((List.range d.length).map fun i =>
      let e := d.getD i { type := 0, off := 0, len := 0, count := 0 }
      let o := 32 + 16 * i
      let before := d.take i
      firstFinding [bad o (decide (1 ≤ e.type ∧ e.type ≤ 12) && !before.any fun f => f.type == e.type),
        bad (o + 2) (fld b (o + 2) 2 == 0), bad (o + 4) (decide (e.off % 16 = 0 ∧ end_ ≤ e.off)),
        bad (o + 8) (decide (e.off + e.len ≤ b.length)), bad (o + 4) (!before.any (overlap e)),
        bad (o + 12) (records b e).isSome])
    ++ [bad 6 (bitOf (fld b 6 2) 0 == d.any fun e => e.type == 8)])

/-- Step 4. -/
def rateCheck (b : List Byte) : Option Finding :=
  need (decide (fld b 12 1 ≤ 2)) { status := 0x0022, step := 4, record := 12 }

/-- The records of a section type. -/
def recsOf (b : List Byte) (t : Nat) : List (List Byte) :=
  match (directory b).find? fun e => e.type == t with
  | some e => (records b e).getD []
  | none => []

/-- A slot of 8 bytes. -/
def slot8 (b : List Byte) (o : Nat) : BitVec 64 := BitVec.ofNat 64 (fld b o 8)

/-- The items of a COEFS run, as slots of 8 bytes. -/
def coefItems (b : List Byte) : List (BitVec 64) := (List.range ((b.length - 8) / 8)).map fun i => slot8 b (8 + 8 * i)

/-- A chain-table entry from its slot (R518, 03 R112). -/
def chainOf (v : BitVec 64) : Chain :=
  let n := v.toNat
  { group := bitsOf n 7 0, inp := bitsOf n 15 8, out := bitsOf n 23 16, first := bitsOf n 47 32, count := bitsOf n 63 48 }

/-- Instruction slots of a Lane per wave (00 R3, 03 R119). -/
def slotsAt (r : Rate) : Nat :=
  match r with
  | .r48 => 15000
  | .r96 => 7500
  | .r192 => 3750

/-- The chain table of a block, as its COEFS runs give it; a later run replaces the entries of an earlier one. -/
def imgChains (coefs : List CoefRun) (id : Nat) : List Chain :=
  let t : Tab (Option Chain) := (coefs.filter fun c => c.block == id && c.kind == 2).foldl (fun t c =>
    (List.range c.items.length).foldl (fun t k => tput none t (c.start + k) (some (chainOf (c.items.getD k 0)))) t) []
  t.filterMap (·.2)

/-- A block with the accounted length of its program (03 R118, R119). -/
def withAcc (i : Image) (b : BlockRec) : BlockRec :=
  { b with acc := if b.type = 6 then none
      else accounted (progOf i b) b.lctl (imgChains i.coefs b.id) (slotsAt i.rate) }

/-- The records that the bytes of an image spell. -/
def readRecords (b : List Byte) : Image where
  rate := (rateOf (fld b 12 1)).getD .r48
  h := fld b 13 1
  alleyBlock := if fld b 14 1 = 0xFF then none else some (fld b 14 1)
  alleyCols := if fld b 28 1 = 0xFF then none else some (fld b 28 1)
  hasOvl := bitOf (fld b 6 2) 0
  muteUntil := bitOf (fld b 6 2) 1
  buildId := slot8 b 16
  sources := (recsOf b 1).map fun r => { src := fld r 0 4, row := fld r 4 2, second := bitOf (fld r 6 1) 0 }
  buses := (recsOf b 2).map fun r => { col := fld r 0 2, alley := if fld r 2 1 = 1 then some (fld r 3 1) else none }
  blocks := (recsOf b 3).map fun r =>
    { id := fld r 0 2, type := fld r 2 1, duplex := fld r 3 1 == 1, chIn := fld r 4 1, chOut := fld r 5 1,
      b := fld r 6 2, s := fld r 8 4, lctl := BitVec.ofNat 36 (fld r 12 8), progFirst := fld r 20 4,
      progLen := fld r 24 2, mirror := fld r 26 2 }
  progs := (recsOf b 4).map fun r => BitVec.ofNat 36 (fld r 0 8)
  coefs := (recsOf b 5).map fun r => { block := fld r 0 2, kind := fld r 2 1, start := fld r 4 2, items := coefItems r }
  wiring := (recsOf b 6).map fun r => { prod := fld r 0 4, cons := fld r 4 4 }
  nodes := (recsOf b 7).map fun r =>
    { start := fld r 0 4 % 2 ^ 23, words := (List.range (fld r 4 4)).map fun i => BitVec.ofNat 32 (fld r (8 + 4 * i) 4) }
  ovls := (recsOf b 8).map fun r => { level := fld r 0 1, idx := fld r 1 3 % 2 ^ 23, word := BitVec.ofNat 32 (fld r 4 4) }
  sinks := (recsOf b 9).map fun r => { prod := fld r 4 4, cons := fld r 0 4 }
  paths := (recsOf b 10).map fun r =>
    { src := fld r 2 1 * 2 ^ 28 + fld r 0 2, sink := fld r 3 1 * 2 ^ 28 + fld r 4 2, bus := fld r 6 2 }
  pins := (recsOf b 11).map fun r => { work := fld r 0 2, district := fld r 2 1 }
  players := (recsOf b 12).map fun r => { player := fld r 0 1, prot := bitOf (fld r 1 1) 0, row := fld r 2 2 }

/-- The image that the bytes spell. -/
def readImage (b : List Byte) : Image :=
  let i := readRecords b
  { i with blocks := i.blocks.map (withAcc i) }

/-! ### Codes (R161, R518) -/

/-- Kind of an endpoint code. -/
def codeKind (c : Nat) : Nat := c / 2 ^ 28

/-- Index of an endpoint code. -/
def codeIdx (c : Nat) : Nat := c % 65536

/-- Block id of a block channel code. -/
def codeBlock (c : Nat) : Nat := c / 65536 % 1024

/-- The code carries a reserved kind or reserved bits. -/
def codeReserved (c : Nat) : Bool :=
  let k := codeKind c
  decide (k = 3 ∨ k = 7 ∨ 0xB ≤ k)
    || (if k = 4 then bitsOf c 27 26 != 0 else bitsOf c 27 16 != 0)

/-- Network channels at a rate (00 R3). -/
def netChannels (r : Rate) : Nat := if r = .r192 then 1024 else 2048

/-- Rows and columns at a rate. -/
def rowsAt (r : Rate) : Nat := if r = .r192 then 1280 else 2560

/-- Columns at a rate. -/
def colsAt (r : Rate) : Nat := if r = .r192 then 1024 else 2048

/-- Slots of a TDM port's frame at a rate, by the format of its group (09 R293, R296). -/
def tdmSlots (s : State) (r : Rate) (port : Nat) : Nat :=
  if (tget {} s.lio.groups (port / 4)).fmt = 0 then
    match r with
    | .r48 => 32
    | .r96 => 16
    | .r192 => 8
  else 2

/-- The code names a source that exists at the rate. -/
def sourceOk (s : State) (r : Rate) (c : Nat) : Bool :=
  match codeKind c with
  | 0 => decide (codeIdx c < netChannels r)
  | 1 => decide (codeIdx c / 32 < 16 ∧ codeIdx c % 32 < tdmSlots s r (codeIdx c / 32))
  | 2 => decide (codeIdx c < 64)
  | _ => false

/-- The code names a sink that exists at the rate. -/
def sinkOk (s : State) (r : Rate) (c : Nat) : Bool :=
  match codeKind c with
  | 8 => decide (codeIdx c < netChannels r)
  | 9 => decide (codeIdx c / 32 < 16 ∧ codeIdx c % 32 < tdmSlots s r (codeIdx c / 32))
  | 10 => decide (codeIdx c < 128)
  | _ => false

/-- The gain-space index lies within the rows and columns of the rate. -/
def indexAt (r : Rate) (i : Nat) : Bool := decide (rowOf i < rowsAt r ∧ colOf i < colsAt r)

/-- The block of an image. -/
def imgBlock (i : Image) (id : Nat) : Option BlockRec := i.blocks.find? fun b => b.id == id

/-- The code is a block output of the image. -/
def outputOk (i : Image) (c : Nat) : Bool :=
  codeKind c == 4 && match imgBlock i (codeBlock c) with
    | some b => decide (codeIdx c < b.chOut)
    | none => false

/-- The code is a block input of the image. -/
def inputOk (i : Image) (c : Nat) : Bool :=
  codeKind c == 4 && match imgBlock i (codeBlock c) with
    | some b => decide (codeIdx c < b.chIn)
    | none => false

/-- The code is a bus that the image declares. -/
def busOk (i : Image) (c : Nat) : Bool := codeKind c == 6 && i.buses.any fun b => b.col == codeIdx c

/-! ### Depths (01 R31, R155) -/

/-- The wires into a block. -/
def wiresInto (i : Image) (id : Nat) : List WireRec :=
  i.wiring.filter fun w => codeKind w.cons == 4 && codeBlock w.cons == id

/-- The block's channels run side by side: an output has the input of its own number (R164). -/
def sideBySide (t : Nat) : Bool := t == 1 || t == 3 || t == 4 || t == 6

/-- The wires that reach an output of a block: those of its own channel where channels run side by side, all of them in a
crossover or a custom block (log entry 22). -/
def wiresTo (i : Image) (c : Nat) : List WireRec :=
  match imgBlock i (codeBlock c) with
  | some b =>
    if sideBySide b.type then i.wiring.filter fun w => w.cons == blockCode b.id (codeIdx c) else wiresInto i b.id
  | none => []

/-- The block is a delay block. -/
def isDelay (i : Image) (id : Nat) : Bool :=
  match imgBlock i id with
  | some b => b.type == 6
  | none => false

/-- The producers whose depths a block output has: a delay block aligns nothing, so a channel has the depth of its own wire;
a Lane block has that of its deepest input (R155). One output stands for all of a Lane block. -/
def depthFeeds (i : Image) (c : Nat) : List Nat :=
  let one (p : Nat) : Nat := if codeKind p = 4 ∧ isDelay i (codeBlock p) = false then blockCode (codeBlock p) 0 else p
  ((if isDelay i (codeBlock c) then wiresTo i c else wiresInto i (codeBlock c)).map fun w => one w.prod).eraseDups

/-- Depth of a producer, in Lane passes and structural delays: 0 for a source, `bus` for a bus. A loop of blocks has no
depth, which shows as one beyond every bound (log entry 22). -/
def depthFrom (i : Image) (bus : Nat) : Nat → Nat → Nat
  | 0, _ => 1000000
  | n + 1, c =>
    match codeKind c with
    | 4 =>
      let d := ((depthFeeds i c).map (depthFrom i bus n)).foldl max 0
      match imgBlock i (codeBlock c) with
      | some b => d + b2n (b.type != 6) + b.b
      | none => d
    | 6 => bus
    | _ => 0

/-- The sources and buses that reach a producer. -/
def originsOf (i : Image) : Nat → Nat → List Nat
  | 0, _ => []
  | n + 1, c =>
    if codeKind c = 4 then (((wiresTo i c).map (·.prod)).eraseDups.flatMap (originsOf i n)).eraseDups else [c]

/-- The sources and buses that reach a producer. -/
def origins (i : Image) (c : Nat) : List Nat := originsOf i (i.blocks.length + 1) c

/-- A row's producer: a direct source or a block output. -/
def rowFeed (i : Image) (row : Nat) : Option Nat :=
  match i.sources.find? fun r => r.row == row with
  | some r => some r.src
  | none => (i.wiring.find? fun w => codeKind w.cons == 5 && codeIdx w.cons == row).map (·.prod)

/-- The rows that something feeds. -/
def fedRows (i : Image) : List Nat :=
  i.sources.map (·.row) ++ (i.wiring.filter fun w => codeKind w.cons == 5).map fun w => codeIdx w.cons

/-- The row lies in the image's Alley row block. -/
def imgAlleyRow (i : Image) (row : Nat) : Bool :=
  match i.alleyBlock with
  | some a => row / (if i.rate = .r192 then 128 else 256) == a
  | none => false

/-- The column is an Alley bus of the image. -/
def imgAlleyCol (i : Image) (col : Nat) : Bool := i.buses.any fun b => b.col == col && b.alley.isSome

/-- Input depth of a row. -/
def rowDepth (i : Image) (row : Nat) : Nat :=
  match rowFeed i row with
  | some c => depthFrom i 0 (i.blocks.length + 1) c
  | none => 0

/-- A: the largest input depth of any processed row (R155); a running plan keeps the value it took effect with, whatever
blocks are inserted or removed (R168). -/
def inputDepth (i : Image) : Nat :=
  match i.a with
  | some a => a
  | none => (((fedRows i).filter fun r => !imgAlleyRow i r).map (rowDepth i)).foldl max 0

/-- Depth at which a bus gives the samples of its rows: that of the rows and the two waves of the crosspoint (01 R31). -/
def busDepth (i : Image) : Nat := inputDepth i + 2

/-- Depth of a producer since capture. -/
def prodDepth (i : Image) (c : Nat) : Nat := depthFrom i (busDepth i) (i.blocks.length + 1) c

/-- Row delay of a processed row. -/
def rowDelay (i : Image) (row : Nat) : Nat :=
  if imgAlleyRow i row || (rowFeed i row).isNone then 0 else inputDepth i - rowDepth i row

/-- The feed of a sink. -/
def sinkFeed (i : Image) (sink : Nat) : Option Nat := (i.sinks.find? fun w => w.cons == sink).map (·.prod)

/-- A feed comes through a bus. -/
def viaBus (i : Image) (feed : Nat) : Bool := (origins i feed).any fun c => codeKind c == 6

/-- A feed is an Alley bus. -/
def alleyFeed (i : Image) (feed : Nat) : Bool := (origins i feed).any fun c => codeKind c == 6 && imgAlleyCol i (codeIdx c)

/-- Sink delay of a feed (R155); negative when the plan does not fit H. Through a bus it is H − 3 − A − the depth after the
bus, and without one H − D. -/
def feedDelay (i : Image) (feed : Nat) : Int :=
  if alleyFeed i feed then 0 else (i.h : Int) - 1 - prodDepth i feed

/-- Sink delay of a sink. -/
def sinkDelay (i : Image) (sink : Nat) : Nat :=
  match sinkFeed i sink with
  | some f => (feedDelay i f).toNat
  | none => 0

/-- Alignment delay of a wire into a Lane block (R155). -/
def alignDelay (i : Image) (w : WireRec) : Nat :=
  if codeKind w.cons = 4 ∧ isDelay i (codeBlock w.cons) = false then
    (((wiresInto i (codeBlock w.cons)).map fun v => prodDepth i v.prod).foldl max 0) - prodDepth i w.prod
  else 0

/-- Natural depth D of a declared path (01 R31, R178): the largest of its routes. -/
def pathDepth (i : Image) (p : PathRec) : Nat :=
  let after := match sinkFeed i p.sink with
    | some f => prodDepth i f
    | none => 0
  if p.bus = 0xFFFF then 1 + after
  else if imgAlleyCol i p.bus then 3
  else
    let rows := (fedRows i).filter fun r => !imgAlleyRow i r && match rowFeed i r with
      | some c => (origins i c).contains p.src
      | none => false
    3 + (rows.map (rowDepth i)).foldl max 0 + (after - busDepth i)

/-- CLASS of a path: 0 Alley, 1 processed. -/
def pathClass (i : Image) (p : PathRec) : Nat := if p.bus ≠ 0xFFFF ∧ imgAlleyCol i p.bus = true then 0 else 1

/-- Class latency of a path (01 R32). -/
def classLatency (i : Image) (p : PathRec) : Nat := if pathClass i p = 0 then 3 else i.h

/-- Y word of a block in the image's COEFS, 0 where no run gives it. -/
def imgY (i : Image) (id a : Nat) : W36 :=
  (i.coefs.filter fun c => c.block == id && c.kind == 0).foldl (fun v c =>
    if c.start ≤ a ∧ a < c.start + c.items.length then (c.items.getD (a - c.start) 0).truncate 36 else v) 0

/-- Set delay of a channel of a delay block, from its parameter words (R164). -/
def imgDelay (i : Image) (id ch : Nat) : Nat := (imgY i id (ch + 1)).toNat

/-- The delay channels of an image: block, channel and samples. -/
def delayChans (i : Image) : List (Nat × Nat × Nat) :=
  ((i.blocks.filter fun b => b.type == 6).map fun b =>
    (List.range b.chIn).map fun c => (b.id, c, imgDelay i b.id c)).flatten

/-- POOL_WORDS: row, sink, alignment and delay-block delays held in the delay pool (R163, R176). -/
def poolWords (i : Image) : Nat :=
  ((fedRows i).map (rowDelay i)).sum + (i.sinks.map fun w => sinkDelay i w.cons).sum
    + (i.wiring.map (alignDelay i)).sum + ((delayChans i).map fun c => if c.2.2 ≤ 4800 then c.2.2 else 0).sum

/-- The delay channels held in LPDDR5 (R163). -/
def longDelays (i : Image) : List (Nat × Nat × Nat) := (delayChans i).filter fun c => decide (4800 < c.2.2)

/-! ### Step 5: the records (R518) -/

/-- Per-record checks of one section: first what R10 reserves (BAD_IMAGE), then indices and counts. -/
def recordCheck (sec : Nat) (l : List (List Byte)) (clean : List Byte → Bool) (ok : Nat → List Byte → Bool)
    (fits : Nat → List Byte → Bool) : Option Finding :=
  firstFinding ((List.range l.length).map fun r =>
    let b := l.getD r []
    firstFinding [need (clean b) { status := 0x0020, step := 5, sec := sec, record := r },
      need (ok r b) { status := 0x0004, step := 5, sec := sec, record := r },
      need (fits r b) { status := 0x0023, step := 5, sec := sec, record := r }])

/-- No capacity is exceeded. -/
def fitsAny (_ : Nat) (_ : List Byte) : Bool := true

/-- A node word without reserved bits or encodings (02 R39). -/
def nodeClean (w : Nat) : Bool := decide (w < 2 ^ 28) && bitsOf w 27 26 != 3

/-- The block types of R164. -/
def typeOk (t : Nat) : Bool := decide ((1 ≤ t ∧ t ≤ 6) ∨ t = 0x10)

/-- Source records. -/
def sourcesCheck (s : State) (b : List Byte) (i : Image) : Option Finding :=
  recordCheck 1 (recsOf b 1) (fun r => !codeReserved (fld r 0 4) && decide (fld r 6 1 < 2) && fld r 7 1 == 0)
    (fun n r =>
      let before := i.sources.take n
      sourceOk s i.rate (fld r 0 4) && decide (fld r 4 2 < rowsAt i.rate) && !(before.any fun q => q.row == fld r 4 2)
        && (bitOf (fld r 6 1) 0 == before.any fun q => q.src == fld r 0 4)) fitsAny

/-- Bus records. -/
def busesCheck (b : List Byte) (i : Image) : Option Finding :=
  recordCheck 2 (recsOf b 2) (fun r => decide (fld r 2 1 < 2))
    (fun n r =>
      let before := i.buses.take n
      decide (fld r 0 2 < colsAt i.rate) && !(before.any fun q => q.col == fld r 0 2)
        && (if fld r 2 1 = 1 then decide (fld r 3 1 < 64) && !(before.any fun q => q.alley == some (fld r 3 1))
            else fld r 3 1 == 0xFF)) fitsAny

/-- The counts of blocks lie within R151. -/
def countsOk (t : List BlockRec) : Bool :=
  let lanes := (t.filter fun q => q.type != 6).length
  let dup := (t.filter fun q => q.type != 6 && q.duplex).length
  let del := t.filter fun q => q.type == 6
  decide (lanes ≤ 256 ∧ dup ≤ 24 ∧ lanes + dup ≤ 256 ∧ del.length ≤ 64 ∧ (del.map (·.chIn)).sum ≤ 1024)

/-- A limit of R164 that is given in samples, taps or sections at 96 kHz: twice at 48 kHz, half at 192 kHz. -/
def atRate (r : Rate) (n : Nat) : Nat :=
  match r with
  | .r48 => 2 * n
  | .r96 => n
  | .r192 => n / 2

/-- Sections that a block's COEFS give. -/
def imgSections (i : Image) (id : Nat) : Nat :=
  (((i.coefs.filter fun c => c.block == id && c.kind == 1).flatMap fun c =>
    (List.range (c.items.length / 9)).map (c.start + ·)).eraseDups).length

/-- Samples of a stretch of 2.0 s, the longest delay of a channel (R164, log entry 154). -/
def delayMost (r : Rate) : Nat :=
  match r with
  | .r48 => 96000
  | .r96 => 192000
  | .r192 => 384000

/-- The channel counts of R164. -/
def channelsOk (b : BlockRec) : Bool :=
  match b.type with
  | 2 => decide (b.chIn ≤ 16 ∧ 2 * b.chIn ≤ b.chOut ∧ b.chOut ≤ 4 * b.chIn)
  | 4 => decide (b.chIn ≤ 16 ∧ b.chOut ≤ 16)
  | _ => true

/-- The limits of R164: sections (twice with FADE), state length, lookahead, taps and delays. -/
def limitsOk (i : Image) (b : BlockRec) : Bool :=
  match b.type with
  | 3 => decide (b.b ≤ atRate i.rate 96)
  | 4 => decide (b.s ≤ atRate i.rate 1024 ∧ b.b < atRate i.rate 1024)
  | 5 => true
  | 6 => decide (b.b = 0) && (List.range b.chIn).all fun c => decide (imgDelay i b.id c ≤ delayMost i.rate)
  | 0x10 => true
  | _ => decide (b.s ≤ 65535 ∧ b.b = 0
      ∧ imgSections i b.id * (if imgY i b.id 0 = 0 then 1 else 2) ≤ atRate i.rate 192)

/-- The library limits of R164 for every block (log entry 154). -/
def libraryCheck (i : Image) : Option Finding :=
  firstFinding ((List.range i.blocks.length).map fun r =>
    match i.blocks[r]? with
    | some b => firstFinding [need (channelsOk b) { status := 0x0004, step := 5, sec := 3, record := r },
        need (limitsOk i b) { status := 0x0023, step := 5, sec := 3, record := r }]
    | none => none)

/-- Block records. -/
def blocksCheck (b : List Byte) (i : Image) : Option Finding :=
  recordCheck 3 (recsOf b 3)
    (fun r => typeOk (fld r 2 1) && decide (fld r 3 1 < 2) && decide (fld r 12 8 < 2 ^ 36)
      && fld r 12 8 &&& 0xFC000F8FE == 0 && fld r 28 4 == 0)
    (fun n r =>
      decide (fld r 0 2 < 1024) && !((i.blocks.take n).any fun q => q.id == fld r 0 2)
        && decide (1 ≤ fld r 4 1 ∧ fld r 4 1 ≤ 64 ∧ fld r 5 1 ≤ 64 ∧ fld r 26 2 ≤ 256)
        && (fld r 2 1 != 5 || fld r 5 1 == 0)
        && (if fld r 2 1 = 6 then fld r 20 4 == 0 && fld r 24 2 == 0
            else decide (1 ≤ fld r 24 2 ∧ fld r 24 2 ≤ 4096 ∧ fld r 20 4 + fld r 24 2 ≤ i.progs.length)))
    (fun n _ => countsOk (i.blocks.take (n + 1)))

/-- One item of a chain-table run (03 R112). -/
def chainClean (v : BitVec 64) : Bool := bitsOf v.toNat 31 24 == 0

/-- The chain names a group, offsets and sections that exist. -/
def chainOk (v : BitVec 64) : Bool :=
  let n := v.toNat
  decide (bitsOf n 7 0 ≤ 7 ∧ bitsOf n 15 8 ≤ 127 ∧ bitsOf n 23 16 ≤ 127 ∧ 1 ≤ bitsOf n 63 48
    ∧ bitsOf n 47 32 + bitsOf n 63 48 ≤ 384)

/-- Coefficient runs. -/
def coefsCheck (b : List Byte) (i : Image) : Option Finding :=
  recordCheck 5 (recsOf b 5)
    (fun r => itemSize (fld r 2 1) != 0 && fld r 3 1 == 0
      && (coefItems r).all fun v => if fld r 2 1 = 2 then chainClean v else decide (v.toNat < 2 ^ 36))
    (fun _ r =>
      (imgBlock i (fld r 0 2)).isSome
        && (match fld r 2 1 with
            | 0 => decide (fld r 4 2 + fld r 6 2 ≤ 8192)
            | 1 => decide (fld r 4 2 + fld r 6 2 ≤ 384)
            | _ => decide (fld r 4 2 + fld r 6 2 ≤ 64) && (coefItems r).all chainOk)) fitsAny

/-- Wiring records: a source that enters a row directly has a SOURCES record instead. -/
def wiringCheck (s : State) (b : List Byte) (i : Image) : Option Finding :=
  recordCheck 6 (recsOf b 6) (fun r => !codeReserved (fld r 0 4) && !codeReserved (fld r 4 4))
    (fun n r =>
      let p := fld r 0 4
      let c := fld r 4 4
      !((i.wiring.take n).any fun q => q.cons == c)
        && (sourceOk s i.rate p || outputOk i p || busOk i p)
        && (if codeKind c = 5 then
              decide (codeIdx c < rowsAt i.rate) && codeKind p == 4 && !(i.sources.any fun q => q.row == codeIdx c)
            else inputOk i c)) fitsAny

/-- Node runs. -/
def nodesCheck (b : List Byte) (i : Image) : Option Finding :=
  recordCheck 7 (recsOf b 7)
    (fun r => decide (fld r 0 4 < 2 ^ 23)
      && (List.range (fld r 4 4)).all (fun k => nodeClean (fld r (8 + 4 * k) 4))
      && (r.drop (8 + 4 * fld r 4 4)).all (· == 0))
    (fun _ r => (List.range (fld r 4 4)).all fun k => indexAt i.rate (fld r 0 4 + k)) fitsAny

/-- Overlay records: overrides and PRI bindings (R175). An override carries no STEP (02 R54). -/
def ovlsCheck (b : List Byte) (i : Image) : Option Finding :=
  recordCheck 8 (recsOf b 8)
    (fun r => decide (fld r 1 3 < 2 ^ 23)
      && (if fld r 1 3 = 0x7FFFFF then decide (fld r 4 4 < 16) else nodeClean (fld r 4 4)))
    (fun n r =>
      let before := i.ovls.take n
      decide (fld r 0 1 ≤ 15)
        && (if fld r 1 3 = 0x7FFFFF then
              !(before.any fun q => q.idx == 0x7FFFFF && q.word.toNat % 8 == fld r 4 4 % 8)
            else indexAt i.rate (fld r 1 3) && bitsOf (fld r 4 4) 27 26 == 0
              && !(before.any fun q => q.idx == fld r 1 3 && q.level == fld r 0 1)))
    (fun n _ => decide (((i.ovls.take (n + 1)).filter fun q => q.idx != 0x7FFFFF).length ≤ 262144))

/-- Sink records. -/
def sinksCheck (s : State) (b : List Byte) (i : Image) : Option Finding :=
  recordCheck 9 (recsOf b 9) (fun r => !codeReserved (fld r 0 4) && !codeReserved (fld r 4 4))
    (fun n r => sinkOk s i.rate (fld r 0 4) && !((i.sinks.take n).any fun q => q.cons == fld r 0 4)
      && (outputOk i (fld r 4 4) || busOk i (fld r 4 4))) fitsAny

/-- Path records. -/
def pathsCheck (s : State) (b : List Byte) (i : Image) : Option Finding :=
  recordCheck 10 (recsOf b 10)
    (fun r => decide (fld r 2 1 ≤ 15 ∧ fld r 3 1 ≤ 15) && !codeReserved (fld r 2 1 * 2 ^ 28 + fld r 0 2)
      && !codeReserved (fld r 3 1 * 2 ^ 28 + fld r 4 2))
    (fun _ r =>
      let src := fld r 2 1 * 2 ^ 28 + fld r 0 2
      let sink := fld r 3 1 * 2 ^ 28 + fld r 4 2
      let bus := fld r 6 2
      sourceOk s i.rate src && match sinkFeed i sink with
        | none => false
        | some f =>
          if bus = 0xFFFF then (origins i f).contains src
          else busOk i (busCode bus) && (origins i f).contains (busCode bus))
    (fun n _ => decide (n < 8192))

/-- Pin records. -/
def pinsCheck (b : List Byte) (i : Image) : Option Finding :=
  recordCheck 11 (recsOf b 11)
    (fun r => (fld r 0 2 / 4096 == 0 || fld r 0 2 / 4096 == 4) && fld r 3 1 == 0)
    (fun _ r => decide (fld r 2 1 ≤ 51)
      && (if fld r 0 2 / 4096 = 0 then decide (fld r 0 2 < if i.rate = .r192 then 40 else 80)
          else match imgBlock i (fld r 0 2 % 4096) with
            | some b => b.type != 6
            | none => false))
    (fun n _ => decide (n < 64))

/-- Player records. -/
def playersCheck (b : List Byte) (i : Image) : Option Finding :=
  recordCheck 12 (recsOf b 12) (fun r => decide (fld r 1 1 < 2) && fld r 4 4 == 0)
    (fun n r => decide (fld r 0 1 < 64) && !((i.players.take n).any fun q => q.player == fld r 0 1)
      && (i.sources.any fun q => q.src == playCode (fld r 0 1) && q.row == fld r 2 2)) fitsAny

/-- Step 5. -/
def recordsCheck (s : State) (b : List Byte) (i : Image) : Option Finding :=
  firstFinding [
    need (!(i.rate == .r192) || match i.alleyCols with
      | some c => decide (c ≤ 3)
      | none => true) { status := 0x0004, step := 5, record := 28 },
    sourcesCheck s b i, busesCheck b i,
    recordCheck 4 (recsOf b 4) (fun r => decide (fld r 0 8 < 2 ^ 36)) (fun _ _ => true) fitsAny,
    blocksCheck b i, coefsCheck b i, wiringCheck s b i, nodesCheck b i, ovlsCheck b i, sinksCheck s b i,
    pathsCheck s b i, pinsCheck b i, playersCheck b i, libraryCheck i]

/-! ### Steps 6 to 8 -/

/-- The contributing word crosses the Alley boundary (02 R60, R153). -/
def imgCrosses (i : Image) (idx : Nat) (w : BitVec 32) : Bool :=
  contributes w && (imgAlleyCol i (colOf idx) != imgAlleyRow i (rowOf idx))

/-- The first record of a list that fails. -/
def firstRec (n : Nat) (bad : Nat → Bool) (f : Nat → Finding) : Option Finding :=
  ((List.range n).find? bad).map f

/-- Step 6: the Alley rules for every row, bus, node word and override, and the lane budget for every block. -/
def alleyCheck6 (i : Image) : Option Finding :=
  let fail (sec r : Nat) : Finding := { status := 0x0011, step := 6, sec := sec, record := r }
  firstFinding [
    firstRec i.buses.length (fun r =>
      match i.buses[r]? with
      | some q => q.alley.isSome && (i.alleyBlock.isNone || i.alleyCols != some (q.col / 256))
      | none => false) (fail 2),
    firstRec i.wiring.length (fun r =>
      match i.wiring[r]? with
      | some q => (codeKind q.cons == 5 && imgAlleyRow i (codeIdx q.cons))
          || (codeKind q.prod == 6 && imgAlleyCol i (codeIdx q.prod))
      | none => false) (fail 6),
    firstRec i.nodes.length (fun r =>
      match i.nodes[r]? with
      | some q => (List.range q.words.length).any fun k => imgCrosses i (q.start + k) (q.words.getD k 0)
      | none => false) (fail 7),
    firstRec i.ovls.length (fun r =>
      match i.ovls[r]? with
      | some q => q.idx != 0x7FFFFF && imgCrosses i q.idx q.word
      | none => false) (fail 8),
    firstRec i.blocks.length (fun r =>
      match i.blocks[r]? with
      | some q => q.type != 6 && q.acc.isNone
      | none => false) (fun r => { status := 0x0023, step := 6, sec := 3, record := r })]

/-- Step 7: latency (R155, 01 R32). A block in a loop, or after one, lies deeper than every H (log entry 22). -/
def latencyCheck (i : Image) : Option Finding :=
  let fail (sec r : Nat) : Finding := { status := 0x0024, step := 7, sec := sec, record := r }
  firstFinding [
    firstRec i.blocks.length (fun r =>
      match i.blocks[r]? with
      | some q => (if q.type = 6 then List.range q.chIn else [0]).any fun c =>
          decide (1000000 ≤ depthFrom i 0 (i.blocks.length + 1) (blockCode q.id c))
      | none => false) (fail 3),
    firstRec i.sinks.length (fun r =>
      match i.sinks[r]? with
      | some q => decide (feedDelay i q.prod < 0)
      | none => false) (fail 9),
    firstRec i.paths.length (fun r =>
      match i.paths[r]? with
      | some q => pathClass i q == 1 && decide (i.h < pathDepth i q)
      | none => false) (fail 10)]

/-- Bytes of LPDDR5 that the delay region takes: n + 64 slots of 8 bytes a channel, in whole 64-byte blocks (12 R400). -/
def delayRegion (i : Image) : Nat := ((longDelays i).map fun c => ((c.2.2 + 64) * 8 + 63) / 64 * 64).sum

/-- The delays fit the delay pool and LPDDR5 (R163, 12 R397, R399). -/
def poolOk (s : State) (i : Image) : Bool :=
  decide (poolWords i ≤ 3728270)
    && decide ((longDelays i).length ≤ 1024 ∧ s.mat.ddrState ≠ 4
      ∧ ((longDelays i).isEmpty = true ∨ 134217728 + delayRegion i + libSize s ≤ ddrUsable s))

/-- Step 8: placement, delay pool and LPDDR5 (R163, R207, 12 R397, R399). -/
def fitCheck (s : State) (i : Image) : Option Finding :=
  let fail (sec r : Nat) : Finding := { status := 0x0023, step := 8, sec := sec, record := r }
  firstFinding [
    firstRec i.pins.length (fun r =>
      match i.pins[r]? with
      | some q => workMix q.work != distMix q.district
          || decide (offered s q.district < ((i.pins.take (r + 1)).filter fun p => p.district == q.district).length)
      | none => false) (fail 11),
    need (planFits i s) (fail 3 0), need (poolOk s i) (fail 0 0)]

/-! ### The whole check (R162) -/

/-- What the checks of an image answer: the first failure, if any, and the image as far as it was read. -/
structure Checked where
  /-- First failure. -/
  bad : Option Finding := none
  /-- The image. -/
  img : Image := {}
deriving DecidableEq, Repr

/-- The checks of R162 on the image at an offset of the plan image space. -/
def checkImage (s : State) (o : Nat) : Checked :=
  let room := planSpace - o
  let h := planBytes s o 32
  match headerCheck h room with
  | some f => { bad := some f }
  | none =>
    let b := planBytes s o (fld h 8 4)
    match firstFinding [crcCheck b, directoryCheck b, rateCheck b] with
    | some f => { bad := some f, img := { h := fld h 13 1 } }
    | none =>
      let i := readImage b
      match recordsCheck s b i with
      | some f => { bad := some f, img := i }
      | none => { bad := firstFinding [alleyCheck6 i, latencyCheck i, fitCheck s i], img := i }

/-- Failure payload of PLAN_LOAD and PLAN_BLOCK_INSERT. -/
def findingBytes (f : Finding) : List Byte := le 2 f.sec ++ zeros 2 ++ le 4 f.record

end Sys2Proof.Machine
end

