-- ==== Sys2Proof/Machine/Drive.lean ====
section
/-! DEFINITION. Drive links, Load Monitors and the Kerb limiter, as operations of the engine (07 R219 to R250). -/

namespace Sys2Proof.Machine

/-! ### Exponentials in exact integer steps (R244, R245) -/

/-- 2^128 times the natural logarithm of 10, rounded down. -/
def ln10Fix : Int := 783529105480883066805338482703447369891

/-- 2^128 e^(-y) with y = `y` / 2^128, by `n` terms of the series from term `t` of index `k` on: exact to far below
2^-100, so that the roundings of R244 and R245 are those of the real numbers (log entry 26). -/
def expSeries (y : Int) : Nat → Nat → Int → Int → Int
  | 0, _, _, acc => acc
  | n + 1, k, t, acc =>
    let t' := -(t * y) / (2 ^ 128 * ((k : Int) + 1))
    expSeries y n (k + 1) t' (acc + t')

/-- 2^128 e^(-y). -/
def expNeg (y : Int) : Int := expSeries y 80 0 (2 ^ 128) (2 ^ 128)

/-- round_half_even(2^20 x 10^(-att/20)), att = `num` / `den` dB (R244). -/
def kerbCode (num den : Int) : Nat :=
  (roundEven (expNeg (num * ln10Fix / (20 * den)) * 2 ^ 20) (2 ^ 128)).toNat

/-- A of R245, for a release time in ms. -/
def releaseA (s : State) (ms : Nat) : Int :=
  roundEven ((2 ^ 128 - expNeg (1000 * 2 ^ 128 / ((hz s : Int) * ms))) * 2 ^ 24) (2 ^ 128)

/-- A gain code after one step toward its target, by at most 0.1 dB (R244). -/
def stepDb (k target : Nat) : Nat :=
  if k < target then min target (k * 18660347302955125543 / 2 ^ 64)
  else max target ((k * 18235585940410123967 + 2 ^ 64 - 1) / 2 ^ 64)

/-! ### Sines (R241, R242) -/

/-- 2^128 times half of pi, rounded down. -/
def halfPiFix : Int := 534514292032483373929840186580935391650

/-- 2^128 sin (y / 2^128) for y from 0 to a quarter turn, by `n` terms of the series from term `t` of index `k` on. -/
def sinSeries (y : Int) : Nat → Nat → Int → Int → Int
  | 0, _, _, acc => acc
  | n + 1, k, t, acc =>
    let t' := -(t * y / 2 ^ 128 * y) / (2 ^ 128 * (((k : Int) + 1) * (k + 2)))
    sinSeries y n (k + 2) t' (acc + t')

/-- 2^128 times the sine of `num` / `den` of a quarter turn: exact at both ends. -/
def sinQuarter (num den : Nat) : Int :=
  if num = 0 then 0 else if num = den then 2 ^ 128
  else
    let y := halfPiFix * num / den
    sinSeries y 24 1 y y

/-- 2^128 times the sine of a phase in 1/2^32 of a turn. -/
def sinFix (p : BitVec 32) : Int :=
  let r := p.toNat % 2 ^ 30
  match p.toNat / 2 ^ 30 with
  | 0 => sinQuarter r (2 ^ 30)
  | 1 => sinQuarter (2 ^ 30 - r) (2 ^ 30)
  | 2 => -sinQuarter r (2 ^ 30)
  | _ => -sinQuarter (2 ^ 30 - r) (2 ^ 30)

/-- 2^128 times its cosine. -/
def cosFix (p : BitVec 32) : Int := sinFix (p + BitVec.ofNat 32 (2 ^ 30))

/-- `num` / `den`, `den` > 0, as a whole number, where the spec fixes the value and not its rounding (log entry 156). -/
def roundFree (num den : Int) : Int :=
  if num % den = 0 then num / den else num / den + (if Config.roundsUp num den then 1 else 0)

/-! ### Channels and links -/

/-- A drive channel. -/
def chanAt (s : State) (c : Nat) : ChanS := tget {} s.drv.chans c

/-- A change of one channel. -/
def onChan (c : Nat) (f : ChanS → ChanS) (s : State) : State :=
  s.onDrv fun d => { d with chans := tmod {} d.chans c f }

/-- A link. -/
def linkAt (s : State) (l : Nat) : LinkS := tget {} s.drv.links l

/-- A change of one link. -/
def onLink (l : Nat) (f : LinkS → LinkS) (s : State) : State :=
  s.onDrv fun d => { d with links := tmod {} d.links l f }

/-- Sink code of a drive channel. -/
def driveCode (c : Nat) : Nat := 0xA0000000 + c

/-- Feed of a channel for the next tick; 0 for a channel that no sink feeds (R238). -/
def feedOf (s : State) (c : Nat) : W36 := tget 0 s.sig.sinkNext (driveCode c)

/-- Its feed at the last tick. -/
def feedLast (s : State) (c : Nat) : W36 := tget 0 s.sig.sinkNow (driveCode c)

/-- The running plan feeds the channel. -/
def chanFed (s : State) (c : Nat) : Bool :=
  match s.plan.run with
  | some i => (sinkFeed i (driveCode c)).isSome
  | none => false

/-- The channel is fed by an Alley bus (R252). -/
def alleyFed (s : State) (c : Nat) : Bool :=
  match s.plan.run with
  | some i => match sinkFeed i (driveCode c) with
    | some f => alleyFeed i f
    | none => false
  | none => false

/-- The sense calibration in force: that of DRV_CAL_WRITE before that of the stage's DMIR (R239, R256). -/
def calOf (q : ChanS) : Option CalP :=
  match q.calHost with
  | some c => some c
  | none => q.calDmir

/-- AUDIO_ENABLE of a link. -/
def audioOn (s : State) (l : Nat) : Bool := s.drv.audio.getLsbD l

/-- The unit is the claimant (10 R309, R312). -/
def isClaimant (s : State) : Bool := !s.twin.pair || s.twin.active

/-- The unit holds a claim: the claimant, or a standby in READY (10 R312, R323); not after a yield with the link down
(10 R331). -/
def holdsClaim (s : State) : Bool := (isClaimant s && !s.twin.invalid) || (s.twin.pair && s.twin.state == 6)

/-- The unit's claim, 0 while it holds none (10 R309, R311). -/
def claimNow (s : State) : BitVec 16 := if s.twin.pair then (if holdsClaim s then s.twin.claim else 0) else 1

/-- The outputs present what the plan gives them: in RUN, and at the first tick of HUSH, which presents the results of the
last wave (13 R433). -/
def presenting (s : State) : Bool := s.clk.power == .run || s.wave.tail

/-- CLAIM_VALID of a link's frames (R249). -/
def claimValid (s : State) (l : Nat) : Bool :=
  s.plan.run.isSome && audioOn s l && holdsClaim s && presenting s

/-- Links send frames (R248): a rate is set and the media clock ticks; not in RETAIN, after FATAL, or in a change of
rate. -/
def linksRun (s : State) : Bool :=
  s.wave.rate.isSome && !s.flt.fatal && (s.clk.power == .run || s.clk.power == .hush) && s.wave.ticked

/-- The sequences of R247 that mute the channel: all but the probe. -/
def shortMutes (q : ChanS) : Bool := q.short == .holdOff || q.short == .waiting

/-- The link is up, and the period that has just ended was not the eighth without an accepted frame (R226). -/
def linkGood (k : LinkS) : Bool := k.up && decide (k.bad < 8)

/-- A mute of R239, R246, R247 or the host holds the channel. -/
def chanMuted (s : State) (c : Nat) : Bool :=
  let q := chanAt s c
  (calOf q).isNone || !linkGood (linkAt s (c / 4)) || q.hostMute || q.trip || q.short != .none || q.resume.isSome

/-- The channel's feed crosses zero at the next tick (02 R44). -/
def feedCrosses (s : State) (c : Nat) : Bool :=
  let prev := feedLast s c
  let cur := feedOf s c
  cur == 0 || (prev != 0 && prev.msb != cur.msb)

/-! ### Pilot (R241) -/

/-- INC of a pilot at `num` / `den` Hz. -/
def pilotInc (s : State) (num den : Nat) : Nat := (roundEven ((num : Int) * 2 ^ 32) ((den : Int) * hz s)).toNat

/-- The pilot's frequency as a fraction in Hz: 0.1 Hz steps, or 10 Hz steps. -/
def pilotHz (p : PilotP) : Nat × Nat := if p.mode = 2 then (p.freq * 10, 1) else (p.freq, 10)

/-- The pilot's phase at sample `n`, in 1/2^32 of a turn. -/
def pilotPhase (s : State) (f : Nat × Nat) (n : Nat) : BitVec 32 := BitVec.ofNat 32 (n * pilotInc s f.1 f.2)

/-- The pilot word of sample `n`: a sine `level` dB below network full scale, 2^31 (01 R28). -/
def pilotAt (s : State) (level : Nat) (f : Nat × Nat) (n : BitVec 64) : W36 :=
  BitVec.ofInt 36 (roundFree (expNeg (level * ln10Fix / 20) * sinFix (pilotPhase s f n.toNat) * 2 ^ 31) (2 ^ 256))

/-- The pilot is on: an ultrasonic one only from 96 kHz on. -/
def pilotOn (s : State) (p : PilotP) : Bool := p.mode == 1 || (p.mode == 2 && s.wave.rate != some .r48)

/-- The pilot of a probe (R247): the channel's, or 30 kHz (12.0 Hz at 48 kHz) at -46 dBFS when it is off. -/
def probePilot (s : State) (p : PilotP) : Nat × (Nat × Nat) :=
  if pilotOn s p = false then (46, if s.wave.rate = some .r48 then (120, 10) else (30000, 1)) else (p.level, pilotHz p)

/-- Samples of the largest whole number of pilot periods within `n` samples, to the nearest sample (R242). -/
def pilotW (s : State) (f : Nat × Nat) (n : Nat) : Nat :=
  let periods := n * f.1 / (hz s * f.2)
  (roundEven ((periods * f.2 * hz s : Nat) : Int) (max f.1 1)).toNat

/-! ### The word of a channel (R238, R245) -/

/-- x_th of R245; none while peak limiting is off. -/
def peakTh (q : ChanS) : Option Int :=
  match calOf q with
  | some c => if q.kerb.vPeak = 0 ∨ c.vOutFs = 0 then none
    else some (roundEven ((q.kerb.vPeak : Int) * 2 ^ 31) c.vOutFs)
  | none => none

/-- k_pk after one sample (R245). -/
def peakStep (s : State) (q : ChanS) (x : W36) : Nat :=
  match peakTh q with
  | none => 2 ^ 20
  | some th =>
    let a : Int := x.toInt.natAbs
    let tgt : Int := if a ≤ th then 2 ^ 20 else roundEven (th * 2 ^ 20) a
    let up := max 1 (roundEven ((2 ^ 20 - (q.kPk : Int)) * releaseA s q.kerb.release) (2 ^ 24))
    (min tgt (min ((q.kPk : Int) + up) (2 ^ 20))).toNat

/-- The pilot value of sample `n` in a channel's word (R238): that of a probe in it, none in the rest of the short sequence
(R247: word 0), else the channel's, whatever mutes its feed (log entry 104). -/
def pilotOf (s : State) (n : BitVec 64) (q : ChanS) : W36 :=
  if q.short = .probe then pilotAt s (probePilot s q.pilot).1 (probePilot s q.pilot).2 n
  else if shortMutes q || !pilotOn s q.pilot then 0
  else pilotAt s q.pilot.level (pilotHz q.pilot) n

/-- The word and CH_MUTE of a channel for sample `n` (R238), with its peak gain. Without the claim the word is 0 (R248). -/
def chanWord (s : State) (n : BitVec 64) (c : Nat) : ChanS :=
  let q := chanAt s c
  let feed := feedOf s c
  let mute := chanMuted s c
  let x : W36 := if mute then 0 else feed
  let kPk := peakStep s q x
  let k := min q.kTh kPk
  let y := roundEven (x.toInt * k) (2 ^ 20)
  let probing := q.short == .probe && !q.trip && linkGood (linkAt s (c / 4)) && (calOf q).isSome
  let live := claimValid s (c / 4)
  { q with
    kPk := kPk
    word := if live then BitVec.ofInt 36 (satInt 36 (y + (pilotOf s n q).toInt)) else 0
    chMute := !live || (mute && !probing) }

/-! ### Frames (R220 to R222, R227) -/

/-- 36-bit words packed most significant bit first (R221). -/
def packWords (l : List W36) : List Byte := be 18 (l.foldl (fun v w => v * 2 ^ 36 + w.toNat) 0)

/-- The words of a packed field. -/
def unpackWords (b : List Byte) : List W36 :=
  let v := beNat b
  [BitVec.ofNat 36 (v / 2 ^ 108), BitVec.ofNat 36 (v / 2 ^ 72), BitVec.ofNat 36 (v / 2 ^ 36), BitVec.ofNat 36 v]

/-- The control slot request of a frame (R227); idle without one. -/
def ctlBytes (r : Option CtlReq) : List Byte :=
  match r with
  | some q => le 1 q.op ++ le 1 q.seq.toNat ++ be 2 q.addr.toNat ++ be 4 q.data.toNat
  | none => zeros 8

/-- Positions 1 to 35 of the downstream frame of sample `n` on link `l` (R221). -/
def downFrame (s : State) (n : BitVec 64) (l : Nat) : List Byte :=
  let v := claimValid s l
  let qs := (List.range 4).map fun k => chanAt s (4 * l + k)
  let mute := (List.range 4).foldl (fun m k => m + if (chanAt s (4 * l + k)).chMute then 2 ^ k else 0) 0
  let b := be 2 (claimNow s).toNat ++ le 1 (b2n s.twin.unit + 2 * b2n v) ++ be 3 (n.toNat % 2 ^ 24) ++ le 1 mute
    ++ packWords (qs.map (·.word)) ++ ctlBytes (linkAt s l).req
  b ++ be 2 (crc16 b).toNat

/-- CAL_MISSING, once while no sense calibration is in force for the channel, and its end (R239, 14 R517). -/
def calNote (c : Nat) (s : State) : State :=
  let q := chanAt s c
  if (calOf q).isSome then
    if q.calTold then endCond 0x0507 c (onChan c (fun q => { q with calTold := false }) s) else s
  else if !q.calTold then
    raise 0x0507 c 0 (onChan c (fun q => { q with calTold := true }) s)
  else s

/-- Kiosks whose accepted request has a code and a payload that satisfies `f`. -/
def waitingKiosks (s : State) (code : Nat) (f : List Byte → Bool) : List Nat :=
  (List.range 32).filter fun k =>
    match (tget {} s.host.kiosks k).req with
    | some r => r.taken && !r.forwarded && r.code == code && f r.payload
    | none => false

/-- STATE of a channel (R257). -/
def chanState (s : State) (c : Nat) : Nat :=
  let q := chanAt s c
  let l := linkAt s (c / 4)
  if q.hostMute then 2
  else if q.short = .holdOff then 3
  else if q.short = .probe then 4
  else if q.short = .waiting then 5
  else if q.trip then 6
  else if (calOf q).isNone then 7
  else if !l.up then 8
  else if !l.accFlags.getLsbD 1 then 9
  else if chanFed s c && audioOn s (c / 4) then 1
  else 0

/-- A host mute or unmute has taken effect in wave `w`: the Kiosks that wait for it are answered (R255). -/
def muteAnswer (c : Nat) (w : BitVec 64) (s : State) : State :=
  (waitingKiosks s 0x050A fun p => (byteAt p 0).toNat == c && decide ((byteAt p 1).toNat < 2)).foldl
    (fun s k => answerOk k (le 1 (chanState s c) ++ zeros 3 ++ le 8 w.toNat) s) s

/-- An accepted host mute acts at the feed's first zero crossing, or 96 samples on (R255). -/
def muteStep (n : BitVec 64) (c : Nat) (s : State) : State :=
  let q := chanAt s c
  match q.muteDue with
  | some (true, w) =>
    if w.toNat ≤ n.toNat ∨ feedCrosses s c = true then
      muteAnswer c n (onChan c (fun q => { q with
        hostMute := true
        muteDue := none }) s)
    else s
  | _ => s

/-- One link at the tick of sample `n` (R226, R228, R238): periods without an accepted frame, the control slot, the
words and the frame. -/
def linkTick (n : BitVec 64) (l : Nat) (s : State) : State :=
  let s := onLink l (fun k =>
    let k := if k.heard then { k with
        heard := false
        bad := 0 }
      else { k with
        good := 0
        bad := min 8 (k.bad + 1) }
    match k.req with
    | some r =>
      let r := { r with waits := r.waits + 1 }
      let r := if 64 < r.waits ∧ r.repeats < 3 then { r with
          waits := 1
          repeats := r.repeats + 1 } else r
      { k with req := some r }
    | none =>
      match k.todo with
      | r :: t => { k with
          seq := k.seq + 1
          todo := t
          req := some { r with
            seq := k.seq + 1
            waits := 1 } }
      | [] => k) s
  let cs := (List.range 4).map (4 * l + ·)
  let s := cs.foldl (fun s c => calNote c (muteStep n c s)) s
  let s := cs.foldl (fun s c => onChan c (fun _ => chanWord s n c) s) s
  onLink l (fun k => { k with
    rd := if k.frame = [] then false else lineRd k.rd k.frame
    frame := downFrame s n l }) s

/-- The 256 code-groups of a link's frame, positions 0 to 255 (R220); none while the link is idle low. -/
def linkLine (k : LinkS) : List (BitVec 10) := if k.frame = [] then [] else lineGroups k.rd k.frame

/-- A module: I²C module 0 to 31, stage at 32 + link (09 R308). -/
def modAt (s : State) (m : Nat) : ModS := tget {} s.lio.mods m

/-- A change of one module. -/
def onMod (m : Nat) (f : ModS → ModS) (s : State) : State := s.onLio fun x => { x with mods := tmod {} x.mods m f }

/-- The DMIR read of a link's stage starts: 64 requests of the control slot (09 R301). -/
def dmirStart (l : Nat) (s : State) : State :=
  onMod (32 + l) (fun m => { m with
    before := if m.st = 1 then m.before else m.st
    st := 1
    retryAt := none }) (onLink l (fun k => { k with
      dmir := []
      req := match k.req with
        | some r => if r.owner = 32 then none else some r
        | none => none
      todo := (k.todo.filter fun t => t.owner != 32)
        ++ (List.range 64).map fun i => { op := 1, addr := BitVec.ofNat 16 (4 * i), owner := 32 } }) s)

/-- A census run starts (09 R300, R308): scope 1 I²C, 2 the stages whose links are up, 3 both. Kiosks that wait for it are
answered. -/
def runStart (scope : Nat) (s : State) : State :=
  let ls := if 2 ≤ scope then (List.range 32).filter fun l => (linkAt s l).up else []
  let i2c := scope % 2 == 1
  let s := if i2c then drivePin 7 s else s
  let s := s.onLio fun x => { x with
    busy := i2c || !ls.isEmpty
    probe := i2c
    probed := []
    runLinks := ls
    runAt := sampleNow s
    sticky := if i2c || !ls.isEmpty then x.sticky else x.sticky ||| 0x01 }
  let s := ls.foldl (fun s l => dmirStart l s) s
  (waitingKiosks s 0x0703 fun _ => true).foldl (fun s k => answerOk k (le 8 s.lio.runAt.toNat) s) s

/-- A census run that has nothing left to read is complete; the one that was asked for meanwhile follows (09 R306). -/
def censusEnd (s : State) : State :=
  if s.lio.busy && !s.lio.probe && s.lio.probed.isEmpty && s.lio.runLinks.isEmpty then
    let next := s.lio.again
    let s := s.onLio fun x => { x with
      busy := false
      again := 0
      sticky := x.sticky ||| 0x01 }
    if next = 0 then s else runStart next s
  else s

/-- The read ends unfinished; the stage is left in a state (09 R301, R306). -/
def dmirStop (l st : Nat) (s : State) : State :=
  if (modAt s (32 + l)).st = 1 then
    let s := onLink l (fun k => { k with
      dmir := []
      req := match k.req with
        | some r => if r.owner = 32 then none else some r
        | none => none
      todo := k.todo.filter fun t => t.owner != 32 }) s
    let s := onMod (32 + l) (fun m => { m with st := st }) s
    censusEnd (s.onLio fun x => { x with runLinks := x.runLinks.filter (· != l) })
  else s

/-- Every link at the tick of sample `n`, whose words the sinks have been handed (R225); links that send no frames are
idle low. The DMIR reads start when the links first carry frames (09 R301, R308). -/
def driveTick (n : BitVec 64) (s : State) : State :=
  if linksRun s then
    let s := if s.drv.frames then s else
      ((List.range 32).filter fun l => (modAt s (32 + l)).st == 0).foldl (fun s l => dmirStart l s) s
    (List.range 32).foldl (fun s l => linkTick n l s) (s.onDrv fun d => { d with
      frames := true
      sent := (n :: d.sent).take 8 })
  else s

/-- Links go idle low (R248). -/
def linksIdle (s : State) : State :=
  (List.range 32).foldl (fun s l => onLink l (fun k => { k with frame := [] }) s) (s.onDrv fun d => { d with
    frames := false
    sent := [] })

/-! ### The short sequence (R247) -/

/-- Samples of the hold-off. -/
def holdOff (s : State) : Nat := 2 * hz s

/-- A short is detected: the channel is muted from the next downstream frame on, DEGRADE SHORT is raised and the hold-off
begins; a channel in the sequence stays in it. -/
def shortStart (c : Nat) (s : State) : State :=
  if (chanAt s c).short = .none then
    raise 0x050B c 0 ((onChan c (fun q => { q with
      short := .holdOff
      shortAt := s.wave.count + 1
      resume := none
      shorts := satAdd q.shorts 1 }) s).onDrv fun d => { d with shortEv := true })
  else s

/-- Over-current or a saturated current in a frame: a short. In a probe, over-current ends it at the next frame, and a
saturated current makes it fail at its end. -/
def shortSeen (c : Nat) (oc : Bool) (s : State) : State :=
  if (chanAt s c).short = .probe then
    onChan c (fun q => if oc then { q with
        short := .waiting
        shortAt := s.wave.count + 1
        probeBad := true }
      else { q with probeBad := true }) s
  else shortStart c s

/-- The pilot parameters that wait act from this window on (R252). -/
def pilotTake (q : ChanS) : ChanS :=
  match q.pilotNext with
  | some p => { q with
      pilot := p
      pilotNext := none }
  | none => q

/-- The sums of a pilot reading begin anew. -/
def pilotClear (q : ChanS) : ChanS :=
  { q with
    pilM := 0
    pilV := (0, 0)
    pilI := (0, 0) }

/-- A probe starts (R247 step 4). -/
def probeStart (c : Nat) (s : State) : State :=
  onChan c (fun q => { pilotClear q with
    short := .probe
    shortAt := s.wave.count + 1
    probeBad := false
    probes := satAdd q.probes 1 }) s

/-- A change of rate restarts the pilot windows and the timers of the short sequences, at the tick of sample `n` (R250). -/
def restartTimers (n : BitVec 64) (s : State) : State :=
  (List.range 128).foldl (fun s c => onChan c (fun q => { pilotTake (pilotClear q) with
    pilAt := n
    shortAt := if q.short = .none then q.shortAt else n
    probeBad := false }) s) s

/-- An automatic probe is due: after the hold-off, or 10 s after the last one; at once after the link has come up again
(R250). A hold stops it (R255). -/
def probeDue (s : State) (c : Nat) : Bool :=
  let q := chanAt s c
  let t := s.wave.count.toNat
  !q.hold && (linkAt s (c / 4)).up && match q.short with
    | .holdOff => decide (q.shortAt.toNat + holdOff s ≤ t + 1)
    | .waiting => q.shortAt == 0 || decide (q.shortAt.toNat + 10 * hz s ≤ t + 1)
    | _ => false

/-- SHORT_PROBE_START (R247). -/
def execShortProbeStart (channel : Fin 128) (s : State) : Host.Outcome State Fault Refusal :=
  .next (if probeDue s channel.val then probeStart channel.val s else s)

/-- CHANNEL_RESUME (R244, R247, R255): a cleared or unmuted channel resumes at the first zero crossing of its feed, or at
its last wave: from the word of the next tick on. -/
def execChannelResume (channel : Fin 128) (s : State) : Host.Outcome State Fault Refusal :=
  let c := channel.val
  let q := chanAt s c
  let n := s.wave.count + 1
  let come (w : BitVec 64) : Bool := decide (w.toNat ≤ n.toNat) || feedCrosses s c
  let s1 := match q.resume with
    | some w => if come w && q.short == .none && !q.trip then onChan c (fun q => { q with resume := none }) s else s
    | none => s
  match q.muteDue with
  | some (false, w) =>
    if come w then
      .next (muteAnswer c n (onChan c (fun q => { q with
        hostMute := false
        muteDue := none }) s1))
    else .next s1
  | _ => .next s1

/-! ### Thermal model (R240, R243, R244) -/

/-- 32-bit narrowing of a temperature or power. -/
def narrow32 (x : Int) : Int := satInt 32 x

/-- The parameters that wait act from this update on (R252). -/
def thermTake (q : ChanS) : ChanS :=
  match q.thermNext with
  | some t => { q with
      therm := t
      thermNext := none }
  | none => q

/-- The two-node model over one window (R240). -/
def thermStep (s : State) (q : ChanS) : ChanS :=
  let t := q.therm
  let p : Int := match calOf q with
    | some c =>
      if q.winM < 8 then q.pLast
      else narrow32 (roundEven (max 0 (q.winPow * c.vLsb * c.iLsb) * 65536) (10 ^ 18 * q.winM))
    | none => q.pLast
  let fs : Int := hz s
  let dT := q.tvc - q.tm
  let dv := fs * t.cthVc * t.rthVc
  let dm := fs * t.cthM * t.rthVc * t.rthM
  { q with
    tvc := narrow32 (roundEven (q.tvc * dv + 256 * (p * t.rthVc - 256 * dT)) dv)
    tm := narrow32 (roundEven (q.tm * dm + 4096 * (dT * t.rthM - (q.tm - 4096 * t.tAmb) * t.rthVc)) dm)
    pLast := p
    winHist := ((s.drv.thermWin, q.winPow, q.winM) :: q.winHist).take 16
    winPow := q.nextPow
    winM := q.nextM
    nextPow := 0
    nextM := 0 }

/-- The temperature that the limiter uses (R243, R244). -/
def limitTemp (q : ChanS) : Int :=
  match q.tMeas with
  | some m => if q.useMeas then max q.tvc m else q.tvc
  | none => q.tvc

/-- The thermal gain's target (R244). -/
def thermTarget (q : ChanS) : Nat :=
  let past := max 0 (limitTemp q - 4096 * q.therm.tKnee)
  let num := (q.therm.slope : Int) * past
  if num ≤ 0 then 2 ^ 20
  else kerbCode (min num (655360 * q.kerb.floor)) 655360

/-- One channel at a thermal update: the model, the gain's step, the trip and its end. -/
def thermChan (c : Nat) (s : State) : State :=
  let q := thermStep s (thermTake (chanAt s c))
  let q := { q with kTh := stepDb q.kTh (thermTarget q) }
  let t := limitTemp q
  let s := onChan c (fun _ => q) s
  if !q.trip && decide (4096 * q.therm.tMax ≤ t) then
    raise 0x0509 c 0 ((onChan c (fun q => { q with trip := true }) s).onDrv fun d => { d with thermEv := true })
  else if q.trip && decide (t < 4096 * q.therm.tKnee) then
    endCond 0x0509 c (onChan c (fun q => { q with
      trip := false
      resume := some (s.wave.count + 96) }) s)
  else s

/-- THERMAL_UPDATE (R240, R244): once per window of 16 samples, when the frames of the window have arrived. -/
def execThermalUpdate (s : State) : Host.Outcome State Fault Refusal :=
  let n := s.wave.count.toNat
  if s.drv.frames = true ∧ n ≠ 0 ∧ (16 * (s.drv.thermWin + 1) + 3 ≤ n ∨ n + 16 ≤ 16 * s.drv.thermWin) then
    .next ((List.range 128).foldl (fun s c => thermChan c s)
      (s.onDrv fun d => { d with thermWin := (n - 3) / 16 }))
  else .next s

/-! ### Pilot readings (R242, R243, R246) -/

/-- A note is due at most once per 3,600 s. -/
def hourDue (at_ : Option Nat) (now : Nat) : Bool :=
  match at_ with
  | some t => decide (t + 3600000000 ≤ now)
  | none => true

/-- The measured coil temperature of a valid subsonic reading whose resistance is `re` / `den` in 10 mohm, as a fraction
in 2^-16 C (R243). -/
def measTemp (q : ChanS) (re den : Int) : Option (Int × Int) :=
  if q.therm.re0 = 0 ∨ q.therm.alpha = 0 then none
  else
    let d := den * (q.therm.re0 : Int) * q.therm.alpha
    some (4096 * q.therm.t0 * d + (re - q.therm.re0 * den) * 65536 * 1000000, d)

/-- The reactions of R243 to a measured temperature of `num` / `den`. -/
def measStep (c : Nat) (num den : Int) (s : State) : State :=
  let q := chanAt s c
  let diff := (num - q.tvc * den).natAbs
  let away := decide (15 * 65536 * den < diff)
  let tell := away && hourDue q.divergeAt s.clk.now
  let far := if 40 * 65536 * den < diff then q.far + 1 else 0
  let s := onChan c (fun q => { q with
    tMeas := some (roundEven num den)
    tvc := if away then narrow32 (roundEven (3 * q.tvc * den + num) (4 * den)) else q.tvc
    diverge := away
    divergeAt := if tell then some s.clk.now else q.divergeAt
    far := far
    useMeas := if away then q.useMeas || decide (3 ≤ far) else false
    mismatch := q.mismatch || decide (3 ≤ far) }) s
  let s := if tell then raise 0x0502 c 0 s else s
  if 3 ≤ far then raise 0x0508 c 0 s else if away then s else endCond 0x0508 c s

/-- What the correlation of R242 gives: the real and imaginary parts of V times the conjugate of I, and the squares of |V|
and |I|, in the scale of the sums. -/
def corrOf (q : ChanS) : Int × Int × Int × Int :=
  let (vS, vC) := q.pilV
  let (iS, iC) := q.pilI
  (vC * iC + vS * iS, vC * iS - vS * iC, vC * vC + vS * vS, iC * iC + iS * iS)

/-- A reading is valid (R242): |I| is at least 16 codes, and 90 % of the `w` frames were accepted. -/
def readingOk (q : ChanS) (w : Nat) : Bool :=
  decide (0 < q.pilM ∧ 9 * w ≤ 10 * q.pilM ∧ (16 * 2 ^ 128 * (q.pilM : Int)) ^ 2 ≤ 4 * (corrOf q).2.2.2)

/-- V_LSB and I_LSB of the calibration in force. -/
def lsbOf (q : ChanS) : Nat × Nat :=
  match calOf q with
  | some c => (c.vLsb, c.iLsb)
  | none => (0, 0)

/-- |Z| squared in units of (10 mohm)^2, as a fraction (R242). Without a scale of the current, |Z| is the free value
`free`. -/
def zSquare (q : ChanS) (free : Nat) : Nat × Nat :=
  let k := corrOf q
  let l := lsbOf q
  if l.2 = 0 then (free * free, 1)
  else (k.2.2.1.toNat * (100 * l.1) ^ 2, k.2.2.2.toNat * l.2 ^ 2)

/-- The real part of Z in 10 mohm, as a fraction (R242). -/
def zReal (q : ChanS) (free : Nat) : Int × Int :=
  let k := corrOf q
  let l := lsbOf q
  if l.2 = 0 then (free, 1) else (k.1 * 100 * l.1, k.2.2.2 * l.2)

/-- |Z| in 10 mohm. -/
def zMagOf (z : Nat × Nat) : Int :=
  let r := Nat.sqrt (z.1 / z.2)
  if r * r * z.2 = z.1 then r else r + (if Config.roundsUp z.1 z.2 then 1 else 0)

/-- The largest `k` up to `hi` hundredths of a degree at which the angle of (x, y), in the first quadrant, has not been
passed: `n` halvings between `lo` and `hi`. -/
def angleFind (x y : Int) : Nat → Nat → Nat → Nat
  | 0, lo, _ => lo
  | n + 1, lo, hi =>
    let m := (lo + hi + 1) / 2
    if x * sinQuarter m 9000 ≤ y * sinQuarter (9000 - m) 9000 then angleFind x y n m hi else angleFind x y n lo (m - 1)

/-- The phase of Z in 0.01 degree, from its real and imaginary parts; the free value `free` where Z is 0. -/
def zPhaseOf (x y : Int) (free : Nat) : Int :=
  if x = 0 ∧ y = 0 then (free % 36000 : Nat) - 18000
  else
    let (q, x, y) : Nat × Int × Int :=
      if 0 < x ∧ 0 ≤ y then (0, x, y) else if x ≤ 0 ∧ 0 < y then (1, y, -x) else if x < 0 then (2, -x, -y) else (3, -y, x)
    let k := angleFind x y 14 0 9000
    let exact := x * sinQuarter k 9000 == y * sinQuarter (9000 - k) 9000
    let a : Int := 9000 * q + k + (if !exact && Config.roundsUp x y then 1 else 0)
    if 18000 < a then a - 36000 else a

/-- A value of a 16-bit field of a reading; the free value `free` where it does not fit. -/
def fit16 (free : Nat) (x : Int) : Nat := if 0 ≤ x ∧ x < 65536 then x.toNat else free % 65536

/-- The checks of R246 on a valid reading, |Z| being the root of the fraction `zz`. -/
def loadChecks (c : Nat) (zz : Nat × Nat) (s : State) : State :=
  let q := chanAt s c
  let z := q.z
  let below (l : Nat) : Bool := decide (zz.1 < l * l * zz.2)
  let above (l : Nat) : Bool := decide (l * l * zz.2 < zz.1)
  let s := if below z.shortL then shortStart c s else s
  let s := if above z.openL then raise 0x050A c 0 (onChan c (fun q => { q with open_ := true }) s)
    else if !below z.shortL then endCond 0x050A c (onChan c (fun q => { q with open_ := false }) s)
    else s
  let lo := z.zRef * (100 - z.zLow)
  let hi := z.zRef * (100 + z.zHigh)
  let out := z.zRef != 0 && (decide (10000 * zz.1 < lo * lo * zz.2) || decide (hi * hi * zz.2 < 10000 * zz.1))
  if out then
    if hourDue q.zWinAt s.clk.now then
      raise 0x0503 c 0 (onChan c (fun q => { q with
        zWin := true
        zWinAt := some s.clk.now }) s)
    else onChan c (fun q => { q with zWin := true }) s
  else s

/-- A valid reading is taken, with the pilot in use subsonic or not: its values, the measured temperature of R243 and the
checks of R246. -/
def takeReading (c : Nat) (sub : Bool) (s : State) : State :=
  let q := chanAt s c
  let free := Config.free s.free
  let k := corrOf q
  let re := zReal q free
  let zz := zSquare q free
  let s := onChan c (fun q => { q with
    readOk := true
    zMag := fit16 free (zMagOf zz)
    zPhase := zPhaseOf k.1 k.2.1 free
    reEst := if sub then fit16 free (roundFree re.1 re.2) else 0 }) { s with free := s.free + 1 }
  let s := match (if sub then measTemp q re.1 re.2 else none) with
    | some t => measStep c t.1 t.2 s
    | none => s
  loadChecks c zz s

/-- The next pilot window begins. -/
def pilotNextWindow (c : Nat) (s : State) : State :=
  onChan c (fun q => pilotTake { pilotClear q with pilAt := s.wave.count }) s

/-- PILOT_WINDOW_END (R242, R243, R246): the reading is formed from the frames that have come, and the next window begins. -/
def execPilotWindowEnd (channel : Fin 128) (_ _ _ _ : Computed) (s : State) : Host.Outcome State Fault Refusal :=
  let c := channel.val
  let q := chanAt s c
  let n := q.pilot.window * (hz s / 4)
  if s.drv.frames = true ∧ pilotOn s q.pilot = true ∧ q.short ≠ .probe ∧ q.pilAt.toNat + n ≤ s.wave.count.toNat then
    if readingOk q (pilotW s (pilotHz q.pilot) n) then
      .next (pilotNextWindow c (takeReading c (q.pilot.mode == 1) (onChan c (fun q => { q with noRead := 0 }) s)))
    else
      let s := pilotNextWindow c (onChan c (fun q => { q with
        readOk := false
        noRead := q.noRead + 1 }) s)
      .next (if q.noRead + 1 = 4 then raise 0x0504 c 0 s else s)
  else .next s

/-- A probe ends: the channel resumes, or waits for 10 s; its pilot windows begin anew. -/
def probeEnd (c : Nat) (clear : Bool) (s : State) : State :=
  let s := pilotNextWindow c s
  if clear then
    endCond 0x050B c (raise 0x0505 c 0 (onChan c (fun q => { q with
      short := .none
      resume := some (s.wave.count + 96) }) s))
  else onChan c (fun q => { q with
    short := .waiting
    shortAt := s.wave.count + 1 }) s

/-- SHORT_PROBE_END (R247): a valid reading at or above SHORT_LIMIT without over-current or saturation clears the short;
otherwise the 10 s wait. A valid reading is checked like any other (R246). -/
def execShortProbeEnd (channel : Fin 128) (_ _ : Computed) (s : State) : Host.Outcome State Fault Refusal :=
  let c := channel.val
  let q := chanAt s c
  let n := hz s / 5
  if q.short = .probe ∧ q.shortAt.toNat + n ≤ s.wave.count.toNat + 1 then
    let f := (probePilot s q.pilot).2
    let ok := readingOk q (pilotW s f n)
    let zz := zSquare q (Config.free s.free)
    let clear := ok && decide (q.z.shortL * q.z.shortL * zz.2 ≤ zz.1) && !q.probeBad
    .next (probeEnd c clear (if ok then takeReading c (decide (f.1 < 1000 * f.2)) s
      else onChan c (fun q => { q with readOk := false }) s))
  else .next s

/-! ### Upstream frames (R223, R226) -/

/-- The sample of an accepted frame, from its SC_ECHO. -/
def frameSample (s : State) (f : List Byte) : Nat :=
  match s.drv.sent.find? fun n => n.toNat % 2 ^ 24 == fldBe f 1 3 with
  | some n => n.toNat
  | none => 0

/-- The sample lies in the last whole pilot periods of the channel's probe or pilot window (R242, R247). -/
def pilotSample (s : State) (q : ChanS) (n : Nat) : Bool :=
  if q.short = .probe then
    decide (q.shortAt.toNat + hz s / 5 ≤ n + pilotW s (probePilot s q.pilot).2 (hz s / 5))
  else
    let d := q.pilot.window * (hz s / 4)
    decide (q.pilAt.toNat + d < n + pilotW s (pilotHz q.pilot) d)

/-- The power of sample `n` is added to, or with `back` taken from, the thermal window in which its SC_ECHO lies: `w` windows
of 16 samples, each ending on a multiple of 16, have been evaluated (R240). -/
def windowAdd (back : Bool) (w n : Nat) (pw : Int) (q : ChanS) : ChanS :=
  let p := if back then -pw else pw
  let m (k : Nat) : Nat := if back then k - 1 else k + 1
  if n ≤ 16 * w then q
  else if n ≤ 16 * (w + 1) then { q with
      winPow := q.winPow + p
      winM := m q.winM }
  else { q with
      nextPow := q.nextPow + p
      nextM := m q.nextM }

/-- The codes of sample `n`, which lies in a reading's periods, are added to its correlation, or with `back` taken from it
(R242). -/
def pilotAdd (s : State) (back : Bool) (n : Nat) (v i : Int) (q : ChanS) : ChanS :=
  if pilotSample s q n then
    let f := if q.short = .probe then (probePilot s q.pilot).2 else pilotHz q.pilot
    let p := pilotPhase s f n
    let (sn, cs) := if back then (-sinFix p, -cosFix p) else (sinFix p, cosFix p)
    { q with
      pilM := if back then q.pilM - 1 else q.pilM + 1
      pilV := (q.pilV.1 + v * sn, q.pilV.2 + v * cs)
      pilI := (q.pilI.1 + i * sn, q.pilI.2 + i * cs) }
  else q

/-- The Load Monitor takes the flags and sense of one channel from positions 1 to 38 of an accepted frame. -/
def monitorChan (l k : Nat) (f : List Byte) (s : State) : State :=
  let c := 4 * l + k
  let st := byteAt f (8 + k)
  let v := sgn 24 (fldBe f (12 + 3 * k) 3)
  let i := fldBe f (24 + 3 * k) 3
  let n := frameSample s f
  let s := onChan c (fun q => { pilotAdd s false n v (sgn 24 i) (windowAdd false s.drv.thermWin n (v * sgn 24 i) q) with
    muted := st.getLsbD 2 }) s
  if st.getLsbD 0 || i == 0x7FFFFF || i == 0x800000 then shortSeen c (st.getLsbD 0) s else s

/-- The Load Monitor has taken a frame of this sample, or has acted on a later one (R225). -/
def scTaken (k : LinkS) (sc : BitVec 24) : Bool :=
  match k.lastSc with
  | some p => decide ((p - sc).toNat < 8)
  | none => false

/-- The Load Monitor takes an accepted frame of a sample once, and in the order of the samples (10 R320). -/
def monitorFrame (l : Nat) (f : List Byte) (s : State) : State :=
  let sc := BitVec.ofNat 24 (fldBe f 1 3)
  if scTaken (linkAt s l) sc then s
  else
    let s := onLink l (fun k => { k with
      lastSc := some sc
      played := BitVec.ofNat 16 (fldBe f 36 2) }) s
    (List.range 4).foldl (fun s k => monitorChan l k f s) s

/-- The SC_ECHO is one of the eight most recent values sent. -/
def scRecent (s : State) (sc : Nat) : Bool :=
  s.drv.sent.any fun n => n.toNat % 2 ^ 24 == sc

/-- The reply to the outstanding request of a link (R228, R254): it completes the request, and its Kiosk is answered. A
reply to a census read is kept with the link (09 R301). -/
def ctlReply (l : Nat) (b : List Byte) (s : State) : State :=
  match (linkAt s l).req with
  | none => s
  | some r =>
    if r.op ≠ 0 ∧ byteAt b 0 = BitVec.ofNat 8 r.op ∧ byteAt b 1 = r.seq then
      let st := (byteAt b 2).toNat
      let data := fldBe b 4 4
      let s := onLink l (fun k => { k with req := none }) s
      let now := le 8 (sampleNow s).toNat
      if r.owner = 32 then
        onLink l (fun k => { k with dmir := k.dmir ++ (b.drop 4).take 4 }) s
      else
        match (tget {} s.host.kiosks r.owner).req with
        | none => s
        | some q =>
          if q.code = 0x0504 then answerOk r.owner (le 1 st ++ zeros 3 ++ le 4 data ++ now) s
          else
            let drop (s : State) : State := onLink l (fun k => { k with todo := k.todo.filter fun t => t.owner != r.owner }) s
            if st = 3 then answerFail r.owner { status := 0x0031 } (drop s)
            else if st = 4 then answerFail r.owner { status := 0x0030 } (drop s)
            else if r.addr.toNat < 0x0110 then
              if st = 0 then
                onLink l (fun k => { k with todo := k.todo.map fun t =>
                  if t.owner = r.owner then { t with got := data } else t }) s
              else answerOk r.owner (le 1 st ++ zeros 3 ++ le 2 data ++ zeros 2 ++ now) (drop s)
            else answerOk r.owner (le 1 st ++ zeros 3 ++ le 2 r.got ++ le 1 data ++ le 1 (data / 256) ++ now) s
    else s

/-- A link comes up (R226): the short sequences on it continue with a probe (R250), and the DMIR of its stage is read,
unless a read is already in progress (09 R301). -/
def linkUpNow (l : Nat) (s : State) : State :=
  let s := endCond 0x0506 l (onLink l (fun k => { k with up := true }) s)
  let s := if (modAt s (32 + l)).st = 1 then s else dmirStart l s
  (List.range 4).foldl (fun s k => onChan (4 * l + k) (fun q =>
    if q.short = .none then q else { q with
      short := .waiting
      shortAt := 0 }) s) s

/-- The engine's port receives one upstream frame, positions 1 to 48, with its comma at position 0 or not (R226). -/
def upstreamFrame (l : Nat) (comma : Bool) (f : List Byte) (s : State) : State :=
  let crcOk := (crc16 (f.take 46)).toNat == fldBe f 46 2
  if comma && f.length == 48 && crcOk && scRecent s (fldBe f 1 3) then
    let s := onLink l (fun k => { k with
      good := min 16 (k.good + 1)
      heard := true
      stage := byteAt f 0
      accClaim := BitVec.ofNat 16 (fldBe f 4 2)
      accFlags := byteAt f 6
      errCount := byteAt f 7
      lastGood := BitVec.ofNat 32 (frameSample s f)
      aclRun := if (byteAt f 0).getLsbD 1 then k.aclRun + 1 else 0
      fwd := f.take 38 }) s
    let s := if (linkAt s l).good = 16 ∧ (linkAt s l).up = false then linkUpNow l s else s
    let s := ctlReply l ((f.drop 38).take 8) s
    monitorFrame l (f.take 38) s
  else
    onLink l (fun k => { k with
      good := 0
      refused := satAdd k.refused 1
      upCrc := if comma && f.length == 48 && !crcOk then satAdd k.upCrc 1 else k.upCrc }) s

/-- The sense calibration that a stage declared is withdrawn (09 R302, R305). -/
def calDrop (l : Nat) (s : State) : State :=
  (List.range 4).foldl (fun s k => onChan (4 * l + k) (fun q => { q with calDmir := none }) s) s

/-- A link no longer carries frames: a read of its stage ends, and the calibration read from it is withdrawn (09 R302, R306). -/
def linkOff (l : Nat) (s : State) : State :=
  calDrop l (dmirStop l (modAt s (32 + l)).before (onLink l (fun k => { k with
    up := false
    aclRun := 0 }) s))

/-- LINK_LOSS (R226, 09 R302): after 8 periods without an accepted frame the link is lost, its channels mute, and the
calibration read from its stage is withdrawn. -/
def execLinkLoss (link : Fin 32) (s : State) : Host.Outcome State Fault Refusal :=
  let l := link.val
  if (linkAt s l).up = true ∧ 8 ≤ (linkAt s l).bad then
    let s := linkOff l (onLink l (fun k => { k with upLosses := satAdd k.upLosses 1 }) s)
    .next (raise 0x0506 l 0 (s.onDrv fun d => { d with linkLoss := true }))
  else .next s

/-- CTL_TIMEOUT (R228): after the wait and its three repeats the request ends. -/
def execCtlTimeout (link : Fin 32) (s : State) : Host.Outcome State Fault Refusal :=
  let l := link.val
  match (linkAt s l).req with
  | none => .next s
  | some r =>
    if 64 ≤ r.waits ∧ r.repeats = 3 then
      let s := onLink l (fun k => { k with
        req := none
        ctlTo := satAdd k.ctlTo 1
        todo := k.todo.filter fun t => t.owner != r.owner }) s
      let s := if r.owner = 32 then
          (onMod (32 + l) (fun m => { m with retryAt := some (s.clk.now + 10000000) })
            (calDrop l (dmirStop l 3 s))).onLio fun x => { x with sticky := x.sticky ||| 0x04 }
        else s
      let s := raise 0x0501 l 0 (s.onDrv fun d => { d with ctlTo := true })
      .next (if r.owner < 32 then answerFail r.owner { status := 0x0033 } s else s)
    else .next s

end Sys2Proof.Machine
end

