-- ==== Sys2Proof/Machine/Stage.lean ====
section
/-! DEFINITION. The power stage at the end of a link, as far as its duties go (07 R229 to R237). -/

namespace Sys2Proof.Machine

/-- The stage of a link. -/
def stageAt (s : State) (l : Nat) : StageS := tget {} s.drv.stages l

/-- A change of one stage. -/
def onStage (l : Nat) (f : StageS → StageS) (s : State) : State :=
  s.onDrv fun d => { d with stages := tmod {} d.stages l f }

/-- An input of a stage. -/
def stageIn (t : StageS) (b : Bool) : StageIn := if b then t.b else t.a

/-- A change of one input. -/
def onStageIn (b : Bool) (f : StageIn → StageIn) (t : StageS) : StageS :=
  if b then { t with b := f t.b } else { t with a := f t.a }

/-- An input is valid: locked, and its latest good frame has CLAIM_VALID (R232). -/
def inValid (i : StageIn) : Bool := i.locked && i.valid

/-- Claim `a` is higher than claim `b` (R233). -/
def claimHigher (a b : BitVec 16) : Bool := decide (1 ≤ (a - b).toNat ∧ (a - b).toNat ≤ 32767)

/-- The Bollard rule (R233): the accepted input, and ID_CONFLICT. -/
def bollard (a b : StageIn) : Option Bool × Bool :=
  match inValid a, inValid b with
  | false, false => (none, false)
  | true, false => (some false, false)
  | false, true => (some true, false)
  | true, true =>
    if claimHigher a.claim b.claim then (some false, false)
    else if claimHigher b.claim a.claim then (some true, false)
    else if a.unit = b.unit then (some false, true)
    else (some a.unit, false)

/-- The rule is evaluated on every frame period (R234): the accepted input, played from the sample `c` of the deciding frame
on, and ACTIVE_CLAIM_LOST from the period in which the accepted input stops being valid until an input with a claim higher
than it had before (`old`), or the lost one, is accepted (R235). -/
def stageJudge (old : StageS) (c : BitVec 24) (t : StageS) : StageS :=
  let r := bollard t.a t.b
  let lost := match t.acc with
    | some x => if inValid (stageIn t x) then t.lost else some ((stageIn old x).claim, x)
    | none => t.lost
  let lost := match lost, r.1 with
    | some (c, x), some y =>
      if x = y ∨ claimHigher (stageIn t y).claim c = true then none else some (c, x)
    | l, _ => l
  { t with
    acc := r.1
    switchAt := if r.1 = t.acc then t.switchAt else some (c, t.acc)
    idConf := r.2
    lost := lost
    muteAll := t.muteAll && r.1.isNone }

/-- Position `k` of the stage's output is muted (R236): by CH_MUTE of the frame that is being played, among others. -/
def stageMuted (t : StageS) (k : Nat) : Bool :=
  t.muteAll || t.acc.isNone || t.trips.getLsbD k || t.playMute.getLsbD k

/-- A read of a control register (R229): status and data. What a stage-specific register holds is the module
designer's: a free value. -/
def stageRead (t : StageS) (free : BitVec 32) (a : Nat) : Nat × BitVec 32 :=
  if a ≤ 0xFC then
    (if a % 4 = 0 then (0, BitVec.ofNat 32 (fldBe t.dmir a 4)) else (1, 0))
  else if 0x100 ≤ a ∧ a ≤ 0x103 then (0, tget 0 t.idle (a - 0x100))
  else if 0x110 ≤ a ∧ a ≤ 0x113 then (0, tget 0 t.trim (a - 0x110))
  else if a = 0x120 then (0, t.fw)
  else if 0x8000 ≤ a then (0, free)
  else (1, 0)

/-- LOOP_TRIM's ranges (R229). -/
def trimOk (v : Nat) : Bool :=
  decide (v / 8192 = 0 ∧ -64 ≤ sgn 8 (v % 256) ∧ sgn 8 (v % 256) ≤ 63)

/-- A write of a control register from input `b` (R229, R230). -/
def stageWrite (t : StageS) (b : Bool) (free v : BitVec 32) (a : Nat) : StageS × Nat × BitVec 32 :=
  if t.acc ≠ some b then (t, 3, 0)
  else if a ≤ 0xFC ∨ a = 0x120 then (t, if a ≤ 0xFC ∧ a % 4 ≠ 0 then 1 else 2, 0)
  else if 0x100 ≤ a ∧ a ≤ 0x103 then
    let k := a - 0x100
    if !stageMuted t k then (t, 4, tget 0 t.idle k)
    else if 300 ≤ v.toNat ∧ v.toNat ≤ 600 then ({ t with idle := tput 0 t.idle k v }, 0, v)
    else (t, 5, tget 0 t.idle k)
  else if 0x110 ≤ a ∧ a ≤ 0x113 then
    let k := a - 0x110
    if !stageMuted t k then (t, 4, tget 0 t.trim k)
    else if trimOk v.toNat then ({ t with trim := tput 0 t.trim k v }, 0, v)
    else (t, 5, tget 0 t.trim k)
  else if 0x8000 ≤ a then (t, 0, free)
  else (t, 1, 0)

/-- A control slot request on an input (R227, R228): each SEQ is executed once, and an idle request needs no reply. -/
def stageControl (t : StageS) (b : Bool) (free : BitVec 32) (q : List Byte) : StageS :=
  let op := (byteAt q 0).toNat
  let sq := byteAt q 1
  if op = 0 ∨ (stageIn t b).seqDone = some sq then t
  else
    let a := fldBe q 2 2
    let v := BitVec.ofNat 32 (fldBe q 4 4)
    let r : StageS × Nat × BitVec 32 :=
      if op = 1 then (t, stageRead t free a)
      else if op = 2 then stageWrite t b free v a
      else (t, 6, 0)
    onStageIn b (fun i => { i with
      seqDone := some sq
      reply := [byteAt q 0, sq] ++ le 1 r.2.1 ++ zeros 1 ++ be 4 r.2.2.toNat }) r.1

/-- A good frame on an input (R221, R232). -/
def inGood (f : List Byte) (i : StageIn) : StageIn :=
  let run := min 4 (i.run + 1)
  { i with
    run := run
    locked := i.locked || run == 4
    miss := 0
    claim := BitVec.ofNat 16 (fldBe f 0 2)
    unit := (byteAt f 2).getLsbD 0
    valid := (byteAt f 2).getLsbD 1
    sc := BitVec.ofNat 24 (fldBe f 3 3)
    hist := ((BitVec.ofNat 24 (fldBe f 3 3), (byteAt f 6).truncate 4, unpackWords ((f.drop 7).take 18)) :: i.hist).take 2 }

/-- A frame that is missing or bad (R232): a locked input repeats its previous four samples once; a second such frame
loses it. What its buffer holds is still played until the switch. -/
def inBad (i : StageIn) : StageIn :=
  if i.locked && i.miss == 0 then
    { i with
      miss := 1
      sc := i.sc + 1
      hist := match i.hist with
        | (c, m, w) :: _ => [(c + 1, m, w), (c, m, w)]
        | [] => [] }
  else { i with
    run := 0
    locked := false
    miss := 0
    sc := i.sc + 1
    valid := false
    hist := i.hist.take 1 }

/-- A frame, or its absence, on input `b` of a stage, and the rule judged on it. -/
def stagePeriod (b : Bool) (f : StageIn → StageIn) (t : StageS) : StageS :=
  let u := onStageIn b f t
  stageJudge t (stageIn u b).sc u

/-- STAGE_DOWNSTREAM_FRAME (R232 to R235): positions 1 to 35 of a frame on input A or B; one that fails its CRC is
counted and treated as missing. -/
def execStageDownstreamFrame (link : Fin 32) (inputB : Bool) (frame : List Byte) (s : State) :
    Host.Outcome State Fault Refusal :=
  let l := link.val
  let free := BitVec.ofNat 32 (Config.free s.free)
  let good := frame.length == 35 && (crc16 (frame.take 33)).toNat == fldBe frame 33 2
  if good then
    .next (onStage l (fun t => stageControl (stagePeriod inputB (inGood frame) t) inputB free
      ((frame.drop 25).take 8)) { s with free := s.free + 1 })
  else
    .next (onStage l (fun t => stagePeriod inputB (fun i => inBad { i with err := i.err + 1 }) t) s)

/-- STAGE_FRAME_MISSING (R232): no frame arrives on an input in its period. -/
def execStageFrameMissing (link : Fin 32) (inputB : Bool) (s : State) : Host.Outcome State Fault Refusal :=
  .next (onStage link.val (stagePeriod inputB inBad) s)

/-- STAGE_MUTE_NO_INPUT (R236): with no valid input left, every channel is muted. -/
def execStageMuteNoInput (link : Fin 32) (s : State) : Host.Outcome State Fault Refusal :=
  .next (if (stageAt s link.val).acc.isNone then onStage link.val (fun t => { t with muteAll := true }) s else s)

/-- STAGE_CURRENT_LIMIT (R237): the current limit acts on a position; OC is reported for the sample. -/
def execStageCurrentLimit (link : Fin 32) (position : Fin 4) (s : State) : Host.Outcome State Fault Refusal :=
  .next (onStage link.val (fun t => { t with oc := t.oc ||| BitVec.ofNat 4 (2 ^ position.val) }) s)

/-- Sample `n` is one of the two before sample `c`, within which a switch completes (R234). -/
def beforeSwitch (c n : BitVec 24) : Bool := c - n == 1 || c - n == 2

/-- The input that the stage plays at sample `n` (R234): up to the sample of the deciding frame, the one before the
switch. -/
def playSource (t : StageS) (n : BitVec 24) : Option Bool :=
  match t.switchAt with
  | some (c, old) => if beforeSwitch c n then old else t.acc
  | none => t.acc

/-- The next frame of an input in the sequence: sample `n`, or the oldest buffered one. -/
def nextFrame (i : StageIn) (n : BitVec 24) : Option (BitVec 24 × BitVec 4 × List W36) :=
  match i.hist.find? fun h => h.1 == n with
  | some h => some h
  | none => i.hist.getLast?

/-- The frame that the stage plays next (R225, R234): at tick n + 2 the one of sample n, the older of the two that the buffer
holds. Where the input before the switch has nothing left, the accepted one is played at once; without an accepted input the
sequence goes on, muted, with the first locked one. -/
def stageNext (t : StageS) : BitVec 24 × BitVec 4 × List W36 :=
  let n := t.playedSc + 1
  let of (o : Option Bool) : Option (BitVec 24 × BitVec 4 × List W36) :=
    match o with
    | some x => nextFrame (stageIn t x) n
    | none => (nextFrame (if t.a.locked then t.a else t.b) n).map fun h => (h.1, 0xF, h.2.2)
  match of (playSource t n) with
  | some h => h
  | none => (of t.acc).getD (n, 0xF, [0, 0, 0, 0])

/-- Positions 1 to 48 of the upstream frame on an input (R223, R224, R231). -/
def upFrame (t : StageS) (b supply : Bool) (ot : BitVec 4) (v i : List (BitVec 24)) : List Byte :=
  let acc := match t.acc with
    | some x => some (stageIn t x)
    | none => none
  let stage := b2n supply + 2 * b2n t.lost.isSome + 4 * b2n t.idConf + 8 * b2n (t.acc == some b)
  let claim := match acc with
    | some x => x.claim.toNat
    | none => 0
  let flags := match acc with
    | some x => b2n x.unit + 2
    | none => 0
  let played := (List.range 4).map fun k => if stageMuted t k then 0 else t.played.getD k 0
  let body := le 1 stage ++ be 3 t.playedSc.toNat ++ be 2 claim ++ le 1 flags ++ le 1 (stageIn t b).err.toNat
    ++ (List.range 4).map (fun k => BitVec.ofNat 8 (b2n (t.oc.getLsbD k) + 2 * b2n (ot.getLsbD k) + 4 * b2n (stageMuted t k)))
    ++ (List.range 4).flatMap (fun k => be 3 (v.getD k 0).toNat) ++ (List.range 4).flatMap (fun k => be 3 (i.getD k 0).toNat)
    ++ be 2 (crc16 (packWords played)).toNat ++ sized 8 (stageIn t b).reply
  body ++ be 2 (crc16 body).toNat

/-- The 256 code-groups of the upstream frames on inputs A and B (R220). -/
def stageLine (t : StageS) : List (BitVec 10) × List (BitVec 10) :=
  (if t.up = [] then [] else lineGroups t.rd.1 t.up, if t.upB = [] then [] else lineGroups t.rd.2 t.upB)

/-- STAGE_UPSTREAM_SEND (R225, R231), at a recovered tick, before that period's downstream frame: the stage takes sense of the
sample it has played, begins the upstream frames of both inputs, and presents the next sample; `supply`, `ot`, `trips`, `v`
and `i` are what it measures. -/
def execStageUpstreamSend (link : Fin 32) (supply : Bool) (ot trips : BitVec 4) (v i : List (BitVec 24)) (s : State) :
    Host.Outcome State Fault Refusal :=
  .next (onStage link.val (fun t =>
    let t := { t with
      ot := ot
      trips := trips
      rd := (t.up != [] && lineRd t.rd.1 t.up, t.upB != [] && lineRd t.rd.2 t.upB) }
    let h := stageNext t
    { t with
      up := upFrame t false supply ot v i
      upB := upFrame t true supply ot v i
      oc := 0
      switchAt := t.switchAt.filter fun w => beforeSwitch w.1 (t.playedSc + 1)
      playedSc := h.1
      playMute := h.2.1
      played := h.2.2 }) s)

end Sys2Proof.Machine
end

