-- ==== Sys2Proof/Machine/Launch.lean ====
section
/-! DEFINITION. What a wave launch hands to its consumers: row inputs, block inputs, sinks and their delays, outside
writes and events of the Lanes (01 R19 to R26; 03 R87, R105, R106; 05 R155, R163, R166). -/

namespace Sys2Proof.Machine

/-! ### Codes of delay lines -/

/-- Endpoint code of a row. -/
def rowCode (r : Nat) : Nat := 0x50000000 + r

/-- Key of the delay line of a delay block's channel. -/
def delayKey (id ch : Nat) : Nat := 0x30000000 + id * 65536 + ch

/-- The row and sink delays have their full length in wave `n` (R156, R159). -/
def fullLen (s : State) (n : BitVec 64) : Bool :=
  !s.plan.bypass && (s.plan.eqOn || match s.plan.restart with
    | some r => decide (r.toNat + 66 ≤ n.toNat)
    | none => false)

/-- The word that a delay line of `n` samples gives while `x` enters it. -/
def lineTap (s : State) (key n : Nat) (x : W36) : W36 :=
  match n with
  | 0 => x
  | m + 1 => (tget [] s.sig.lines key).getD m 0

/-- `x` enters a delay line that keeps `n` samples. -/
def pushLine (key n : Nat) (x : W36) (s : State) : State :=
  if n = 0 then s
  else s.onSig fun g => { g with lines := tput [] g.lines key ((x :: tget [] g.lines key).take n) }

/-- A word of the Y memory that holds a block's parameters. -/
def blockY (s : State) (id a : Nat) : W36 := tget 0 (laneAt s (0x4000 + id)).cmt.y a

/-- The set delay in force of a delay block's channel. -/
def setDelayOf (s : State) (id ch : Nat) : Nat := tget 0 s.plan.setDelay (id * 64 + ch)

/-- A delay line of a chain that pre-rolls lies beside the line of the running chain. -/
def preKey (key : Nat) : Nat := key + 0x08000000

/-- The output of a delay block's channel, whose line has the key `key`, while `x` enters it; a fade crosses from the old
tap to the new one (R165, R166). A channel in the delay region of an LPDDR5 that has failed gives 0 (12 R399, 14 R449). -/
def delayOut (s : State) (key id ch : Nat) (x : W36) : W36 :=
  if s.mat.ddrState = 4 ∧ 4800 < setDelayOf s id ch then 0 else
  let a := lineTap s key (setDelayOf s id ch) x
  match (laneAt s (0x4000 + id)).fade with
  | some (n, f) => crossfade n f a (lineTap s key (blockY s id (ch + 1)).toNat x)
  | none => a

/-- Samples that a delay channel's line keeps: 2.0 s (R164). -/
def delayKeep (s : State) : Nat := 2 * hz s

/-- The word that a producer gives to the wave in progress. `pre` lists the blocks of a chain that pre-rolls, whose
copies hand on under codes of their own. -/
def prodNow (s : State) (i : Image) (pre : List Nat) : Nat → Nat → W36
  | 0, _ => 0
  | n + 1, c =>
    match codeKind c with
    | 4 =>
      let id := codeBlock c
      match imgBlock i id with
      | none => 0
      | some b =>
        if b.type = 6 then
          match i.wiring.find? fun w => w.cons == c with
          | some w =>
            let key := delayKey id (codeIdx c)
            delayOut s (if pre.contains id then preKey key else key) id (codeIdx c) (prodNow s i pre n w.prod)
          | none => 0
        else tget 0 s.sig.outCur (if pre.contains id then preCode id (codeIdx c) else c)
    | 6 => tget 0 s.sig.outCur c
    | _ => tget 0 s.sig.srcCur c

/-- A producer of the running plan. -/
def feedNow (s : State) (i : Image) (c : Nat) : W36 := prodNow s i [] (i.blocks.length + 1) c

/-- The producer is a block or a bus that has not handed on in the last wave (01 R26). -/
def feedStale (s : State) (i : Image) (fresh : List Nat) (c : Nat) : Bool :=
  (codeKind c == 6 || (codeKind c == 4 && match imgBlock i (codeBlock c) with
    | some b => b.type != 6
    | none => false)) && s.wave.num != s.plan.effect && !fresh.contains c

/-! ### Rows and sinks -/

/-- Row delays act on the row inputs of the wave that launches (R155). -/
def loadRow (i : Image) (row : Nat) (s : State) : State :=
  match rowFeed i row with
  | none => s
  | some c =>
    let x := feedNow s i c
    let n := rowDelay i row
    let y := lineTap s (rowCode row) (if fullLen s s.wave.num then n else 0) x
    pushLine (rowCode row) n x (s.onSig fun g => { g with rowCur := tput 0 g.rowCur row y })

/-- The row inputs of the wave that launches; the previous ones stay for the zero crossings (02 R44). -/
def loadRows (s : State) : State :=
  let s := s.onSig fun g => { g with rowPrev := g.rowCur, rowCur := [] }
  match s.plan.run with
  | some i => (fedRows i).foldl (fun s r => loadRow i r s) s
  | none => s

/-- One sink: its feed, its delay, and the zeros of a new plan or of MUTE_UNTIL_SETTLED (R158, R175). -/
def handSink (i : Image) (w : WireRec) (s : State) : State :=
  let x := feedNow s i w.prod
  let n := sinkDelay i w.cons
  let y := lineTap s w.cons (if fullLen s s.wave.num then n else 0) x
  let q := tget 0 s.sig.quiet w.cons
  let y := if q ≠ 0 ∨ (i.muteUntil && !s.wave.settled) = true then 0 else y
  pushLine w.cons n x (s.onSig fun g => { g with
    sinkNext := tput 0 g.sinkNext w.cons y
    quiet := tput 0 g.quiet w.cons (q - 1) })

/-- The words handed to the sinks in the output window (01 R21). -/
def handSinks (s : State) : State :=
  let s := s.onSig fun g => { g with sinkNext := [] }
  match s.plan.run with
  | some i => i.sinks.foldl (fun s w => handSink i w s) s
  | none => s

/-- The wires into delay blocks. -/
def delayWires (i : Image) : List WireRec :=
  i.wiring.filter fun w => codeKind w.cons == 4 && match imgBlock i (codeBlock w.cons) with
    | some b => b.type == 6
    | none => false

/-- The pre-roll of an insertion or removal runs in the wave that launches (R167). -/
def preRolls (s : State) (q : Swap) : Bool := decide (q.p.toNat ≤ s.wave.num.toNat)

/-- Feed of a row or sink. -/
def consFeed (i : Image) (cons : Nat) : Option Nat :=
  if codeKind cons = 5 then rowFeed i (codeIdx cons) else sinkFeed i cons

/-- The rows and sinks of the segment that an insertion or removal changes: those whose feed changes or lies in the new
chain (R167, R168). -/
def segCons (old : Image) (q : Swap) : List Nat :=
  ((fedRows q.img).map rowCode ++ q.img.sinks.map (·.cons)).filter fun c =>
    consFeed q.img c != consFeed old c || match consFeed q.img c with
      | some f => codeKind f == 4 && q.chain.contains (codeBlock f)
      | none => false

/-- What enters the delay channels of delay blocks goes into their lines; in a pre-roll, so does what the new chain gives
to its delay blocks, rows and sinks. -/
def pushDelays (s : State) : State :=
  match s.plan.run with
  | none => s
  | some i =>
    let t := (delayWires i).foldl (fun t w =>
      pushLine (delayKey (codeBlock w.cons) (codeIdx w.cons)) (delayKeep s) (feedNow s i w.prod) t) s
    match s.plan.swap with
    | none => t
    | some q =>
      if preRolls s q then
        let now (c : Nat) : W36 := prodNow s q.img q.chain (q.img.blocks.length + 1) c
        let t := ((delayWires q.img).filter fun w => q.chain.contains (codeBlock w.cons)).foldl (fun t w =>
          pushLine (preKey (delayKey (codeBlock w.cons) (codeIdx w.cons))) (delayKeep s) (now w.prod) t) t
        (segCons i q).foldl (fun t c =>
          match consFeed q.img c with
          | some f => pushLine (preKey c) 65 (now f) t
          | none => t) t
      else t

/-! ### Lanes -/

/-- EV_EN of LCTL, as the mask of PEND. -/
def evEn (v : W36) : BitVec 3 := (v >>> 8).truncate 3

/-- One word of a section. -/
def setSec (k : Section) (i : Nat) (v : W36) : Section :=
  match i with
  | 0 => { k with b0 := v }
  | 1 => { k with b1 := v }
  | 2 => { k with b2 := v }
  | 3 => { k with a1 := v }
  | 4 => { k with a2 := v }
  | 5 => { k with x1 := v }
  | 6 => { k with x2 := v }
  | 7 => { k with y1 := v }
  | _ => { k with y2 := v }

/-- The word `i` of a section. -/
def getSec (k : Section) (i : Nat) : W36 :=
  match i with
  | 0 => k.b0
  | 1 => k.b1
  | 2 => k.b2
  | 3 => k.a1
  | 4 => k.a2
  | 5 => k.x1
  | 6 => k.x2
  | 7 => k.y1
  | _ => k.y2

/-- One outside write into a context; `second` sends section words to the inactive set. -/
def applyOut (second : Bool) (c : LaneCtx) (w : OutWr) : LaneCtx :=
  match w.kind with
  | 0 => { c with y := tput 0 c.y w.addr (w.val.truncate 36) }
  | 1 =>
    if second then { c with sec2 := tmod {} c.sec2 (w.addr / 9) fun k => setSec k (w.addr % 9) (w.val.truncate 36) }
    else { c with sec := tmod {} c.sec (w.addr / 9) fun k => setSec k (w.addr % 9) (w.val.truncate 36) }
  | 2 => { c with chain := tput none c.chain w.addr (some (chainOf w.val)) }
  | _ => { c with p := tput 0 c.p w.addr (w.val.truncate 36) }

/-- A library block whose sections step by fades: SOS EQ and crossover (R164, R165). -/
def fades (t : Nat) : Bool := t == 1 || t == 2

/-- The input channel whose zero crossing lets a trim word act: its own in an SOS EQ, and in a crossover, whose trims are
those of its outputs, the channel that its band comes from (R164, R165, log entry 151). -/
def trimChan (t chIn chOut a : Nat) : Nat :=
  if t = 2 then (a - 1) * chIn / max 1 chOut else a - 1

/-- Trim words among the outside writes of an SOS EQ or crossover: P1 to P64 (R164). -/
def isTrim (t : Nat) (w : OutWr) : Bool := (t == 1 || t == 2) && w.kind == 0 && decide (1 ≤ w.addr ∧ w.addr ≤ 64)

/-- Trims that a flip brings wait for their channel; a newer word replaces one that waits. `tmo` is the crosspoint timeout in
force (R165). -/
def addTrims (t chIn chOut tmo : Nat) (ws : List OutWr) (l : LaneS) : LaneS :=
  { l with trims := ws.foldl (fun ts w => (ts.filter fun x => x.addr != w.addr)
      ++ [{ addr := w.addr, ch := trimChan t chIn chOut w.addr, val := w.val.truncate 36, left := tmo }]) l.trims }

/-- The trims of the wave that launches (R165): each acts at its channel input's first zero crossing, or at the timeout; `ins`
holds the new IN words. -/
def stepTrims (ins : Nat → W36) (l : LaneS) : LaneS :=
  let acts (t : Trim) : Bool := t.left == 0 || wordCrosses (tget 0 l.cmt.x t.ch) (ins t.ch)
  { l with
    cmt := { l.cmt with y := (l.trims.filter acts).foldl (fun y t => tput 0 y t.addr t.val) l.cmt.y }
    trims := (l.trims.filter fun t => !acts t).map fun t => { t with left := t.left - 1 } }

/-- The outside writes that wait for the flip (03 R87, R166): during a fade the last set waits for its end; section
words of an EQ or crossover with FADE > 0 start a fade of the inactive set, of as many samples as FADE says, whatever its
value (log entry 149). Trim words wait for their channel. Whether a parameter word was written. -/
def applyWrites (t chIn chOut tmo : Nat) (l : LaneS) : LaneS × Bool :=
  match l.writes with
  | [] => (l, false)
  | ws =>
    if l.fade.isSome then
      let last := (ws.map (·.set)).foldl max 0
      ({ l with writes := [], fadeWait := ws.filter fun w => w.set == last }, false)
    else
      let plain := ws.filter fun w => w.kind != 1 && !isTrim t w
      let secs := ws.filter fun w => w.kind == 1
      let l := addTrims t chIn chOut tmo (ws.filter (isTrim t)) l
      let c := plain.foldl (applyOut false) l.cmt
      let f := (tget 0 c.y 0).toNat
      let par := ws.any fun w => w.kind == 0 && decide (w.addr < 256)
      if fades t && f != 0 && !secs.isEmpty then
        let c2 := secs.foldl (applyOut true) { c with sec2 := c.sec }
        ({ l with cmt := c2, writes := [], fade := some (0, f) }, par)
      else ({ l with cmt := secs.foldl (applyOut false) c, writes := [] }, par)

/-- A block restarts from the state of a block load when its program space has been written (11 R368). -/
def reloaded (l : LaneS) : LaneS :=
  if l.st = 3 && l.writes.any fun w => w.kind == 3 then
    { l with
      st := 0
      noted := []
      cmt := { l.cmt with
        main := {}
        shad := {}
        pt := []
        bs := []
        ln := []
        dt := []
        epc := 0
        lst := 0 } }
  else l

/-- Launch one Lane (03 R86, R105, R106; 04 R124): the committed context with the outside writes, the new IN words, the
events; `ins` holds the IN words, `stale` the channels with an older wave's word, `tmo` the crosspoint timeout in force,
`prio` says that a level bound to the block changes in this wave, `audit` that an audit window begins. -/
def launchLane (t chIn chOut tmo : Nat) (lctl : W36) (ins : Nat → W36) (stale : List Nat) (prio audit : Bool) (l : LaneS) : LaneS :=
  let again := if l.phase = .over ∨ l.phase = .run ∨ l.phase = .halting then l.evWave else 0
  let was := l.st
  let l := reloaded l
  let l := if was = 3 ∧ l.st = 0 then { l with cmt := { l.cmt with lctl := lctl } } else l
  let (l, par) := applyWrites t chIn chOut tmo l
  let l := stepTrims ins l
  if l.st = 2 ∨ l.st = 3 then { l with phase := .idle, cur := l.cmt, evNext := 0, evPend := 0, evWave := 0 }
  else
    let x := (List.range chIn).foldl (fun x ch => tput 0 x ch (ins ch)) l.cmt.x
    let ev := (l.evNext ||| again ||| (if prio then 4 else 0) ||| (if par then 2 else 0) ||| (if audit then 1 else 0)) &&& evEn l.cmt.lctl
    { l with
      cur := { l.cmt with
        x := x
        main := { l.cmt.main with loops := [] } }
      pc := 0
      slot := 0
      phase := .run
      pend := []
      delay := .none
      haltAt := 0
      mac := none
      haltWait := false
      cause := 0
      cache := none
      cacheSave := none
      sosDone := 0
      sosQ := []
      sosRun := none
      sosFree := 0
      sosWait := none
      evPend := ev
      evWave := ev
      evNext := 0
      evSrc := 0
      shadow := false
      stale := stale }

/-- The IN words of a block from a plan; `pre` lists the blocks of a pre-rolling chain. -/
def laneIns (s : State) (i : Image) (pre : List Nat) (id ch : Nat) : W36 :=
  match i.wiring.find? fun w => w.cons == blockCode id ch with
  | some w =>
    let x := prodNow s i pre (i.blocks.length + 1) w.prod
    lineTap s (if pre.contains id then preKey w.cons else w.cons) (alignDelay i w) x
  | none => 0

/-- Alignment delays take the words that enter them (R155). -/
def pushAligns (s : State) (i : Image) (pre : List Nat) (t : State) : State :=
  (i.wiring.filter fun w => codeKind w.cons == 4 && alignDelay i w != 0
      && (pre.isEmpty || pre.contains (codeBlock w.cons))).foldl (fun t w =>
    pushLine (if pre.isEmpty then w.cons else preKey w.cons) (alignDelay i w)
      (prodNow s i pre (i.blocks.length + 1) w.prod) t) t

/-- The audit window of a piece of work begins with the wave that launches. -/
def auditBegins (s : State) (w : Nat) : Bool :=
  s.place.moving.any fun m => m.work == w && m.kind == .audit && m.j == some s.wave.num

/-- The levels of a change that the plan binds to a block (03 R105). -/
def priorityOf (s : State) (id : Nat) (changed : BitVec 16) : Bool :=
  match s.plan.run with
  | none => false
  | some i => changed &&& Config.priorityLevels i.buildId id != 0

/-- The outputs of a block reach a sink through blocks alone: its Lane is an output Lane (01 R26). -/
def outputBlock (i : Image) : Nat → Nat → Bool
  | 0, _ => false
  | n + 1, id =>
    (i.sinks.any fun w => codeKind w.prod == 4 && codeBlock w.prod == id)
      || i.wiring.any fun w => codeKind w.prod == 4 && codeBlock w.prod == id && codeKind w.cons == 4
          && outputBlock i n (codeBlock w.cons)

/-- Launch the Lane of key `key` that carries the work `w`, of the running plan or of a pre-roll; `changed` holds the levels
whose activity changes in the wave. -/
def launchWork (s0 : State) (fresh : List Nat) (changed : BitVec 16) (key w : Nat) (s : State) : State :=
  let go (i : Image) (pre : List Nat) : State :=
    match imgBlock i (w % 4096) with
    | none => s
    | some b =>
      let out := pre.isEmpty && outputBlock i (i.blocks.length + 1) b.id
      let stale := (List.range b.chIn).filter fun ch =>
        match i.wiring.find? fun x => x.cons == blockCode b.id ch with
        | some x => out && feedStale s0 i fresh x.prod
        | none => false
      onLane key (launchLane b.type b.chIn b.chOut (timeoutOf s0 s0.xp.stTimeout.toNat) b.lctl (laneIns s0 i pre b.id) stale (priorityOf s0 b.id changed)
        (auditBegins s0 w)) s
  if w / 4096 = 6 then
    match s0.plan.swap with
    | some q => go q.img q.chain
    | none => s
  else
    match s0.plan.run with
    | some i => go i []
    | none => s

/-- A delay block's parameter words act at the flip (R164, R165): at once, or by a fade from the old tap to the new one, of as
many samples as FADE says, whatever its value (log entry 149). -/
def launchDelay (b : BlockRec) (s : State) : State :=
  let key := 0x4000 + b.id
  let l := laneAt s key
  let l := match l.fade with
    | some (n, f) => { l with fade := some (n + 1, f) }
    | none => l
  match l.writes with
  | [] => onLane key (fun _ => l) s
  | ws =>
    if l.fade.isSome then
      let last := (ws.map (·.set)).foldl max 0
      onLane key (fun _ => { l with writes := [], fadeWait := ws.filter fun w => w.set == last }) s
    else
      let c := ws.foldl (applyOut false) l.cmt
      let f := (tget 0 c.y 0).toNat
      let l := { l with cmt := c, cur := c, writes := [], fade := if f = 0 then none else some (1, f) }
      let s := onLane key (fun _ => l) s
      if f = 0 then
        s.onPlan fun p => { p with setDelay := (List.range b.chIn).foldl (fun t ch =>
          tput 0 t (b.id * 64 + ch) (tget 0 c.y (ch + 1)).toNat) p.setDelay }
      else s

/-- Launch every Lane and every second site of the wave that launches (03 R106; 06 R192, R196). -/
def launchLanes (fresh : List Nat) (changed : BitVec 16) (s : State) : State :=
  let s0 := s
  let works := (s.place.works.filter fun p => p.2.placed && !workMix p.1).map (·.1)
  let s := works.foldl (fun s w => launchWork s0 fresh changed w w s) s
  let s := match s0.plan.run with
    | some i => pushAligns s0 i [] s
    | none => s
  let s := match s0.plan.swap with
    | some q => if preRolls s0 q && !q.chain.isEmpty then pushAligns s0 q.img q.chain s else s
    | none => s
  (s0.place.moving.filter fun m => !workMix m.work && (m.kind == .planned || m.kind == .audit) && m.j.isSome).foldl
    (fun s m =>
      if m.j = some s0.wave.num then onLane (0x10000 + m.work) (fun _ => laneAt s m.work) s
      else launchWork s0 fresh changed (0x10000 + m.work) m.work s) s

/-- Unplaced blocks hand on words of 0 (06 R205). -/
def unplacedZero (s : State) : State :=
  match s.plan.run with
  | none => s
  | some i =>
    (s.place.works.filter fun p => !p.2.placed && p.1 / 4096 == 4).foldl (fun s p =>
      match imgBlock i (p.1 % 4096) with
      | some b => (List.range b.chOut).foldl (fun s ch => produce (blockCode b.id ch) 0 s) s
      | none => s) s

/-- The parameter writes of delay blocks act in the wave that launches (R165). -/
def launchDelays (s : State) : State :=
  match s.plan.run with
  | some i => (i.blocks.filter fun b => b.type == 6).foldl (fun s b => launchDelay b s) s
  | none => s

/-- Everything that the flip hands to the wave that launches: delays, rows, IN words, delay lines; `fresh` lists the codes
that have been written in the last wave. -/
def loadWave (fresh : List Nat) (changed : BitVec 16) (s : State) : State :=
  let s := loadRows (launchDelays s)
  unplacedZero (launchLanes fresh changed (pushDelays s))

/-- The copies of a block's Lane: first, DUPLEX, pre-roll, and their second sites. -/
def laneCopies (s : State) (id : Nat) : List Nat :=
  let ks := [0x4000 + id] ++ (if (workAt s (0x5000 + id)).placed then [0x5000 + id] else [])
    ++ (if (workAt s (0x6000 + id)).placed then [0x6000 + id] else [])
  ks ++ (ks.filter fun k => s.place.moving.any fun m => m.work == k && m.j.isSome && m.kind != .tieBreak).map
    (0x10000 + ·)

/-- Outside writes to a block wait for the flip in every copy (03 R87, R121; 05 R173). -/
def outsideWrite (id : Nat) (ws : List OutWr) (s : State) : State :=
  (laneCopies s id).foldl (fun s k => onLane k (fun l =>
    let n := ((l.writes.map (·.set)).foldl max 0) + 1
    { l with writes := l.writes ++ ws.map fun w => { w with set := n } }) s) s

/-- PRIORITY events of a change of the active levels are raised for the next launch (03 R105, R106). -/
def priorityNext (changed : BitVec 16) (s : State) : State :=
  match s.plan.run with
  | none => s
  | some i => ((laneBlocks i).filter fun b => priorityOf s b.id changed).foldl (fun s b =>
      (laneCopies s b.id).foldl (fun s k => onLane k (fun l => { l with evNext := l.evNext ||| 4 }) s) s) s

end Sys2Proof.Machine
end

