-- ==== Sys2Proof/Machine/Pri.lean ====
section
/-! DEFINITION. The supervised priority inputs and the events of the overlay levels (02 R55 to R58, 14 R454, 13 R433). -/

namespace Sys2Proof.Machine

/-- What a PRI pair reads: 1 asserted, 0 idle, 2 invalid (02 R56): equal inputs, or an input that reads open. -/
def priCode (p : PriPin) : Nat := if p.openA || p.openB || p.a == p.b then 2 else if p.a then 1 else 0

/-- PRI_WAKE (13 R433): a bound input returns the engine from HUSH to RUN at the wave in which its level follows. -/
def priWakeUp (k : Nat) (w : BitVec 64) (s : State) : State :=
  if s.clk.power = .hush ∧ s.clk.priWake = true ∧ (tget none s.xp.bind k).isSome = true then
    match s.wave.rate with
    | some _ => s.onClk fun c => { c with powDue := some (.run, w) }
    | none => s.onClk fun c => { c with power := .run, powDue := none }
  else s

/-- One reading of input `k` (02 R56, 14 R454); `w` is the wave in which a bound level follows a state that this reading
confirms. -/
def priRead (w : BitVec 64) (k r : Nat) (s : State) : State :=
  let p := tget {} s.xp.pri k
  let put (q : PriS) (s : State) : State := s.onXp fun x => { x with pri := tput {} x.pri k q }
  if r = 2 then put { p with last := 2, invalidFor := p.invalidFor + 1 } s
  else if p.last = r then
    if p.broken ∨ p.asserted ≠ (r == 1) then
      let s := put { p with last := r, invalidFor := 0, broken := false, asserted := r == 1, follows := some w } s
      let s := if p.broken then endCond 0x0205 k s else s
      if r = 1 then priWakeUp k w s else s
    else put { p with last := r, invalidFor := 0 } s
  else put { p with last := r, invalidFor := 0 } s

/-- The bindings accepted since the last reading act from this one on, for the levels of wave `w` (R68). -/
def bindAct (w : BitVec 64) (s : State) : State :=
  s.onXp fun x => { x with
    bind := x.bindNext.foldl (fun t p => match p.2 with
      | some b => tput none t p.1 b
      | none => t) x.bind
    pri := x.bindNext.foldl (fun t p => tmod {} t p.1 fun q => { q with follows := some w }) x.pri
    bindNext := [] }

/-- One reading of all eight pairs, under the bindings in force from then on. -/
def priReadAll (w : BitVec 64) (pins : List PriPin) (s : State) : State :=
  (List.range 8).foldl (fun s k => priRead w k (match pins[k]? with
    | some p => priCode p
    | none => 2) s) (bindAct w s)

/-- Readings in 20 ms: ticks, or the 10 us readings taken while no rate is set (14 R454). -/
def priLimit (s : State) : Nat :=
  match s.wave.rate with
  | some r => r.hz / 50
  | none => 2000

/-- PRI_READING_NO_RATE (R56, R454): a reading while no rate is set; a level follows it in the first wave that runs. -/
def execPriReadingNoRate (pins : List PriPin) (s : State) : Host.Outcome State Fault Refusal :=
  match s.wave.rate with
  | none => .next (priReadAll 0 pins (s.onXp fun x => { x with noRate := x.noRate + 1 }))
  | some _ => .next s

/-- PRI_BROKEN (R454, R57): a pair that has read invalid at every reading for 20 ms becomes broken. -/
def execPriBroken (k : Fin 8) (s : State) : Host.Outcome State Fault Refusal :=
  let p := tget {} s.xp.pri k.val
  if p.broken = false ∧ priLimit s ≤ p.invalidFor then
    let w := if s.wave.rate.isNone then 0 else sampleNow s + 1
    let s := s.onXp fun x => { x with pri := tput {} x.pri k.val { p with broken := true, follows := some w } }
    let s := raise 0x0205 k.val 0 s
    .next (if priActs s.xp k.val then priWakeUp k.val w s else s)
  else .next s

/-- The inputs whose change is due by wave `n` act on their levels from now on (R56). -/
def priFollow (n : BitVec 64) (x : XpS) : XpS :=
  (List.range 8).foldl (fun x k =>
    let p := tget {} x.pri k
    match p.follows with
    | some w =>
      if w.toNat ≤ n.toNat then
        { x with pri := tput {} x.pri k { p with eff := priActs x k, follows := none } }
      else x
    | none => x) x

/-- The accepted level commands due by wave `n` take effect (R78). -/
def lvlDue (n : BitVec 64) (x : XpS) : List LvlCmd := x.lvlCmds.filter fun c => decide (c.wave.toNat ≤ n.toNat)

/-- The level changes due by wave `n` take effect (R55, R56, R58): every node with a new target word starts a transition,
bound players follow (05 R171), and the commands that waited are answered after the wave (R78). -/
def levelChange (n : BitVec 64) (s : State) : State :=
  let due := lvlDue n s.xp
  let old := s.xp.active
  let s := s.onXp fun x => priFollow n { x with
    cmdSet := due.foldl (fun m c => (m ||| c.setM) &&& ~~~ c.clrM) x.cmdSet
    lvlCmds := x.lvlCmds.filter fun c => !decide (c.wave.toNat ≤ n.toNat) }
  let held := priHeld s.xp
  let new := s.xp.cmdSet ||| held
  let s := playLevels old new (setActive new s)
  s.onXp fun x => { x with
    priHeld := held
    replies := x.replies ++ (due.filter fun c => decide (c.kiosk < 32)).map fun c =>
      (c.kiosk, le 8 n.toNat ++ le 2 new.toNat) }

/-- OVERLAY_LEVEL_CHANGE (R55, R56, R58): the levels whose change is due in the wave in progress change. The launch of a
wave takes this step itself, so that PRIORITY events are latched with it (03 R105, R106); what is due and not yet done is
done here, and its PRIORITY events are latched at the next launch. While no wave runs nothing changes: a change waits for
the first wave that runs. -/
def execOverlayLevelChange (s : State) : Host.Outcome State Fault Refusal :=
  if s.wave.live = true then
    let t := levelChange s.wave.num s
    .next (priorityNext (s.xp.active ^^^ t.xp.active) t)
  else .next s

/-- OVERLAY_TRANSITION_TIMEOUT (R58): a transition that no crossing has applied applies in wave a + M, in a Square that still
takes part in that wave. -/
def execOverlayTransitionTimeout (i : Fin 5242880) (s : State) : Host.Outcome State Fault Refusal :=
  match tget none s.xp.trans i.val with
  | some t =>
    if squareOpen s (sqOf s i.val) = true ∧ transTimeoutDue s i.val t = true then
      .next (applyTrans i.val (s.onXp fun x => { x with
        undo := { idx := i.val, base := baseWord x i.val, trans := some t } :: x.undo }))
    else .next s
  | none => .next s

/-- XP_ENTRY_TIMEOUT (R45 to R47, R64): an entry whose row has not crossed zero by wave e + N is applied in its Square's wave in
progress, and counted when the Square completes that wave. -/
def execXpEntryTimeout (i : Fin 5242880) (s : State) : Host.Outcome State Fault Refusal :=
  match queueFind s.xp i.val with
  | some e =>
    if squareOpen s (sqOf s i.val) = true ∧ timeoutDue s e = true then
      .next (applyEntry e (noteUndo e false true s))
    else .next s
  | none => .next s

/-- XP_TIMEOUT_LOG (R47): the timeouts counted since a Square's last record are logged together, 4,096 waves after it. -/
def execXpTimeoutLog (q : Fin 80) (s : State) : Host.Outcome State Fault Refusal :=
  let l := tget {} s.xp.toLog q.val
  match l.last with
  | some w =>
    if 0 < l.held ∧ w.toNat + 4096 ≤ (sampleNow s).toNat then
      .next (raise 0x0201 q.val (BitVec.ofNat 64 l.held)
        (s.onXp fun x => { x with toLog := tput {} x.toLog q.val { last := some (sampleNow s), held := 0 } }))
    else .next s
  | none => .next s

/-- The held entries of a tag in commit wave `c` (R52): stepped, they become pending with entry wave `c` and the timeout
in force; in same-wave mode their words become base words. -/
def sceneApply (tag : Nat) (same : Bool) (s : State) : State :=
  let c := sampleNow s
  let mine := s.xp.queue.filter fun e => e.held && e.tag == tag
  if same then
    mine.foldl (fun t e => applyEntry e (noteUndo { e with wave := c + 1 } true false t)) s
  else
    s.onXp fun x => { x with
      queue := x.queue.map fun e =>
        if e.held && e.tag == tag then
          { e with held := false, tag := 0, wave := c, timeout := timeoutOf s x.stTimeout.toNat }
        else e }

/-- A scheduled or accepted commit is due (R53): as soon as possible, or at its sample. -/
def schedDue (s : State) (c : Sched) : Bool :=
  decide (c.at64.toNat ≤ (sampleNow s).toNat)

/-- One commit runs in the wave in progress; one accepted as soon as possible is answered after that wave with the entries
it committed (R73). -/
def commitRun (c : Sched) (s : State) : State :=
  let n := (s.xp.queue.filter fun e => e.held && e.tag == c.tag).length
  let s := sceneApply c.tag c.same (s.onXp fun x => { x with scheds := x.scheds.erase c })
  match c.asap with
  | some k => if k < 32 then
      s.onXp fun x => { x with replies := x.replies ++ [(k, le 8 (sampleNow s).toNat ++ le 4 n)] } else s
  | none => s

/-- Every commit that is due in the wave in progress runs in it, in all Squares at once (R52, R53). -/
def commitsRun (s : State) : State := (s.xp.scheds.filter (schedDue s)).foldl (fun t c => commitRun c t) s

/-- SCENE_COMMIT_RUN (R52, R53): the first commit that is due runs in the wave in progress while every Square can still take
part in it; the launch of the next wave runs every commit that is left. None runs while no waves do (13 R433). -/
def execSceneCommitRun (s : State) : Host.Outcome State Fault Refusal :=
  match s.xp.scheds.find? (schedDue s) with
  | some c => if s.wave.live = true ∧ squaresBegun s = false then .next (commitRun c s) else .next s
  | none => .next s

/-- The responses that wait for the end of a wave are returned (R73, R78). -/
def xpReplies (s : State) : State :=
  s.xp.replies.foldl (fun t r => answerOk r.1 r.2 t) (s.onXp fun x => { x with replies := [] })

end Sys2Proof.Machine
end

