-- ==== Sys2Proof/Machine/XpCmd.lean ====
section
/-! DEFINITION. Command family 0x02 (02 R68 to R81): each command's own checks, its effect, and its meaning. -/

namespace Sys2Proof.Machine

/-- The wave in which a forwarded command that has reached its wave acts, or the first in which a command executed
alone acts (10 R319). -/
def actWave (s : State) : BitVec 64 := sampleNow s + 1

/-- The entries of XP_NODE_WRITE and XP_OVL_DEFINE: index and word, from offset 4. -/
def nodeEntries (p : List Byte) (n : Nat) : List (Nat × BitVec 32) :=
  (List.range n).map fun k => (fld p (4 + 8 * k) 4, BitVec.ofNat 32 (fld p (8 + 8 * k) 4))

/-- Reserved bits of the entries are 0 and no STEP is 0b11 (R39, R69, 00 R10). -/
def entryBytes (p : List Byte) (n : Nat) : List (Nat × Bool) :=
  (List.range n).flatMap fun k =>
    [(4 + 8 * k + 2, !(byteAt p (4 + 8 * k + 2)).getLsbD 7), (4 + 8 * k + 3, byteAt p (4 + 8 * k + 3) == 0),
     (8 + 8 * k + 3, decide ((byteAt p (8 + 8 * k + 3)).toNat < 12))]

/-- An index outside the space or the rate gives BAD_INDEX (R66, R69). -/
def indexCheck (s : State) (l : List Nat) : Option Fail := failIf (!l.all (idxOk s)) 0x0004

/-- A word that the Alley rules reject gives ALLEY_ROW (R60, R153). -/
def alleyCheck (s : State) (l : List (Nat × BitVec 32)) : Option Fail :=
  failIf (l.any fun e => alleyBad s e.1 e.2) 0x0011

/-- Queue room for all words of a command (R49). -/
def queueCheck (s : State) (tag : Nat) (l : List (Nat × BitVec 32)) : Option Fail :=
  match queueWrites s tag l s.xp with
  | .ok _ => none
  | .error q => some { status := 0x0010, full := [q] }

/-- Enter all words of an accepted command in their queues, in the wave in progress (R48, R49). -/
def enterWords (tag : Nat) (l : List (Nat × BitVec 32)) (s : State) : State :=
  match queueWrites s tag l s.xp with
  | .ok x => s.onXp fun _ => x
  | .error _ => s

/-- Checks of XP_NODE_WRITE (R69). -/
def xpNodeWriteCheck (p : List Byte) (s : State) : Option Fail :=
  let n := fld p 0 2
  let es := nodeEntries p n
  let held := es.any fun e => wStep e.2 == 2
  orElse (paramCheck ([(0, decide (1 ≤ n ∧ n ≤ 29)), (2, held == (byteAt p 2 != 0)), (3, byteAt p 3 == 0)]
    ++ entryBytes p (min n 29) ++ [lenIs p (4 + 8 * n)]))
  (orElse (indexCheck s (es.map (·.1))) (orElse (alleyCheck s es) (queueCheck s (byteAt p 2).toNat es)))

/-- Effect of XP_NODE_WRITE: the entries enter their queues in wave e, which the response reports. -/
def xpNodeWriteEffect (_ : Nat) (p : List Byte) (s : State) : Effect :=
  (enterWords (byteAt p 2).toNat (nodeEntries p (fld p 0 2)) s, some (le 8 (entryWave s).toNat))

/-- XP_NODE_WRITE (0x0201). -/
def execXpNodeWrite (k : Fin 32) (s : State) : Host.Outcome State Fault Refusal :=
  .next (runKiosk 0x0201 k.val fwdAlways xpNodeWriteCheck xpNodeWriteEffect s)

/-- The indices of XP_NODE_READ. -/
def readIndices (p : List Byte) : List Nat := (List.range (fld p 0 2)).map fun k => fld p (4 + 4 * k) 4

/-- Checks of XP_NODE_READ (R70). -/
def xpNodeReadCheck (p : List Byte) (s : State) : Option Fail :=
  let n := fld p 0 2
  orElse (paramCheck ([(0, decide (1 ≤ n ∧ n ≤ 29))] ++ zeroFrom p 2 2
    ++ (List.range (min n 29)).flatMap (fun k =>
      [(4 + 4 * k + 2, !(byteAt p (4 + 4 * k + 2)).getLsbD 7), (4 + 4 * k + 3, byteAt p (4 + 4 * k + 3) == 0)])
    ++ [lenIs p (4 + 4 * n)]))
  (indexCheck s (readIndices p))

/-- The 8 bytes that XP_NODE_READ returns for a node (R70). -/
def nodeReadBytes (x : XpS) (i : Nat) : List Byte :=
  let b := baseWord x i
  let e := effWord x i
  let ent := queueFind x i
  let held := match ent with
    | some q => q.held
    | none => false
  let flags := b2n (e != targetWord x i) * 8 + b2n (effIsOvr x i) * 4 + b2n held * 2 + b2n (ent.isSome && !held)
  le 4 (b.toNat % 2 ^ 28 + flags * 2 ^ 28) ++ le 4 (e.toNat % 2 ^ 26)

/-- Effect of XP_NODE_READ: base and effective words of one wave. -/
def xpNodeReadEffect (_ : Nat) (p : List Byte) (s : State) : Effect :=
  (s, some ((readIndices p).flatMap (nodeReadBytes s.xp)))

/-- XP_NODE_READ (0x0202). -/
def execXpNodeRead (k : Fin 32) (s : State) : Host.Outcome State Fault Refusal :=
  .next (runKiosk 0x0202 k.val fwdNever xpNodeReadCheck xpNodeReadEffect s)

/-- Checks of XP_STEP_TIMEOUT (R71). -/
def xpStepTimeoutCheck (p : List Byte) (_ : State) : Option Fail := paramCheck (zeroFrom p 1 3 ++ [lenIs p 4])

/-- Effect of XP_STEP_TIMEOUT: CODE 0 reads, 1 to 255 sets; the response is the code in force before. -/
def xpStepTimeoutEffect (_ : Nat) (p : List Byte) (s : State) : Effect :=
  let c := byteAt p 0
  (if c = 0 then s else s.onXp fun x => { x with stTimeout := c }, some (le 1 s.xp.stTimeout.toNat ++ zeros 3))

/-- XP_STEP_TIMEOUT (0x0203). -/
def execXpStepTimeout (k : Fin 32) (s : State) : Host.Outcome State Fault Refusal :=
  .next (runKiosk 0x0203 k.val (fun p => byteAt p 0 != 0) xpStepTimeoutCheck xpStepTimeoutEffect s)

/-- Checks of XP_QUEUE_STATUS (R72). -/
def xpQueueStatusCheck (p : List Byte) (_ : State) : Option Fail :=
  paramCheck ([(0, decide ((byteAt p 0).toNat < 2))] ++ zeroFrom p 1 3 ++ [lenIs p 4])

/-- Effect of XP_QUEUE_STATUS: use and REFUSED flags of every Square, with an optional clear. -/
def xpQueueStatusEffect (_ : Nat) (p : List Byte) (s : State) : Effect :=
  let n := squares s
  (if byteAt p 0 = 1 then s.onXp fun x => { x with refused := 0 } else s,
   some (le 2 n ++ zeros 2 ++ (List.range 80).flatMap (fun q => le 2 (if q < n then queueUsed s s.xp q else 0))
    ++ le 10 (s.xp.refused.toNat % 2 ^ n)))

/-- XP_QUEUE_STATUS (0x0204). -/
def execXpQueueStatus (k : Fin 32) (s : State) : Host.Outcome State Fault Refusal :=
  .next (runKiosk 0x0204 k.val fwdNever xpQueueStatusCheck xpQueueStatusEffect s)

/-- Held entries of a tag. -/
def heldOf (x : XpS) (tag : Nat) : Nat := (x.queue.filter fun e => e.held && e.tag == tag).length

/-- Checks that the commit of a tag at a sample passes (R73); `o` is the payload offset of AT_SAMPLE. -/
def commitCheck (o tag at64 : Nat) (s : State) : Option Fail :=
  let now := (accWave s).toNat
  if at64 = 0 then failIf (heldOf s.xp tag == 0) 0x0012
  else if at64 < now + 2 then some { status := 0x0013 }
  else if now + 2 ^ 32 < at64 then some (badParam o)
  else failIf (!(s.xp.scheds.any fun c => c.asap.isNone && c.tag == tag)
    && decide (16 ≤ (s.xp.scheds.filter fun c => c.asap.isNone).length)) 0x0014

/-- Accept the commit of a tag (R53): a schedule of the tag is replaced; without a sample the Kiosk waits for it,
and while no waves run it is due in the first wave. -/
def commitAccept (k tag : Nat) (same : Bool) (at64 : Nat) (s : State) : Effect :=
  let s := s.onXp fun x => { x with scheds := x.scheds.filter fun c => c.asap.isSome || c.tag != tag }
  if at64 = 0 then
    let w : BitVec 64 := if s.wave.running then effNow s else 0
    (s.onXp fun x => { x with scheds := x.scheds ++ [{ tag := tag, same := same, at64 := w, asap := some k }] }, none)
  else
    (s.onXp fun x => { x with scheds := x.scheds ++ [{ tag := tag, same := same, at64 := BitVec.ofNat 64 at64 }] },
     some (le 8 at64 ++ le 4 0))

/-- Checks of XP_SCENE_COMMIT (R73). -/
def xpSceneCommitCheck (p : List Byte) (s : State) : Option Fail :=
  orElse (paramCheck ([(0, byteAt p 0 != 0), (1, decide ((byteAt p 1).toNat < 2))] ++ zeroFrom p 2 6 ++ [lenIs p 16]))
    (commitCheck 8 (byteAt p 0).toNat (fld p 8 8) s)

/-- Effect of XP_SCENE_COMMIT. -/
def xpSceneCommitEffect (k : Nat) (p : List Byte) (s : State) : Effect :=
  commitAccept k (byteAt p 0).toNat (byteAt p 1 == 1) (fld p 8 8) s

/-- XP_SCENE_COMMIT (0x0205). -/
def execXpSceneCommit (k : Fin 32) (s : State) : Host.Outcome State Fault Refusal :=
  .next (runKiosk 0x0205 k.val fwdAlways xpSceneCommitCheck xpSceneCommitEffect s)

/-- A tag's held entries and its schedule are removed (R53, R74). -/
def sceneDiscard (tag : Nat) (s : State) : State :=
  s.onXp fun x => { x with
    queue := x.queue.filter fun e => !(e.held && e.tag == tag)
    scheds := x.scheds.filter fun c => c.asap.isSome || c.tag != tag }

/-- Checks of XP_SCENE_DISCARD (R74). -/
def xpSceneDiscardCheck (p : List Byte) (_ : State) : Option Fail :=
  paramCheck ([(0, byteAt p 0 != 0)] ++ zeroFrom p 1 3 ++ [lenIs p 4])

/-- Effect of XP_SCENE_DISCARD: the response counts the held entries removed. -/
def xpSceneDiscardEffect (_ : Nat) (p : List Byte) (s : State) : Effect :=
  let t := (byteAt p 0).toNat
  (sceneDiscard t s, some (le 4 (heldOf s.xp t)))

/-- XP_SCENE_DISCARD (0x0206). -/
def execXpSceneDiscard (k : Fin 32) (s : State) : Host.Outcome State Fault Refusal :=
  .next (runKiosk 0x0206 k.val fwdAlways xpSceneDiscardCheck xpSceneDiscardEffect s)

/-- The 32 bytes of saturation flags from column `c0` on (R75). -/
def satBytes (sat : List Nat) (c0 : Nat) : List Byte :=
  (List.range 32).map fun j =>
    BitVec.ofNat 8 ((List.range 8).foldl (fun v k => v + if sat.contains (c0 + 8 * j + k) then 2 ^ k else 0) 0)

/-- Checks of XP_SAT_READ (R75). -/
def xpSatReadCheck (p : List Byte) (_ : State) : Option Fail :=
  let f := (byteAt p 0).toNat
  let g := (byteAt p 1).toNat
  paramCheck [(0, decide (f < 8)), (1, decide (1 ≤ g ∧ g ≤ 4 ∧ f + g ≤ 8)), (2, decide ((byteAt p 2).toNat < 2)),
    (3, byteAt p 3 == 0), lenIs p 4]

/-- Effect of XP_SAT_READ: the flags of GROUPS groups of 256 columns, with an optional clear of those returned. -/
def xpSatReadEffect (_ : Nat) (p : List Byte) (s : State) : Effect :=
  let f := (byteAt p 0).toNat
  let g := (byteAt p 1).toNat
  let real := s.xp.sat.filter fun c => decide (c < 256 * sqCols s)
  (if byteAt p 2 = 1 then
    s.onXp fun x => { x with sat := x.sat.filter fun c => !decide (256 * f ≤ c ∧ c < 256 * (f + g)
      ∧ c < 256 * sqCols s) } else s,
   some ((List.range g).flatMap fun i => satBytes real (256 * (f + i))))

/-- XP_SAT_READ (0x0207). -/
def execXpSatRead (k : Fin 32) (s : State) : Host.Outcome State Fault Refusal :=
  .next (runKiosk 0x0207 k.val fwdNever xpSatReadCheck xpSatReadEffect s)

/-- Overrides of a level. -/
def levelCount (x : XpS) (l : Nat) : Nat := (x.ovr.filter fun e => e.1 / 2 ^ 23 == l).length

/-- Free overrides of the pool of 262,144 (R54). -/
def poolFree (x : XpS) : Nat := 262144 - x.ovr.length

/-- The overrides after a definition (R76). -/
def ovrDefine (l : Nat) (remove : Bool) (es : List (Nat × BitVec 32)) (t : Tab (Option (BitVec 32))) :
    Tab (Option (BitVec 32)) :=
  es.foldl (fun t e => tput none t (l * 2 ^ 23 + e.1) (if remove then none else some e.2)) t

/-- Checks of XP_OVL_DEFINE (R76). -/
def xpOvlDefineCheck (p : List Byte) (s : State) : Option Fail :=
  let n := fld p 2 2
  let es := nodeEntries p n
  let rem := byteAt p 1 == 1
  orElse (paramCheck ([(0, decide ((byteAt p 0).toNat < 16)), (1, decide ((byteAt p 1).toNat < 2)),
      (2, decide (1 ≤ n ∧ n ≤ 29))]
    ++ (List.range (min n 29)).flatMap (fun k =>
      [(4 + 8 * k + 2, !(byteAt p (4 + 8 * k + 2)).getLsbD 7), (4 + 8 * k + 3, byteAt p (4 + 8 * k + 3) == 0),
       (8 + 8 * k, !rem || byteAt p (8 + 8 * k) == 0), (8 + 8 * k + 1, !rem || byteAt p (8 + 8 * k + 1) == 0),
       (8 + 8 * k + 2, !rem || byteAt p (8 + 8 * k + 2) == 0),
       (8 + 8 * k + 3, decide ((byteAt p (8 + 8 * k + 3)).toNat < 4) && (!rem || byteAt p (8 + 8 * k + 3) == 0))])
    ++ [lenIs p (4 + 8 * n)]))
  (orElse (indexCheck s (es.map (·.1))) (orElse (alleyCheck s es)
    (failIf (decide (262144 < (ovrDefine (byteAt p 0).toNat rem es s.xp.ovr).length)) 0x0015)))

/-- Effect of XP_OVL_DEFINE: the level's overrides change; on an active level the nodes concerned start transitions
(R58). -/
def xpOvlDefineEffect (_ : Nat) (p : List Byte) (s : State) : Effect :=
  let l := (byteAt p 0).toNat
  let es := nodeEntries p (fld p 2 2)
  let s := s.onXp fun x =>
    startTrans (entryWave s) (es.map (·.1)) x { x with ovr := ovrDefine l (byteAt p 1 == 1) es x.ovr }
  (s, some (le 4 (levelCount s.xp l) ++ le 4 (poolFree s.xp)))

/-- XP_OVL_DEFINE (0x0210). -/
def execXpOvlDefine (k : Fin 32) (s : State) : Host.Outcome State Fault Refusal :=
  .next (runKiosk 0x0210 k.val fwdAlways xpOvlDefineCheck xpOvlDefineEffect s)

/-- Checks of XP_OVL_CLEAR (R77). -/
def xpOvlClearCheck (p : List Byte) (s : State) : Option Fail :=
  orElse (paramCheck ([(0, decide ((byteAt p 0).toNat < 16))] ++ zeroFrom p 1 3 ++ [lenIs p 4]))
    (failIf (s.xp.active.getLsbD (byteAt p 0).toNat) 0x0016)

/-- Effect of XP_OVL_CLEAR: the level holds no override. -/
def xpOvlClearEffect (_ : Nat) (p : List Byte) (s : State) : Effect :=
  (s.onXp fun x => { x with ovr := x.ovr.filter fun e => e.1 / 2 ^ 23 != (byteAt p 0).toNat }, some [])

/-- XP_OVL_CLEAR (0x0211). -/
def execXpOvlClear (k : Fin 32) (s : State) : Host.Outcome State Fault Refusal :=
  .next (runKiosk 0x0211 k.val fwdAlways xpOvlClearCheck xpOvlClearEffect s)

/-- Checks of XP_OVL_SET (R78): a bit set in both masks is wrong; DETAIL names the byte of CLEAR_MASK. -/
def xpOvlSetCheck (p : List Byte) (_ : State) : Option Fail :=
  paramCheck [(2, byteAt p 0 &&& byteAt p 2 == 0), (3, byteAt p 1 &&& byteAt p 3 == 0), lenIs p 4]

/-- Effect of XP_OVL_SET: accepted for its effect wave, the next one, or the first one that runs while none does; the Kiosk
waits until that wave is over (R56, R78). -/
def xpOvlSetEffect (k : Nat) (p : List Byte) (s : State) : Effect :=
  (s.onXp fun x => { x with lvlCmds := x.lvlCmds ++
    [{ kiosk := k, setM := BitVec.ofNat 16 (fld p 0 2), clrM := BitVec.ofNat 16 (fld p 2 2), wave := if s.wave.running then actWave s else 0 }] },
   none)

/-- XP_OVL_SET (0x0212). -/
def execXpOvlSet (k : Fin 32) (s : State) : Host.Outcome State Fault Refusal :=
  .next (runKiosk 0x0212 k.val fwdAlways xpOvlSetCheck xpOvlSetEffect s)

/-- Checks of XP_OVL_BIND (R79). -/
def xpOvlBindCheck (p : List Byte) (_ : State) : Option Fail :=
  paramCheck [(0, decide ((byteAt p 0).toNat < 8)), (1, decide ((byteAt p 1).toNat < 16) || byteAt p 1 == 0xFF),
    (2, decide ((byteAt p 2).toNat < 2)), (3, byteAt p 3 == 0), lenIs p 4]

/-- Effect of XP_OVL_BIND: the input binds the level, or none, from the next tick (R68). -/
def xpOvlBindEffect (_ : Nat) (p : List Byte) (s : State) : Effect :=
  let k := (byteAt p 0).toNat
  let b : Option Bind := if byteAt p 1 = 0xFF then none
    else some { level := (byteAt p 1).toNat, brokenActs := byteAt p 2 == 1 }
  (s.onXp fun x => { x with
    bindNext := tput none x.bindNext k (some b) }, some [])

/-- XP_OVL_BIND (0x0213). -/
def execXpOvlBind (k : Fin 32) (s : State) : Host.Outcome State Fault Refusal :=
  .next (runKiosk 0x0213 k.val fwdAlways xpOvlBindCheck xpOvlBindEffect s)

/-- A byte with bit `k` for every input `k` of which `f` holds. -/
def inputMask (f : Nat → Bool) : Nat := (List.range 8).foldl (fun v k => v + if f k then 2 ^ k else 0) 0

/-- PRI_ASSERTED (R67). -/
def priAsserted (x : XpS) : Nat := inputMask fun k => (tget {} x.pri k).asserted

/-- PRI_BROKEN (R67). -/
def priBrokenMask (x : XpS) : Nat := inputMask fun k => (tget {} x.pri k).broken

/-- No payload is expected. -/
def emptyCheck (p : List Byte) (_ : State) : Option Fail := paramCheck [lenIs p 0]

/-- Effect of XP_OVL_STATUS (R80). The spec gives bits 3 to 0 and bit 6 of BIND only for a bound input; for an unbound one
they read 0 (DESIGN CHOICE, log entry 141). -/
def xpOvlStatusEffect (_ : Nat) (_ : List Byte) (s : State) : Effect :=
  let x := s.xp
  (s, some (le 2 x.active.toNat ++ le 2 x.cmdSet.toNat ++ le 2 x.priHeld.toNat
    ++ le 1 (priAsserted x) ++ le 1 (priBrokenMask x) ++ le 4 (poolFree x)
    ++ (List.range 16).flatMap (fun l => le 4 (levelCount x l))
    ++ (List.range 8).flatMap (fun k => le 1 (match tget none x.bind k with
      | some b => b.level + 64 * b2n b.brokenActs
      | none => 128))))

/-- XP_OVL_STATUS (0x0214). -/
def execXpOvlStatus (k : Fin 32) (s : State) : Host.Outcome State Fault Refusal :=
  .next (runKiosk 0x0214 k.val fwdNever emptyCheck xpOvlStatusEffect s)

/-- Checks of XP_ALLEY_STATUS (R81). -/
def xpAlleyStatusCheck (p : List Byte) (_ : State) : Option Fail :=
  let f := (byteAt p 0).toNat
  let n := (byteAt p 1).toNat
  paramCheck ([(0, decide (f < 64)), (1, decide (1 ≤ n ∧ n ≤ 16 ∧ f + n ≤ 64))] ++ zeroFrom p 2 2 ++ [lenIs p 4])

/-- Effect of XP_ALLEY_STATUS: column and vote counters of each bus. -/
def xpAlleyStatusEffect (_ : Nat) (p : List Byte) (s : State) : Effect :=
  (s, some ((List.range (byteAt p 1).toNat).flatMap fun i =>
    let b := (byteAt p 0).toNat + i
    let a := tget {} s.xp.alley b
    le 2 ((alleyCol s b).getD 0xFFFF) ++ le 2 a.losses.toNat ++ le 2 a.noMaj.toNat ++ [a.lastLoser] ++ zeros 1))

/-- XP_ALLEY_STATUS (0x0218). -/
def execXpAlleyStatus (k : Fin 32) (s : State) : Host.Outcome State Fault Refusal :=
  .next (runKiosk 0x0218 k.val fwdNever xpAlleyStatusCheck xpAlleyStatusEffect s)

end Sys2Proof.Machine
end

