-- ==== Sys2Proof/Machine/DrvCmd.lean ====
section
/-! DEFINITION. Command family 0x05 (07 R252 to R257): each command's own checks, its effect, and its meaning. Where OP is
0 a command reads, and does not use its value fields (log entry 19). -/

namespace Sys2Proof.Machine

/-- Checks of DRV_LINK_CONFIG (R253). -/
def drvLinkConfigCheck (p : List Byte) (_ : State) : Option Fail :=
  paramCheck ([(0, decide ((byteAt p 0).toNat < 2))] ++ zeroFrom p 1 3 ++ [lenIs p 8])

/-- DRV_LINK_UP (R251). -/
def linkUpMask (s : State) : Nat := (List.range 32).foldl (fun m l => m + if (linkAt s l).up then 2 ^ l else 0) 0

/-- Effect of DRV_LINK_CONFIG: AUDIO_ENABLE from the next frame. -/
def drvLinkConfigEffect (_ : Nat) (p : List Byte) (s : State) : Effect :=
  (if byteAt p 0 = 1 then s.onDrv fun d => { d with audio := BitVec.ofNat 32 (fld p 4 4) } else s,
   some (le 4 s.drv.audio.toNat ++ le 4 (linkUpMask s)))

/-- DRV_LINK_CONFIG (0x0501). -/
def execDrvLinkConfig (k : Fin 32) (s : State) : Host.Outcome State Fault Refusal :=
  .next (runKiosk 0x0501 k.val fwdWrites drvLinkConfigCheck drvLinkConfigEffect s)

/-- Checks of DRV_LINK_STATUS (R253). -/
def drvLinkStatusCheck (p : List Byte) (_ : State) : Option Fail :=
  let f := (byteAt p 0).toNat
  let n := (byteAt p 1).toNat
  paramCheck [(0, decide (f < 32)), (1, decide (1 ≤ n ∧ n ≤ 8 ∧ f + n ≤ 32)), (2, decide ((byteAt p 2).toNat < 2)),
    (3, byteAt p 3 == 0), lenIs p 4]

/-- STATE of a link (R253). -/
def linkState (s : State) (l : Nat) : Nat :=
  let k := linkAt s l
  if k.frame = [] then 0 else if !k.up then 1 else if k.stage.getLsbD 3 then 3 else 2

/-- A link's entry (R253). -/
def linkBytes (s : State) (l : Nat) : List Byte :=
  let k := linkAt s l
  le 1 l ++ le 1 (linkState s l) ++ [k.stage, k.accFlags] ++ le 2 k.accClaim.toNat ++ [k.errCount] ++ zeros 1
    ++ le 4 k.upCrc.toNat ++ le 4 k.upLosses.toNat ++ le 2 k.ctlTo.toNat ++ [k.seq] ++ zeros 1 ++ le 4 k.lastGood.toNat

/-- Effect of DRV_LINK_STATUS: with CLEAR the counters are cleared after they are returned. -/
def drvLinkStatusEffect (_ : Nat) (p : List Byte) (s : State) : Effect :=
  let ls := (List.range (byteAt p 1).toNat).map ((byteAt p 0).toNat + ·)
  (if byteAt p 2 = 1 then ls.foldl (fun s l => onLink l (fun k => { k with
      upCrc := 0
      upLosses := 0
      ctlTo := 0 }) s) s else s,
   some ([byteAt p 0, byteAt p 1] ++ zeros 6 ++ le 8 (sampleNow s).toNat ++ ls.flatMap (linkBytes s)))

/-- DRV_LINK_STATUS (0x0502). -/
def execDrvLinkStatus (k : Fin 32) (s : State) : Host.Outcome State Fault Refusal :=
  .next (runKiosk 0x0502 k.val fwdNever drvLinkStatusCheck drvLinkStatusEffect s)

/-- Checks of DRV_STAGE_SET (R250, R254): nothing is sent to a channel that plays. -/
def drvStageSetCheck (p : List Byte) (s : State) : Option Fail :=
  let c := (byteAt p 0).toNat
  let wr := byteAt p 1 == 1
  orElse (paramCheck ([(0, decide (c < 128)), (1, decide ((byteAt p 1).toNat < 2))] ++ zeroFrom p 2 2
      ++ onOp p 1 [(4, 2, decide (300 ≤ fld p 4 2 ∧ fld p 4 2 ≤ 600)),
          (6, 1, decide (-64 ≤ sgn 8 (fld p 6 1) ∧ sgn 8 (fld p 6 1) ≤ 63)), (7, 1, decide ((byteAt p 7).toNat < 32))]
      ++ [lenIs p 8]))
  (orElse (failIf (!(linkAt s (c / 4)).up) 0x0032) (failIf (wr && !(chanAt s c).chMute) 0x0030))

/-- Effect of DRV_STAGE_SET: IDLE_FREQ and then LOOP_TRIM go into the control slot; the Kiosk waits for the replies. -/
def drvStageSetEffect (k : Nat) (p : List Byte) (s : State) : Effect :=
  let c := (byteAt p 0).toNat
  let op := if byteAt p 1 = 1 then 2 else 1
  let trim := fld p 6 1 + 256 * fld p 7 1
  (onLink (c / 4) (fun l => { l with todo := l.todo ++
    [{ op := op, addr := BitVec.ofNat 16 (0x100 + c % 4), data := if op = 2 then BitVec.ofNat 32 (fld p 4 2) else 0, owner := k },
     { op := op, addr := BitVec.ofNat 16 (0x110 + c % 4), data := if op = 2 then BitVec.ofNat 32 trim else 0, owner := k }] })
    s, none)

/-- DRV_STAGE_SET (0x0503). -/
def execDrvStageSet (k : Fin 32) (s : State) : Host.Outcome State Fault Refusal :=
  .next (runKiosk 0x0503 k.val fwdNever drvStageSetCheck drvStageSetEffect s)

/-- Checks of DRV_CTL_RAW (R254). -/
def drvCtlRawCheck (p : List Byte) (s : State) : Option Fail :=
  let op := (byteAt p 1).toNat
  orElse (paramCheck [(0, decide ((byteAt p 0).toNat < 32)), (1, decide (op = 1 ∨ op = 2)),
      (2, op != 2 || decide (0x8000 ≤ fld p 2 2)), lenIs p 8])
    (failIf (!(linkAt s (byteAt p 0).toNat).up) 0x0032)

/-- Effect of DRV_CTL_RAW: the request goes into the control slot; the Kiosk waits for its reply. -/
def drvCtlRawEffect (k : Nat) (p : List Byte) (s : State) : Effect :=
  let op := (byteAt p 1).toNat
  (onLink (byteAt p 0).toNat (fun l => { l with todo := l.todo ++
    [{ op := op, addr := BitVec.ofNat 16 (fld p 2 2), data := if op = 2 then BitVec.ofNat 32 (fld p 4 4) else 0, owner := k }] })
    s, none)

/-- DRV_CTL_RAW (0x0504). -/
def execDrvCtlRaw (k : Fin 32) (s : State) : Host.Outcome State Fault Refusal :=
  .next (runKiosk 0x0504 k.val fwdNever drvCtlRawCheck drvCtlRawEffect s)

/-- CHANNEL and OP of a parameter command, with `most` the highest OP. -/
def chanOp (p : List Byte) (most : Nat) : List (Nat × Bool) :=
  [(0, decide ((byteAt p 0).toNat < 128)), (1, decide ((byteAt p 1).toNat ≤ most))]

/-- A signed 16-bit field. -/
def sfld (p : List Byte) (o : Nat) : Int := sgn 16 (fld p o 2)

/-- Checks of DRV_THERMAL_SET (R240, R256). -/
def drvThermalSetCheck (p : List Byte) (_ : State) : Option Fail :=
  paramCheck (chanOp p 1 ++ zeroFrom p 2 2 ++ onOp p 1 [
    (4, 2, decide (1 ≤ fld p 4 2 ∧ fld p 4 2 ≤ 65280)), (6, 2, decide (1 ≤ fld p 6 2 ∧ fld p 6 2 ≤ 65520)),
    (8, 2, decide (1 ≤ fld p 8 2 ∧ fld p 8 2 ≤ 65280)), (10, 2, decide (1 ≤ fld p 10 2)),
    (12, 2, decide (-880 ≤ sfld p 12 ∧ sfld p 12 ≤ 2000)),
    (14, 2, decide (sfld p 12 ≤ sfld p 14 ∧ sfld p 14 ≤ sfld p 16 - 16)), (16, 2, decide (sfld p 16 ≤ 4800)),
    (18, 1, decide (1 ≤ fld p 18 1 ∧ fld p 18 1 ≤ 100)), (24, 2, decide (3000 ≤ fld p 24 2 ∧ fld p 24 2 ≤ 5000))]
    ++ [(19, byteAt p 19 == 0), lenIs p 26])

/-- The thermal fields of a payload. -/
def thermOf (p : List Byte) : ThermP where
  rthVc := fld p 4 2
  cthVc := fld p 6 2
  rthM := fld p 8 2
  cthM := fld p 10 2
  tAmb := sfld p 12
  tKnee := sfld p 14
  tMax := sfld p 16
  slope := fld p 18 1
  re0 := fld p 20 2
  t0 := sfld p 22
  alpha := fld p 24 2

/-- CHANNEL and OP as the request has them (R252). -/
def chanHead (p : List Byte) : List Byte := [byteAt p 0, byteAt p 1]

/-- Effect of DRV_THERMAL_SET: the response holds the values in force before it; new ones act at the next update. -/
def drvThermalSetEffect (_ : Nat) (p : List Byte) (s : State) : Effect :=
  let c := (byteAt p 0).toNat
  let t := (chanAt s c).therm
  (if byteAt p 1 = 1 then onChan c (fun q => { q with thermNext := some (thermOf p) }) s else s,
   some (chanHead p ++ zeros 2 ++ le 2 t.rthVc ++ le 2 t.cthVc ++ le 2 t.rthM ++ le 2 t.cthM ++ le 2 (unsgn 16 t.tAmb)
    ++ le 2 (unsgn 16 t.tKnee) ++ le 2 (unsgn 16 t.tMax) ++ le 1 t.slope ++ zeros 1 ++ le 2 t.re0 ++ le 2 (unsgn 16 t.t0)
    ++ le 2 t.alpha))

/-- OP 1 at byte 1 is forwarded (10 R319). -/
def fwdOp1 (p : List Byte) : Bool := byteAt p 1 != 0

/-- DRV_THERMAL_SET (0x0505). -/
def execDrvThermalSet (k : Fin 32) (s : State) : Host.Outcome State Fault Refusal :=
  .next (runKiosk 0x0505 k.val fwdOp1 drvThermalSetCheck drvThermalSetEffect s)

/-- Checks of DRV_PILOT_SET (R241, R256): an ultrasonic pilot at 48 kHz returns BAD_RATE. With MODE 0, FREQ lies in either
range (log entry 161). -/
def drvPilotSetCheck (p : List Byte) (s : State) : Option Fail :=
  let m := (byteAt p 2).toNat
  let f := fld p 4 2
  orElse (paramCheck (chanOp p 1 ++ onOp p 1 [
      (2, 1, decide (m < 3)), (3, 1, decide (30 ≤ fld p 3 1 ∧ fld p 3 1 ≤ 60)),
      (4, 2, (m != 2 && decide (80 ≤ f ∧ f ≤ 180)) || (m != 1 && decide (2200 ≤ f ∧ f ≤ 4000))),
      (6, 1, decide (1 ≤ fld p 6 1 ∧ fld p 6 1 ≤ 8))] ++ [(7, byteAt p 7 == 0), lenIs p 8]))
    (failIf (byteAt p 1 == 1 && m == 2 && s.wave.rate == some .r48) 0x0022)

/-- Effect of DRV_PILOT_SET: the parameters act at the next window start, which for a pilot that is off is at once. -/
def drvPilotSetEffect (_ : Nat) (p : List Byte) (s : State) : Effect :=
  let c := (byteAt p 0).toNat
  let t := (chanAt s c).pilot
  let n : PilotP := { mode := fld p 2 1, level := fld p 3 1, freq := fld p 4 2, window := fld p 6 1 }
  (if byteAt p 1 = 1 then onChan c (fun q =>
      if !pilotOn s q.pilot then { pilotClear q with
        pilot := n
        pilAt := s.wave.count
        noRead := 0 }
      else { q with pilotNext := some n }) s else s,
   some (chanHead p ++ le 1 t.mode ++ le 1 t.level ++ le 2 t.freq ++ le 1 t.window ++ zeros 1))

/-- DRV_PILOT_SET (0x0506): it is forwarded too (10 R319). -/
def execDrvPilotSet (k : Fin 32) (s : State) : Host.Outcome State Fault Refusal :=
  .next (runKiosk 0x0506 k.val fwdOp1 drvPilotSetCheck drvPilotSetEffect s)

/-- Checks of DRV_KERB_SET (R244, R245, R256). -/
def drvKerbSetCheck (p : List Byte) (_ : State) : Option Fail :=
  paramCheck (chanOp p 1 ++ onOp p 1 [(2, 1, decide (6 ≤ fld p 2 1 ∧ fld p 2 1 ≤ 60))] ++ [(3, byteAt p 3 == 0)]
    ++ onOp p 1 [(6, 2, decide (5 ≤ fld p 6 2 ∧ fld p 6 2 ≤ 5000))] ++ zeroFrom p 8 2 ++ [lenIs p 10])

/-- Effect of DRV_KERB_SET. -/
def drvKerbSetEffect (_ : Nat) (p : List Byte) (s : State) : Effect :=
  let c := (byteAt p 0).toNat
  let t := (chanAt s c).kerb
  (if byteAt p 1 = 1 then onChan c (fun q => { q with
      kerb := { floor := fld p 2 1, vPeak := fld p 4 2, release := fld p 6 2 } }) s else s,
   some (chanHead p ++ le 1 t.floor ++ zeros 1 ++ le 2 t.vPeak ++ le 2 t.release ++ zeros 2))

/-- DRV_KERB_SET (0x0507). -/
def execDrvKerbSet (k : Fin 32) (s : State) : Host.Outcome State Fault Refusal :=
  .next (runKiosk 0x0507 k.val fwdOp1 drvKerbSetCheck drvKerbSetEffect s)

/-- Checks of DRV_Z_LIMITS (R246, R256). -/
def drvZLimitsCheck (p : List Byte) (_ : State) : Option Fail :=
  paramCheck (chanOp p 1 ++ onOp p 1 [(2, 1, decide (5 ≤ fld p 2 1 ∧ fld p 2 1 ≤ 90)),
    (3, 1, decide (5 ≤ fld p 3 1 ∧ fld p 3 1 ≤ 200)), (8, 2, decide (fld p 6 2 < fld p 8 2))] ++ zeroFrom p 10 2 ++ [lenIs p 12])

/-- Effect of DRV_Z_LIMITS. -/
def drvZLimitsEffect (_ : Nat) (p : List Byte) (s : State) : Effect :=
  let c := (byteAt p 0).toNat
  let t := (chanAt s c).z
  (if byteAt p 1 = 1 then onChan c (fun q => { q with
      z := { zLow := fld p 2 1, zHigh := fld p 3 1, zRef := fld p 4 2, shortL := fld p 6 2, openL := fld p 8 2 } }) s else s,
   some (chanHead p ++ le 1 t.zLow ++ le 1 t.zHigh ++ le 2 t.zRef ++ le 2 t.shortL ++ le 2 t.openL ++ zeros 2))

/-- DRV_Z_LIMITS (0x0508). -/
def execDrvZLimits (k : Fin 32) (s : State) : Host.Outcome State Fault Refusal :=
  .next (runKiosk 0x0508 k.val fwdOp1 drvZLimitsCheck drvZLimitsEffect s)

/-- Checks of DRV_MONITOR_READ (R257). -/
def drvMonitorReadCheck (p : List Byte) (_ : State) : Option Fail :=
  let f := (byteAt p 0).toNat
  let n := (byteAt p 1).toNat
  paramCheck ([(0, decide (f < 128)), (1, decide (1 ≤ n ∧ n ≤ 8 ∧ f + n ≤ 128))] ++ zeroFrom p 2 2 ++ [lenIs p 4])

/-- A temperature of 2^-16 C as a signed field of 1/16 C. -/
def tempField (t : Int) : Nat := unsgn 16 (satInt 16 (t / 4096))

/-- DIAG of a channel (R257). -/
def chanDiag (q : ChanS) : Nat :=
  b2n q.open_ + 2 * b2n (q.short != .none) + 4 * b2n q.zWin + 8 * b2n q.diverge + 16 * b2n q.mismatch
    + 32 * b2n (decide (q.kPk < 2 ^ 20)) + 64 * b2n (decide (q.kTh < 2 ^ 20)) + 128 * b2n q.hold

/-- A channel's entry (R257). -/
def chanBytes (s : State) (c : Nat) : List Byte :=
  let q := chanAt s c
  le 1 c ++ le 1 (chanState s c) ++ le 1 (chanDiag q) ++ le 1 (q.pilot.mode + 4 * b2n q.readOk)
    ++ le 2 (tempField q.tvc) ++ le 2 (tempField q.tm)
    ++ le 2 (match q.tMeas with
      | some t => tempField t
      | none => 0x8000)
    ++ le 3 (min q.kTh q.kPk) ++ zeros 1 ++ le 2 q.zMag ++ le 2 (unsgn 16 q.zPhase) ++ le 2 q.reEst
    ++ le 2 q.shorts.toNat ++ le 2 q.probes.toNat

/-- Effect of DRV_MONITOR_READ. -/
def drvMonitorReadEffect (_ : Nat) (p : List Byte) (s : State) : Effect :=
  (s, some ([byteAt p 0, byteAt p 1] ++ zeros 6 ++ le 8 s.wave.count.toNat
    ++ (List.range (byteAt p 1).toNat).flatMap fun k => chanBytes s ((byteAt p 0).toNat + k)))

/-- DRV_MONITOR_READ (0x0509). -/
def execDrvMonitorRead (k : Fin 32) (s : State) : Host.Outcome State Fault Refusal :=
  .next (runKiosk 0x0509 k.val fwdNever drvMonitorReadCheck drvMonitorReadEffect s)

/-- Checks of DRV_CHANNEL_CTL (R255): a probe is run only in the short sequence. -/
def drvChannelCtlCheck (p : List Byte) (s : State) : Option Fail :=
  orElse (paramCheck (chanOp p 5 ++ zeroFrom p 2 2 ++ [lenIs p 4]))
    (if byteAt p 1 = 2 ∧ (chanAt s (byteAt p 0).toNat).short = .none then some (badParam 1) else none)

/-- Effect of DRV_CHANNEL_CTL: a mute or unmute waits for its zero crossing, or 96 samples, and its Kiosk with it; the
others act at once. -/
def drvChannelCtlEffect (_ : Nat) (p : List Byte) (s : State) : Effect :=
  let c := (byteAt p 0).toNat
  let due (m : Bool) : State := onChan c (fun q => { q with muteDue := some (m, accWave s + 96) }) s
  let done (s : State) : Effect := (s, some (le 1 (chanState s c) ++ zeros 3 ++ le 8 (effNow s).toNat))
  match (byteAt p 1).toNat with
  | 0 => (due false, none)
  | 1 => (due true, none)
  | 2 => done (onChan c (fun q => { q with hold := false }) (probeStart c s))
  | 3 => done (onChan c (fun q => { q with
      open_ := false
      zWin := false
      mismatch := false }) s)
  | 4 => done (onChan c (fun q => { q with hold := true }) s)
  | _ => done (onChan c (fun q => { q with hold := false }) s)

/-- DRV_CHANNEL_CTL (0x050A). -/
def execDrvChannelCtl (k : Fin 32) (s : State) : Host.Outcome State Fault Refusal :=
  .next (runKiosk 0x050A k.val fwdAlways drvChannelCtlCheck drvChannelCtlEffect s)

/-- Checks of DRV_CAL_WRITE (R256). -/
def drvCalWriteCheck (p : List Byte) (_ : State) : Option Fail :=
  paramCheck (chanOp p 2 ++ zeroFrom p 2 2 ++ zeroFrom p 14 2 ++ [lenIs p 16])

/-- The stage of link `l` is VALID or MISMATCH (09 R305, R306). -/
def stageAccepted (s : State) (l : Nat) : Bool := (modAt s (32 + l)).st == 2 || (modAt s (32 + l)).st == 5

/-- Effect of DRV_CAL_WRITE: OP 1 sets the calibration until reset or revert, OP 2 reverts to the DMIR's. -/
def drvCalWriteEffect (_ : Nat) (p : List Byte) (s : State) : Effect :=
  let c := (byteAt p 0).toNat
  let n : CalP := { vLsb := fld p 4 4, iLsb := fld p 8 4, vOutFs := fld p 12 2 }
  let t := (calOf (chanAt s c)).getD {}
  (if byteAt p 1 = 1 then onChan c (fun q => { q with calHost := some n }) s
    else if byteAt p 1 = 2 then onChan c (fun q => { q with
      calHost := none
      calDmir := if stageAccepted s (c / 4) then q.calDmir else none }) s
    else s,
   some (chanHead p ++ zeros 2 ++ le 4 t.vLsb ++ le 4 t.iLsb ++ le 2 t.vOutFs ++ zeros 2))

/-- DRV_CAL_WRITE (0x050B). -/
def execDrvCalWrite (k : Fin 32) (s : State) : Host.Outcome State Fault Refusal :=
  .next (runKiosk 0x050B k.val fwdOp1 drvCalWriteCheck drvCalWriteEffect s)

end Sys2Proof.Machine
end

