-- ==== Sys2Proof/Machine/Frame.lean ====
section
/-! DEFINITION. The bytes of network frames: Ethernet, IPv4 and UDP as 08 R260, R266, R278 and R291 use them, and IEEE 802.1AE
protection (08 R260, R284). The layouts are those of the standards that the spec names (log entry 165). -/

namespace Sys2Proof.Machine

/-- The Internet checksum of bytes. -/
def ipSum (b : List Byte) : Nat :=
  let s := (List.range ((b.length + 1) / 2)).foldl (fun v i => v + fldBe (sized (b.length + 1) b) (2 * i) 2) 0
  let s := s % 65536 + s / 65536
  65535 - (s % 65536 + s / 65536)

/-- A frame without its FCS: addresses, an 802.1Q tag with PCP and VLAN where VLAN is not 0, EtherType and payload. -/
def ethFrame (dst src : BitVec 48) (pcp vlan ether : Nat) (payload : List Byte) : List Byte :=
  be 6 dst.toNat ++ be 6 src.toNat ++ (if vlan = 0 then [] else be 2 0x8100 ++ be 2 (8192 * pcp + vlan)) ++ be 2 ether ++ payload

/-- An IPv4 packet of one fragment. The spec states no identification and no Don't Fragment bit: `Config.ipIdent` of the
payload gives both. -/
def ipv4 (tos ttl proto : Nat) (src dst : BitVec 32) (options payload : List Byte) : List Byte :=
  let n := 20 + options.length
  let id := Config.ipIdent payload
  let head (sum : Nat) : List Byte := le 1 (64 + n / 4) ++ le 1 tos ++ be 2 (n + payload.length) ++ be 2 id.1.toNat
    ++ be 2 (16384 * b2n id.2) ++ le 1 ttl ++ le 1 proto ++ be 2 sum ++ be 4 src.toNat ++ be 4 dst.toNat ++ options
  head (ipSum (head 0)) ++ payload

/-- A UDP datagram. The spec does not say whether the checksum, which is optional, is sent: `Config.udpSum`. -/
def udp (src dst : BitVec 32) (sport dport : Nat) (payload : List Byte) : List Byte :=
  let n := 8 + payload.length
  let head (sum : Nat) : List Byte := be 2 sport ++ be 2 dport ++ be 2 n ++ be 2 sum
  let c := ipSum (be 4 src.toNat ++ be 4 dst.toNat ++ be 2 17 ++ be 2 n ++ head 0 ++ payload)
  head (if Config.udpSum then (if c = 0 then 65535 else c) else 0) ++ payload

/-- An ARP frame: 1 request, 2 reply. -/
def arpFrame (dst src : BitVec 48) (srcIp : BitVec 32) (dstMac : BitVec 48) (dstIp : BitVec 32) (oper : Nat) : List Byte :=
  ethFrame dst src 0 0 0x0806 (be 2 1 ++ be 2 0x0800 ++ [6, 4] ++ be 2 oper ++ be 6 src.toNat ++ be 4 srcIp.toNat
    ++ be 6 dstMac.toNat ++ be 4 dstIp.toNat)

/-- A frame with its FCS. -/
def withFcs (f : List Byte) : List Byte := f ++ le 4 (crc32 f).toNat

/-- A frame that ends with an inverted FCS (08 R279). -/
def badFcs (f : List Byte) : List Byte := f ++ le 4 (~~~(crc32 f)).toNat

/-- A frame of less than 60 bytes is filled with zeros (08 R278). -/
def padded (f : List Byte) : List Byte := f ++ zeros (60 - f.length)

/-! ### Fields of a frame -/

/-- Offset of the EtherType: behind a single 802.1Q tag where there is one (R260). -/
def ethOff (f : List Byte) : Nat := if fldBe f 12 2 = 0x8100 then 16 else 12

/-- EtherType. -/
def ethType (f : List Byte) : Nat := fldBe f (ethOff f) 2

/-- Offset of the IPv4 header, when the frame is IPv4. -/
def ipOff (f : List Byte) : Option Nat :=
  let o := ethOff f + 2
  if ethType f = 0x0800 ∧ (byteAt f o).toNat / 16 = 4 then some o else none

/-- IPv4: protocol, source, destination, offset of what follows the header. -/
def ipParts (f : List Byte) : Option (Nat × Nat × Nat × Nat) :=
  (ipOff f).map fun o => ((byteAt f (o + 9)).toNat, fldBe f (o + 12) 4, fldBe f (o + 16) 4,
    o + 4 * ((byteAt f o).toNat % 16))

/-- UDP: source address, destination address, destination port, offset and length of its payload. -/
def udpParts (f : List Byte) : Option (Nat × Nat × Nat × Nat × Nat) :=
  match ipParts f with
  | some (proto, src, dst, o) => if proto = 17 then some (src, dst, fldBe f (o + 2) 2, o + 8, fldBe f (o + 4) 2 - 8) else none
  | none => none

/-- The frame's check sequence is good. -/
def fcsGood (f : List Byte) : Bool := (crc32 (f.take (f.length - 4))).toNat == fld f (f.length - 4) 4

/-! ### IEEE 802.1AE -/

/-- The IV of a frame: SCI and packet number, or under XPN the salt with SSCI and the 64-bit number. -/
def macsecIv (xpn : Bool) (salt : List Byte) (sci : BitVec 64) (ssci : BitVec 32) (pn : Nat) : List Byte :=
  if xpn then xorBytes (sized 12 salt) (be 4 ssci.toNat ++ be 8 pn) else be 8 sci.toNat ++ be 4 pn

/-- A frame, without FCS, protected: SecTAG of 16 bytes with the SCI, the ciphertext of what follows the addresses, and the
ICV. -/
def macsecSeal (xpn : Bool) (key salt : List Byte) (sci : BitVec 64) (ssci : BitVec 32) (an pn : Nat) (f : List Byte) : List Byte :=
  let plain := f.drop 12
  let aad := f.take 12 ++ be 2 0x88E5 ++ le 1 (0x2C + an) ++ le 1 (if plain.length < 48 then plain.length else 0)
    ++ be 4 (pn % 2 ^ 32) ++ be 8 sci.toNat
  aad ++ gcmSeal key (macsecIv xpn salt sci ssci pn) aad plain

/-- The SecTAG of a frame: its length, the SCI, explicit or from the source address, the AN, the low 32 bits of the packet
number, and whether the data are encrypted. -/
def secTag (f : List Byte) : Option (Nat × BitVec 64 × Nat × Nat × Bool) :=
  if fldBe f 12 2 ≠ 0x88E5 then none
  else
    let t := (byteAt f 14).toNat
    let pn := fldBe f 16 4
    if bitOf t 5 then some (16, BitVec.ofNat 64 (fldBe f 20 8), t % 4, pn, bitOf t 3)
    else some (8, BitVec.ofNat 64 (fldBe f 6 6 * 65536 + 1), t % 4, pn, bitOf t 3)

/-- The frame that a protected frame, without FCS, holds; none where its ICV fails. -/
def macsecUnseal (key iv : List Byte) (tag : Nat) (secret : Bool) (f : List Byte) : Option (List Byte) :=
  let aad := f.take (12 + tag)
  let short := (byteAt f 15).toNat % 64
  let data := if short = 0 then f.drop (12 + tag) else (f.drop (12 + tag)).take (short + 16)
  if secret then (gcmOpen key iv aad data).map fun p => f.take 12 ++ p
  else
    let plain := data.take (data.length - 16)
    (gcmOpen key iv (aad ++ plain) (data.drop (data.length - 16))).map fun _ => f.take 12 ++ plain

/-- The 64-bit packet number of a received frame under XPN, from its low 32 bits and the next number expected. -/
def xpnRecover (next low : Nat) : Nat :=
  let up := next / 2 ^ 32
  if low < next % 2 ^ 32 ∧ 2 ^ 31 ≤ next % 2 ^ 32 ∧ low < 2 ^ 31 then (up + 1) * 2 ^ 32 + low else up * 2 ^ 32 + low

end Sys2Proof.Machine
end

