-- ==== Sys2Proof/Machine/Streams.lean ====
section
/-! DEFINITION. Media streams between the ports and the crosspoint (08 R261 to R270, R292). -/

namespace Sys2Proof.Machine

/-! ### Access -/

/-- A network port. -/
def portAt (s : State) (p : Nat) : PortS := tget {} s.net.ports p

/-- A change of one port. -/
def onPort (p : Nat) (f : PortS → PortS) (s : State) : State := s.onNet fun n => { n with ports := tmod {} n.ports p f }

/-- A receive stream. -/
def rxAt (s : State) (k : Nat) : RxStream := tget {} s.net.rx k

/-- A change of one receive stream. -/
def onRx (k : Nat) (f : RxStream → RxStream) (s : State) : State := s.onNet fun n => { n with rx := tmod {} n.rx k f }

/-- A transmit stream. -/
def txAt (s : State) (k : Nat) : TxStream := tget {} s.net.tx k

/-- A change of one transmit stream. -/
def onTx (k : Nat) (f : TxStream → TxStream) (s : State) : State := s.onNet fun n => { n with tx := tmod {} n.tx k f }

/-- Port counters, in the order of NET_STATS_READ (R292): RX_FRAMES 0, RX_BYTES 1, FCS_ERR 2, RUNT 3, OVERSIZE 4,
NO_BUFFER 5, ABANDONED 6, MALFORMED 7, MAC_CTRL 8, RX_PAUSE 9, PAUSE_IGNORED 10, PAUSE_WD 11, MACSEC_FAIL 12,
RX_STREAM 13, TX_FRAMES 14, TX_BYTES 15, UNDERRUN 16, TX_STREAM 17. They saturate (R287). -/
def countPort (p i n : Nat) (s : State) : State :=
  onPort p (fun q => { q with stats := tmod 0 q.stats i fun c => satAdd c n }) s

/-- Sets a sticky bit of NET_PORT_STATUS. -/
def stickPort (p i : Nat) (s : State) : State :=
  onPort p (fun q => { q with sticky := q.sticky ||| BitVec.ofNat 8 (2 ^ i) }) s

/-- Stream counters (R292): PACKETS_A 0, PACKETS_B 1, LATE 2, EARLY 3, SEQ_GAPS 4, MISSING 5, DUPLICATES 6, STALE 7. -/
def bumpCnt (t : Tab (BitVec 32)) (i n : Nat) : Tab (BitVec 32) := tmod 0 t i fun c => satAdd c n

/-- OBJECT of a port that has no ring or stream (log entry 17). -/
def objPort (p : Nat) : Nat := objStream p 0xFFFF

/-- P: samples in a packet (R261). -/
def ptimeSamples (r : Rate) (ptime : Nat) : Nat :=
  let k := match r with
    | .r48 => 1
    | .r96 => 2
    | .r192 => 4
  k * match ptime with
    | 0 => 6
    | 1 => 12
    | 2 => 16
    | _ => 48

/-- P of a stream at the running rate. -/
def packetLen (s : State) (ptime : Nat) : Nat :=
  match s.wave.rate with
  | some r => ptimeSamples r ptime
  | none => 1

/-- The ports of a stream, path A first. -/
def pathPorts (ports : BitVec 8) : List Nat := (List.range 4).filter fun p => ports.getLsbD p

/-- The path that a port carries. -/
def pathOf (ports : BitVec 8) (p : Nat) : Nat := if (pathPorts ports).head? = some p then 0 else 1

/-- OBJECT of a stream. -/
def streamObj (ports : BitVec 8) (k : Nat) : Nat := objStream ((pathPorts ports).headD 0) k

/-! ### Receive (R262 to R265) -/

/-- δ of R262 for a sample of timestamp `ts` at tick `m`. -/
def rxDelta (q : RxStream) (ts : BitVec 32) (m : BitVec 64) : Int :=
  ((ts + BitVec.ofNat 32 q.depth) - (m.truncate 32 + q.offset)).toInt

/-- One sample of an accepted packet at tick `m` (R262, R263). A copy of a sample that is already buffered is discarded;
each source of CLAIM_SELECT has its own. -/
def rxPut (m : BitVec 64) (x : RxSample) (q : RxStream) : RxStream :=
  let d := rxDelta q x.ts m
  if d ≤ 0 then { q with cnt := bumpCnt q.cnt 2 1 }
  else if (q.depth : Int) < d then { q with cnt := bumpCnt q.cnt 3 1 }
  else if q.buf.any fun y => y.ts == x.ts && y.src == x.src then q
  else { q with buf := q.buf ++ [{ x with due := m + BitVec.ofInt 64 d }] }

/-- A sample of the packet was LATE. -/
def rxLate (m : BitVec 64) (q : RxStream) (xs : List RxSample) : Bool := xs.any fun x => decide (rxDelta q x.ts m ≤ 0)

/-- A packet on a path from a source (R265): its sequence is tested, and its samples are taken. A packet that repeats or
goes back counts as a duplicate and is discarded. The answer says whether it was accepted. -/
def rxPacket (m : BitVec 64) (path src seq : Nat) (ts : BitVec 32) (xs : List RxSample) (q : RxStream) : RxStream × Bool :=
  let key := 2 * path + src
  let gap := match tget none q.seqs key with
    | some l => (BitVec.ofNat 16 seq - l - 1).toNat
    | none => 0
  if 32768 ≤ gap then ({ q with cnt := bumpCnt q.cnt 6 1 }, false)
  else
    let q := { q with
      seqs := tput none q.seqs key (some (BitVec.ofNat 16 seq))
      cnt := bumpCnt (bumpCnt q.cnt 4 gap) path 1
      paths := if q.state ≠ 2 ∨ 0 < (ts - q.lastTs).toInt then BitVec.ofNat 2 (2 ^ path)
        else if q.lastTs = ts then q.paths ||| BitVec.ofNat 2 (2 ^ path) else q.paths
      lastTs := if q.state ≠ 2 ∨ 0 < (ts - q.lastTs).toInt then ts else q.lastTs
      lastAt := m
      state := 2 }
    (xs.foldl (fun q x => rxPut m x q) q, true)

/-- A source of CLAIM_SELECT that can be selected at tick `n` (R264): its claim and UNIT. -/
def rxClaim (s : State) (q : RxStream) (c : Option (BitVec 16 × Bool × Bool × BitVec 64)) (n : BitVec 64) :
    Option (BitVec 16 × Bool) :=
  match c with
  | some (v, u, ok, t) => if ok ∧ n.toNat ≤ t.toNat + 2 * packetLen s q.ptime then some (v, u) else none
  | none => none

/-- The source selected at a packet boundary (R264), by the order of claims of 07 R233. -/
def rxSelect (s : State) (q : RxStream) (n : BitVec 64) : BitVec 8 :=
  match rxClaim s q q.claimA n, rxClaim s q q.claimB n with
  | none, none => 0xFF
  | some _, none => 0
  | none, some _ => 1
  | some (a, u), some (b, _) => if claimHigher a b then 0 else if claimHigher b a then 1 else if u then 1 else 0

/-- CLAIM_SELECT (R291). -/
def rxSelects (q : RxStream) : Bool := q.flags.getLsbD 0

/-- An open receive stream at tick `n` (R262): the sample that is due enters, from the selected source first; without one
the words are 0 and the sample counts as MISSING. -/
def rxTick (n : BitVec 64) (k : Nat) (s : State) : State :=
  let q := rxAt s k
  if q.state = 0 then s
  else
    let due := q.buf.filter fun x => x.due == n
    let sel := if rxSelects q ∧ (due.any (·.first)) = true then rxSelect s q n else q.source
    let pick := if rxSelects q then
        if sel = 0xFF then none
        else match due.find? fun x => x.src == sel.toNat with
          | some x => some x
          | none => due.head?
      else due.head?
    let s := onRx k (fun q => { q with
      source := sel
      buf := q.buf.filter fun x => decide (n.toNat < x.due.toNat)
      cnt := if pick.isNone then bumpCnt q.cnt 5 1 else q.cnt }) s
    (List.range q.chans).foldl (fun s c => s.onSig fun g => { g with
      latch := tput 0 g.latch (q.firstCh + c) (match pick with
        | some x => x.words.getD c 0
        | none => 0) }) s

/-- What a receive stream gives its rows is 0. -/
def rxSilence (q : RxStream) (s : State) : State :=
  (List.range q.chans).foldl (fun s c => s.onSig fun g => { g with latch := tput 0 g.latch (q.firstCh + c) 0 }) s

/-- STREAM_LOSS (R265): after 8 packet times without an accepted packet the stream is lost, and its rows carry 0. -/
def execStreamLoss (stream : Fin 512) (s : State) : Host.Outcome State Fault Refusal :=
  let k := stream.val
  let q := rxAt s k
  if (q.state = 1 ∨ q.state = 2) ∧ q.lastAt.toNat + 8 * packetLen s q.ptime ≤ s.wave.count.toNat then
    .next (raise 0x0605 (streamObj q.ports k) 0 (rxSilence q (onRx k (fun q => { q with
      state := 3
      paths := 0
      buf := [] }) s)))
  else .next s

/-! ### Transmit (R266 to R268) -/

/-- Sink code of a network transmit channel. -/
def txCode (c : Nat) : Nat := 0x80000000 + c

/-- An open transmit stream at tick `n`: the words presented now join its packet; a packet of P samples is complete, and
its successor begins (R266). The unit that is the claimant in the wave of the first word sends it (R267, 10 R333). -/
def txTick (n : BitVec 64) (k : Nat) (s : State) : State :=
  let t := txAt s k
  if t.open_ ∧ t.from_.toNat ≤ n.toNat then
    let p := packetLen s t.ptime
    let t := if n.toNat % p = 0 then { t with
        ready := if t.acc = [] then none else some (t.accFirst, t.accOn, t.acc)
        readyAddr := t.accAddr
        acc := []
        accAddr := (List.range 4).map fun p => ((portAt s p).twinIp, (portAt s p).twinMac)
        accFirst := n
        accOn := t.always || isClaimant s } else t
    let ws := (List.range t.chans).map fun c => tget 0 s.sig.sinkNow (txCode (t.firstCh + c))
    onTx k (fun _ => { t with acc := t.acc ++ ws }) s
  else s

/-- One word as its stream encodes it, most significant byte first. -/
def encWord (l24 : Bool) (z : W36) : List Byte := if l24 then be 3 (portOut 24 z) else be 2 (portOut 16 z)

/-- CLAIM_VALID of the extension: a plan runs, the engine is in RUN and the unit holds a claim (R268). -/
def extValid (s : State) : Bool := s.plan.run.isSome && presenting s && holdsClaim s

/-- The Zilmir header extension (R268). -/
def zilmirExt (s : State) (id : Nat) : List Byte :=
  be 2 0xBEDE ++ be 2 2 ++ le 1 (id * 16 + 3) ++ be 2 (claimNow s).toNat
    ++ le 1 (b2n s.twin.unit + 2 * b2n (extValid s) + 4 * b2n (isClaimant s)) ++ zeros 4

/-- RTP timestamp of sample `n` (R266). -/
def txTs (t : TxStream) (n : BitVec 64) : BitVec 32 := n.truncate 32 + t.offset

/-- Sequence number of the packet whose first sample is `n` (R266). -/
def txSeq (s : State) (t : TxStream) (n : BitVec 64) : BitVec 16 :=
  BitVec.ofNat 16 (n.toNat / packetLen s t.ptime) + t.ssrc.truncate 16

/-- RTP header, extension and payload of a packet: version 2, no padding, no CSRC, marker 0 (R260, R266, R268). -/
def rtpBytes (s : State) (t : TxStream) (n : BitVec 64) (ws : List W36) : List Byte :=
  le 1 (if t.extId = 0 then 0x80 else 0x90) ++ le 1 t.pt ++ be 2 (txSeq s t n).toNat ++ be 4 (txTs t n).toNat
    ++ be 4 t.ssrc.toNat ++ (if t.extId = 0 then [] else zilmirExt s t.extId) ++ ws.flatMap (encWord t.l24)

/-- Length of the largest frame of a stream (R269). -/
def streamFrame (chans p ext vlan : Nat) (l24 : Bool) : Nat :=
  14 + (if vlan = 0 then 0 else 4) + 20 + 8 + 12 + (if ext = 0 then 0 else 12) + chans * p * (if l24 then 3 else 2) + 4

/-- A port may begin a frame: enabled, link up, neither sending nor paused, and the network is on (R259, R266, R280), and
no FATAL has stopped it (14 R452). -/
def portFree (s : State) (p : Nat) : Bool :=
  let q := portAt s p
  q.flags.getLsbD 0 && q.link && q.sending.isNone && q.pauseEnd.isNone && (s.clk.power == .run || s.clk.power == .hush)
    && !s.flt.fatal

/-- The 32-byte key and the 12-byte salt of a handle (15 R470). -/
def macsecKey (s : State) (h : Nat) : List Byte × List Byte :=
  let k := (tget none s.sm.keys h).getD []
  (sized 32 k, sized 12 (k.drop 32))

/-- A frame, without FCS, is protected with the port's transmit SA, which takes a packet number (R284, R285); none when there
is none to take. MACSEC_REKEY is raised once when the 32-bit number reaches 0xC0000000. -/
def macsecSend (p : Nat) (f : List Byte) (s : State) : State × Option (List Byte) :=
  let q := portAt s p
  if !q.secy then (s, some f)
  else
    let a := tget {} q.sa q.txAn
    if !a.active || (!q.xpn && decide (0xFFFFFFFF ≤ a.pn)) then (countPort p 12 1 s, none)
    else
      let k := macsecKey s a.handle
      let out := some (macsecSeal q.xpn k.1 k.2 q.txSci a.ssci q.txAn a.pn f)
      let s := onPort p (fun q => { q with sa := tmod {} q.sa q.txAn fun a => { a with pn := a.pn + 1 } }) s
      if !q.xpn && !q.rekey && decide (0xC0000000 ≤ a.pn + 1) then
        (raise 0x0007 (objPort p) 0 (onPort p (fun q => { q with rekey := true }) s), out)
      else (s, out)

/-- A queued stream packet begins (R266): it is sent whole, counted for its stream and port. -/
def txBegin (p : Nat) (x : TxPkt) (s : State) : State :=
  let m := macsecSend p (padded x.frame) s
  match m.2 with
  | some f =>
    let f := withFcs f
    let s := countPort p 17 1 (countPort p 15 f.length (countPort p 14 1 m.1))
    onTx x.stream (fun t => { t with
      run := true
      cnt := bumpCnt t.cnt x.path 1
      paths := if t.lastTs = x.ts then t.paths ||| BitVec.ofNat 2 (2 ^ x.path) else BitVec.ofNat 2 (2 ^ x.path)
      lastTs := x.ts }) (onPort p (fun q => { q with
      sent := some x
      wire := f }) s)
  | none => m.1

/-- Queued stream packets begin while the port is free: they go ahead of ring frames (R266). -/
def txDrain (p : Nat) (s : State) : State :=
  if portFree s p then
    let l := (portAt s p).queue
    l.foldl (fun s x => txBegin p x s) (onPort p (fun q => { q with queue := [] }) s)
  else s

/-- MAC address of a port (R259): the factory base plus its number, or what NET_PORT_CONFIG set. -/
def macOf (s : State) (p : Nat) : BitVec 48 := (portAt s p).mac.getD (s.sm.macBase + BitVec.ofNat 48 p)

/-- Destination MAC of a multicast address (R291). -/
def multicastMac (ip : BitVec 32) : BitVec 48 := BitVec.ofNat 48 (0x01005E000000 + ip.toNat % 2 ^ 23)

/-- The frame of a stream packet, without FCS (R266, R291). -/
def pktFrame (t : TxStream) (x : TxPkt) : List Byte :=
  ethFrame x.dstMac x.srcMac t.pcp t.vlan 0x0800 (ipv4 (4 * t.dscp) t.ttl 17 x.srcIp x.dstIp []
    (udp x.srcIp x.dstIp t.srcPort.toNat t.dport.toNat x.rtp))

/-- The copy of a packet for one port: its path, its addresses, the claimant's being those of its first sample, and its frame
(R291, 10 R333, R341, R348). -/
def pktFor (s : State) (t : TxStream) (p : Nat) (x : TxPkt) : TxPkt :=
  let path := pathOf t.ports p
  let own := t.always || t.ownAddr.getLsbD p
  let ip := if path = 0 then t.ipA else t.ipB
  let mac := if path = 0 then t.macA else t.macB
  let x := { x with
    path := path
    srcIp := if own then (portAt s p).ip else (t.readyAddr.getD p (0, 0)).1
    srcMac := if own then macOf s p else (t.readyAddr.getD p (0, 0)).2
    dstIp := ip
    dstMac := if mac = 0 then multicastMac ip else mac }
  { x with frame := pktFrame t x }

/-- STREAM_PACKET_QUEUE (R266): at tick n + P the packet whose first sample is n is queued on each of its stream's ports,
and begins at once where the port is free. -/
def execStreamPacketQueue (stream : Fin 512) (s : State) : Host.Outcome State Fault Refusal :=
  let k := stream.val
  let t := txAt s k
  match t.ready with
  | none => .next s
  | some (n, on, ws) =>
    let s := onTx k (fun t => { t with ready := none }) s
    if on then
      let x : TxPkt := {
        stream := k
        first := n
        ts := txTs t n
        seq := txSeq s t n
        at64 := s.wave.count
        rtp := rtpBytes s t n ws
        len := streamFrame t.chans (packetLen s t.ptime) t.extId t.vlan t.l24 }
      .next ((pathPorts t.ports).foldl (fun s p => txDrain p (onPort p (fun q => { q with
        queue := q.queue ++ [pktFor s t p x] }) s)) s)
    else .next s

/-- A packet is stale one packet time after its queuing (R266). -/
def pktStale (s : State) (x : TxPkt) : Bool :=
  decide (x.at64.toNat + packetLen s (txAt s x.stream).ptime ≤ s.wave.count.toNat)

/-- STREAM_PACKET_STALE (R266): packets of a port that have not begun within one packet time are discarded and counted. -/
def execStreamPacketStale (port : Fin 4) (s : State) : Host.Outcome State Fault Refusal :=
  let p := port.val
  let old := (portAt s p).queue.filter (pktStale s)
  let s1 := onPort p (fun q => { q with queue := q.queue.filter fun x => !pktStale s x }) s
  .next (old.foldl (fun s x => onTx x.stream (fun t => { t with cnt := bumpCnt t.cnt 7 1 }) s) s1)

/-! ### Ticks, steps and closing (R270) -/

/-- Numbers of the streams that a table lists. -/
def openRx (s : State) : List Nat := s.net.rx.map (·.1)

/-- Numbers of the transmit streams that a table lists. -/
def openTx (s : State) : List Nat := s.net.tx.map (·.1)

/-- Every receive stream at tick `n`. -/
def rxTicks (n : BitVec 64) (s : State) : State := (openRx s).foldl (fun s k => rxTick n k s) s

/-- Every transmit stream at tick `n`, whose words the sinks present. -/
def txTicks (n : BitVec 64) (s : State) : State := (openTx s).foldl (fun s k => txTick n k s) s

/-- The first multiple of `p` after `n`. -/
def nextMultiple (n p : Nat) : Nat := (n / p + 1) * p

/-- The sample counter steps: tick `n` carries the new value (R270). Buffered samples are tested again under R262, and
transmit streams start again at the first multiple of P after the step. -/
def streamsStep (n : BitVec 64) (s : State) : State :=
  let s := (openRx s).foldl (fun s k => onRx k (fun q =>
    q.buf.foldl (fun q x => rxPut (n - 1) x q) { q with buf := [] }) s) s
  (openTx s).foldl (fun s k => onTx k (fun t => { t with
    from_ := BitVec.ofNat 64 (nextMultiple n.toNat (packetLen s t.ptime))
    acc := []
    ready := none }) s) s

/-! ### The firmware's frames and group membership (R272) -/

/-- A frame of the firmware, without FCS, waits for transmit ring 0 of a port whose link is up. -/
def fwSend (p kind : Nat) (f : List Byte) (s : State) : State :=
  if (portAt s p).link then onPort p (fun q => { q with fwTx := q.fwTx ++ [{ bytes := f, kind := kind }] }) s else s

/-- The sources that a stream accepts on a path; none for any. -/
def rxSources (q : RxStream) (path : Nat) : List Nat :=
  if rxSelects q then [q.srcA.toNat, q.srcB.toNat]
  else
    let a := (if path = 0 then q.srcA else q.srcB).toNat
    if a = 0 then [] else [a]

/-- An IPv4 address is multicast. -/
def multicast (ip : Nat) : Bool := ip / 2 ^ 28 == 14

/-- The open receive streams on their ports: port, group and sources. -/
def rxGroups (s : State) : List (Nat × Nat × List Nat) :=
  ((openRx s).flatMap fun k =>
    let q := rxAt s k
    if q.state = 0 then []
    else (pathPorts q.ports).map fun p =>
      let path := pathOf q.ports p
      (p, (if path = 0 then q.ipA else q.ipB).toNat, rxSources q path)).filter fun g => multicast g.2.1

/-- IGMPv3 membership of a group on a port: the filter mode, true for EXCLUDE, and its sources. -/
def membership (s : State) (p g : Nat) : Bool × List Nat :=
  let l := (rxGroups s).filter fun x => x.1 == p && x.2.1 == g
  if l.any fun x => x.2.2 == [] then (true, []) else (false, (l.flatMap fun x => x.2.2).eraseDups)

/-- A group record of IGMPv3. -/
def igmpRecord (type g : Nat) (src : List Nat) : List Byte :=
  le 1 type ++ zeros 1 ++ be 2 src.length ++ be 4 g ++ src.flatMap (be 4)

/-- The records that tell a change of membership of a group. -/
def igmpChange (g : Nat) (old new : Bool × List Nat) : List (List Byte) :=
  match old.1, new.1 with
  | false, true => [igmpRecord 4 g []]
  | true, false => [igmpRecord 3 g new.2]
  | true, true => []
  | false, false =>
    let more := new.2.filter fun a => !old.2.contains a
    let less := old.2.filter fun a => !new.2.contains a
    (if more = [] then [] else [igmpRecord 5 g more]) ++ (if less = [] then [] else [igmpRecord 6 g less])

/-- A membership report of IGMPv3 on a port. -/
def igmpReport (p : Nat) (recs : List (List Byte)) (s : State) : State :=
  if recs = [] then s
  else
    let body (sum : Nat) : List Byte := [0x22, 0] ++ be 2 sum ++ zeros 2 ++ be 2 recs.length ++ recs.flatten
    fwSend p 0 (ethFrame (multicastMac 0xE0000016) (macOf s p) 0 0 0x0800
      (ipv4 Config.fwTos.toNat 1 2 (portAt s p).ip 0xE0000016 [0x94, 4, 0, 0] (body (ipSum (body 0))))) s

/-- The firmware tells the change of membership from `old` to `s`. -/
def membersTell (old s : State) : State :=
  (((rxGroups old ++ rxGroups s).map fun g => (g.1, g.2.1)).eraseDups).foldl (fun s g =>
    igmpReport g.1 (igmpChange g.2 (membership old g.1 g.2) (membership s g.1 g.2)) s) s

/-- A change of sample rate closes every stream (R270). -/
def streamsClose (s0 : State) : State :=
  let s := s0
  let s := (openRx s).foldl (fun s k => endCond 0x0605 (streamObj (rxAt s k).ports k) s) s
  let s := s.onNet fun n => { n with
    rx := []
    tx := []
    ports := (List.range 4).foldl (fun t p => tmod {} t p fun q => { q with queue := [] }) n.ports }
  raise 0x0604 0 0 ((membersTell s0 s).onSig fun g => { g with latch := g.latch.filter fun p => codeKind p.1 != 0 })

end Sys2Proof.Machine
end

