-- ==== Sys2Proof/Machine/Ptp.lean ====
section
/-! DEFINITION. What the firmware does with the frames of ring 0 (08 R272, R282): it answers ARP and IGMP queries and runs PTP
as one ordinary clock. The messages are those of the standards that R260 and R272 name (log entry 166). -/

namespace Sys2Proof.Machine

/-! ### Messages -/

/-- Byte `i` of NET_PTP_CONFIG as it was written last: 1 PROFILE, 2 DOMAIN, 3 ROLE, 4 DELAY, 5 PORTS, 6 PRIORITY1, 7 PRIORITY2,
8 LOG_SYNC, 9 LOG_ANNOUNCE, 10 ANNOUNCE_TIMEOUT, 11 LOG_DELAY_REQ, 12 PHY_DELAY_NS (R290). -/
def ptpCfg (s : State) (i : Nat) : Nat := (byteAt s.net.ptp.cfg i).toNat

/-- An interval of 2^l seconds, l a byte in two's complement, in µs. -/
def ptpUs (l : Nat) : Nat :=
  let x := sgn 8 l
  if 0 ≤ x then 1000000 * 2 ^ x.toNat else 1000000 / 2 ^ (-x).toNat

/-- Clock identity: the factory base MAC address as an EUI-64. -/
def clockId (s : State) : Nat := s.sm.macBase.toNat / 2 ^ 24 * 2 ^ 40 + 0xFFFE000000 + s.sm.macBase.toNat % 2 ^ 24

/-- Port identity. -/
def ptpPort (s : State) (p : Nat) : List Byte := be 8 (clockId s) ++ be 2 (p + 1)

/-- A timestamp of `t` ns. -/
def ptpStamp (t : Int) : List Byte := be 6 (t.toNat / 1000000000) ++ be 4 (t.toNat % 1000000000)

/-- The time of a timestamp at an offset, in ns. -/
def stampAt (m : List Byte) (o : Nat) : Int := (fldBe m o 6 * 1000000000 + fldBe m (o + 6) 4 : Nat)

/-- A correction field, in 2^-16 ns. -/
def ptpCorr (m : List Byte) : Int := sgn 64 (fldBe m 8 8)

/-- A message of a type: 0 Sync, 1 Delay_Req, 2 Pdelay_Req, 3 Pdelay_Resp, 8 Follow_Up, 9 Delay_Resp, 10
Pdelay_Resp_Follow_Up, 11 Announce. -/
def ptpMessage (s : State) (p type flags : Nat) (corr : Int) (seq log : Nat) (body : List Byte) : List Byte :=
  let control := match type with
    | 0 => 0
    | 1 => 1
    | 8 => 2
    | 9 => 3
    | _ => 5
  le 1 type ++ [0x12] ++ be 2 (34 + body.length) ++ le 1 (ptpCfg s 2) ++ zeros 1 ++ be 2 flags ++ be 8 (unsgn 64 corr)
    ++ zeros 4 ++ ptpPort s p ++ be 2 seq ++ le 1 control ++ le 1 log ++ body

/-- A message goes out on a port, over UDP and IPv4: peer delay to its own group, event messages on port 319. -/
def ptpSend (p kind type flags : Nat) (corr : Int) (seq log : Nat) (body : List Byte) (s : State) : State :=
  let dst : BitVec 32 := if type = 2 ∨ type = 3 ∨ type = 10 then 0xE000006B else 0xE0000181
  let dport := if type < 4 then 319 else 320
  let src := (portAt s p).ip
  fwSend p kind (ethFrame (multicastMac dst) (macOf s p) 0 0 0x0800 (ipv4 Config.fwTos.toNat 1 17 src dst []
    (udp src dst dport dport (ptpMessage s p type flags corr seq log body)))) s

/-! ### Best master (R282) -/

/-- `a` comes before `b`. -/
def listLt : List Nat → List Nat → Bool
  | a :: t, b :: u => decide (a < b) || (decide (a = b) && listLt t u)
  | [], _ :: _ => true
  | _, [] => false

/-- The data set `a` is better than `b`: of one grandmaster by the steps and the sender, else by the grandmaster. -/
def ptpBetter (a b : List Nat) : Bool :=
  if a.getD 5 0 = b.getD 5 0 then listLt (a.drop 6) (b.drop 6) else listLt (a.take 6) (b.take 6)

/-- The data set of this clock: its class is 248, and 255 where it is slave-only. -/
def ptpOwn (s : State) : List Nat :=
  [ptpCfg s 6, if ptpCfg s 3 = 1 then 248 else 255, 0xFE, 0xFFFF, ptpCfg s 7, clockId s, 0, clockId s, 0]

/-- The port is eligible: PORTS names it and its link is up. -/
def ptpOn (s : State) (p : Nat) : Bool := (ptpCfg s 5).testBit p && (portAt s p).link

/-- The time without Announce messages after which a master is lost, in µs. -/
def ptpTimeout (s : State) : Nat := ptpCfg s 10 * ptpUs (ptpCfg s 9)

/-- The foreign master is qualified and not lost. -/
def ptpHeld (s : State) (a : PtpAnn) : Bool := decide (2 ≤ a.count ∧ s.clk.now < a.at_ + ptpTimeout s)

/-- The best master and its port. -/
def ptpBest (s : State) : Option (Nat × PtpAnn) :=
  (((List.range 5).filter (ptpOn s)).flatMap fun p => ((tget [] s.net.ptp.ann p).filter (ptpHeld s)).map fun a => (p, a)).foldl
    (fun b x => match b with
      | some y => if ptpBetter x.2.rank y.2.rank then some x else b
      | none => some x) none

/-- What a clock knows of its master is dropped. -/
def ptpForget (p : PtpS) : PtpS := { p with
  sync := none
  gap := none
  reqAt := none
  resp := none }

/-- What NET_PTP_STATUS shows of the choice: PORT_STATE, ACTIVE_PORT, GM_ID, STEPS_REMOVED and UTC_OFFSET. Without a master a
master-capable clock becomes the master after the timeout. A slave is calibrated while the media DPLL is Locked. -/
def ptpChoice (s : State) : Nat × Nat × Nat × Nat × BitVec 16 :=
  let own := (6, 0xFF, clockId s, 0, 37#16)
  if ptpCfg s 5 = 0 then (3, 0xFF, 0, 0, 0)
  else
    match ptpBest s with
    | some (p, a) =>
      if ptpCfg s 3 = 1 ∧ ptpBetter (ptpOwn s) a.rank = true then own
      else (if s.clk.dpll = some 2 then 9 else 8, p, a.rank.getD 5 0, a.rank.getD 6 0 + 1, a.utc)
    | none => if ptpCfg s 3 = 1 ∧ s.net.ptp.since + ptpTimeout s ≤ s.clk.now then own else (4, 0xFF, 0, 0, 0)

/-- The choice is made anew; a change is stamped. -/
def ptpEval (s : State) : State :=
  let c := ptpChoice s
  let p := s.net.ptp
  if p.portState = c.1 ∧ p.active = c.2.1 ∧ p.gm.toNat = c.2.2.1 ∧ p.steps.toNat = c.2.2.2.1 ∧ p.utc = c.2.2.2.2 then s
  else
    let p := if p.active = c.2.1 ∧ p.gm.toNat = c.2.2.1 then p else ptpForget p
    s.onNet fun n => { n with
      ptp := { p with
        portState := c.1
        active := c.2.1
        gm := BitVec.ofNat 64 c.2.2.1
        steps := BitVec.ofNat 16 c.2.2.2.1
        utc := c.2.2.2.2
        lastChg := sampleNow s } }

/-- An Announce message `m` that port `p` receives: from a clock with the same identity, or of 255 steps or more, it counts for
nothing. A foreign master is qualified by two messages within 4 intervals. -/
def ptpAnnounce (p : Nat) (m : List Byte) (s : State) : State :=
  let steps := fldBe m 61 2
  let rank := [fldBe m 47 1, fldBe m 48 1, fldBe m 49 1, fldBe m 50 2, fldBe m 52 1, fldBe m 53 8, steps, fldBe m 20 8, fldBe m 28 2]
  if 255 ≤ steps ∨ fldBe m 53 8 = clockId s then s
  else
    let l := tget [] s.net.ptp.ann p
    let old := l.find? fun a => a.rank.drop 7 == rank.drop 7
    let again := match old with
      | some a => decide (s.clk.now ≤ a.at_ + 4 * ptpUs (ptpCfg s 9))
      | none => false
    let a : PtpAnn := {
      rank := rank
      utc := BitVec.ofNat 16 (fldBe m 44 2)
      at_ := s.clk.now
      count := if again then 2 else 1 }
    let l := l.filter fun a => a.rank.drop 7 != rank.drop 7 && decide (s.clk.now < a.at_ + ptpTimeout s + 4 * ptpUs (ptpCfg s 9))
    ptpEval (s.onNet fun n => { n with ptp := { n.ptp with ann := tput [] n.ptp.ann p (l ++ [a]) } })

/-! ### Offset and delay (R282, R290) -/

/-- A change of the clock's data. -/
def onPtp (f : PtpS → PtpS) (s : State) : State := s.onNet fun n => { n with ptp := f n.ptp }

/-- t2 - t1 of a Sync message is known, in 2^-16 ns, and with it the offset. -/
def ptpGap (g : Int) (s : State) : State := onPtp (fun p => { p with
  sync := none
  gap := some g
  offset := g - p.delay }) s

/-- The mean path delay is twice `d` / 2, in 2^-16 ns. -/
def ptpDelay (d : Int) (s : State) : State := onPtp (fun p => { p with
  delay := d / 2
  reqAt := none
  resp := none
  offset := match p.gap with
    | some g => g - d / 2
    | none => p.offset }) s

/-- The message comes from the master on its port. -/
def ptpMaster (s : State) (p : Nat) (m : List Byte) : Bool :=
  s.net.ptp.active == p && match ptpBest s with
    | some (_, a) => a.rank.drop 7 == [fldBe m 20 8, fldBe m 28 2]
    | none => false

/-- The message answers this port's request of a sequence number. -/
def ptpMine (s : State) (p : Nat) (m : List Byte) : Bool :=
  (m.drop 44).take 10 == ptpPort s p && fldBe m 30 2 == s.net.ptp.seqs.2.2.toNat

/-- A message `m` that port `p` receives at `t` ns (IEEE 1588-2019, one-step and two-step, end-to-end and peer-to-peer). -/
def ptpTake (p : Nat) (m : List Byte) (t : Int) (s : State) : State :=
  let q := s.net.ptp
  let two := (byteAt m 6).getLsbD 1
  let seq := fldBe m 30 2
  match fldBe m 0 1 with
  | 0 => if ptpMaster s p m then
        if two then onPtp (fun q => { q with sync := some (seq, 65536 * t, ptpCorr m) }) s
        else ptpGap (65536 * (t - stampAt m 34) - ptpCorr m) s
      else s
  | 1 => if q.portState = 6 ∧ ptpCfg s 4 = 0 then
        ptpSend p 0 9 0 (ptpCorr m) seq (ptpCfg s 11) (ptpStamp t ++ (m.drop 20).take 10) s
      else s
  | 2 => if ptpCfg s 4 = 1 then
        ptpSend p 4 3 0x0200 (ptpCorr m) seq 0x7F (ptpStamp t ++ (m.drop 20).take 10) s
      else s
  | 3 => if ptpMine s p m then
        if two then onPtp (fun q => { q with resp := some (65536 * stampAt m 34 - ptpCorr m, 65536 * t) }) s
        else match q.reqAt with
          | some t1 => ptpDelay (65536 * t - t1 - ptpCorr m) s
          | none => s
      else s
  | 8 => match q.sync with
    | some (k, t2, c) => if k = seq ∧ ptpMaster s p m = true then ptpGap (t2 - 65536 * stampAt m 34 - c - ptpCorr m) s else s
    | none => s
  | 9 => if ptpMine s p m && ptpMaster s p m then
        match q.gap, q.reqAt with
        | some g, some t3 => ptpDelay (g + (65536 * stampAt m 34 - t3 - ptpCorr m)) s
        | _, _ => s
      else s
  | 10 => if ptpMine s p m then
        match q.reqAt, q.resp with
        | some t1, some (t2, t4) => ptpDelay (t4 - t1 - (65536 * stampAt m 34 + ptpCorr m - t2)) s
        | _, _ => s
      else s
  | 11 => ptpAnnounce p m s
  | _ => s

/-- PHY_DELAY_NS on MGT (R282). -/
def phyNs (s : State) (p : Nat) : Nat := if p = 4 then fld s.net.ptp.cfg 12 2 else 0

/-- A frame of the firmware has gone out on port `p` at `t` ns: a Follow_Up, or the time of a request. -/
def ptpSent (p : Nat) (f : FwFrame) (t : Int) (s : State) : State :=
  let m := f.bytes.drop 42
  let t := t + phyNs s p
  match f.kind with
  | 1 => ptpSend p 0 8 0 0 (fldBe m 30 2) (ptpCfg s 8) (ptpStamp t) s
  | 2 => onPtp (fun q => { q with reqAt := some (65536 * t) }) s
  | 3 => onPtp (fun q => { q with reqAt := some (65536 * t) }) s
  | 4 => ptpSend p 0 10 0 0 (fldBe m 30 2) 0x7F (ptpStamp t ++ (m.drop 44).take 10) s
  | _ => s

/-- A master announces itself on its eligible ports. -/
def ptpTellAnnounce (s : State) : State :=
  let seq := s.net.ptp.seqs.1 + 1
  let s := onPtp (fun p => { p with
    due := (s.clk.now + ptpUs (ptpCfg s 9), p.due.2)
    seqs := (seq, p.seqs.2) }) s
  let o := ptpOwn s
  let body := zeros 10 ++ be 2 37 ++ zeros 1 ++ be 1 (o.getD 0 0) ++ be 1 (o.getD 1 0) ++ be 1 (o.getD 2 0) ++ be 2 (o.getD 3 0)
    ++ be 1 (o.getD 4 0) ++ be 8 (clockId s) ++ be 2 0 ++ [0xA0]
  ((List.range 5).filter (ptpOn s)).foldl (fun s p => ptpSend p 0 11 0x0008 0 seq.toNat (ptpCfg s 9) body s) s

/-- A master sends two-step Sync messages on its eligible ports. -/
def ptpTellSync (s : State) : State :=
  let seq := s.net.ptp.seqs.2.1 + 1
  let s := onPtp (fun p => { p with
    due := (p.due.1, s.clk.now + ptpUs (ptpCfg s 8), p.due.2.2)
    seqs := (p.seqs.1, seq, p.seqs.2.2) }) s
  ((List.range 5).filter (ptpOn s)).foldl (fun s p => ptpSend p 1 0 0x0208 0 seq.toNat (ptpCfg s 8) (zeros 10) s) s

/-- A slave asks for the delay on its active port, end-to-end or peer-to-peer. -/
def ptpAsk (s : State) : State :=
  let seq := s.net.ptp.seqs.2.2 + 1
  let peer := ptpCfg s 4 == 1
  let s := onPtp (fun p => { p with
    due := (p.due.1, p.due.2.1, s.clk.now + ptpUs (ptpCfg s 11))
    seqs := (p.seqs.1, p.seqs.2.1, seq)
    reqAt := none
    resp := none }) s
  if peer then ptpSend s.net.ptp.active 3 2 0 0 seq.toNat 0x7F (zeros 20) s
  else ptpSend s.net.ptp.active 2 1 0 0 seq.toNat 0x7F (zeros 10) s

/-- The firmware's clock of PTP, once a microsecond, while it is up and some port is eligible. -/
def ptpTimer (s : State) : State :=
  if s.host.fwState = 5 ∧ ptpCfg s 5 ≠ 0 then
    let s := ptpEval s
    if s.net.ptp.portState = 6 then
      let s := if s.net.ptp.due.1 ≤ s.clk.now then ptpTellAnnounce s else s
      if s.net.ptp.due.2.1 ≤ s.clk.now then ptpTellSync s else s
    else if s.net.ptp.active < 5 ∧ (s.net.ptp.gap.isSome || ptpCfg s 4 == 1) = true ∧ s.net.ptp.due.2.2 ≤ s.clk.now then ptpAsk s
    else s
  else s

/-! ### Frames of ring 0 (R272) -/

/-- An ARP request for the port's own address, or for the claimant address of a claimant (10 R333), is answered. -/
def arpTake (p : Nat) (f : List Byte) (s : State) : State :=
  let q := portAt s p
  let o := ethOff f + 2
  let target := fldBe f (o + 24) 4
  let reply (mac : BitVec 48) (ip : BitVec 32) : State :=
    fwSend p 0 (arpFrame (BitVec.ofNat 48 (fldBe f (o + 8) 6)) mac ip (BitVec.ofNat 48 (fldBe f (o + 8) 6))
      (BitVec.ofNat 32 (fldBe f (o + 14) 4)) 2) s
  if fldBe f (o + 6) 2 ≠ 1 ∨ target = 0 then s
  else if target = q.ip.toNat then reply (macOf s p) q.ip
  else if target = q.twinIp.toNat ∧ isClaimant s = true then reply q.twinMac q.twinIp
  else s

/-- The state of a group that a query asks for, of all its sources or of some. -/
def igmpState (s : State) (p g : Nat) (asked : List Nat) : List (List Byte) :=
  let m := membership s p g
  if asked = [] then [igmpRecord (if m.1 then 2 else 1) g m.2]
  else
    let l := if m.1 then asked else asked.filter m.2.contains
    if l = [] then [] else [igmpRecord 1 g l]

/-- A query of IGMPv3 is answered with the membership it asks for. -/
def igmpTake (p : Nat) (f : List Byte) (s : State) : State :=
  match ipParts f with
  | some (_, _, _, o) =>
    if (byteAt f o).toNat ≠ 0x11 then s
    else
      let g := fldBe f (o + 4) 4
      let groups := ((rxGroups s).filter fun x => x.1 == p).map (·.2.1) |>.eraseDups
      let asked := (List.range (fldBe f (o + 10) 2)).map fun i => fldBe f (o + 12 + 4 * i) 4
      igmpReport p ((groups.filter fun x => g == 0 || x == g).flatMap fun x => igmpState s p x asked) s
  | none => s

/-- The firmware takes a frame from receive ring 0 of port `p`, with its timestamp in ns. -/
def fwTake (p : Nat) (f : List Byte) (t : Int) (s : State) : State :=
  if s.host.fwState ≠ 5 then s
  else if ethType f = 0x0806 then arpTake p f s
  else
    match udpParts f with
    | some (_, _, port, o, len) =>
      let m := (f.drop o).take len
      if (port = 319 ∨ port = 320) ∧ (byteAt m 1).toNat % 16 = 2 ∧ 34 ≤ len ∧ fldBe m 4 1 = ptpCfg s 2 ∧ ptpOn s p = true
          ∧ fldBe m 20 8 ≠ clockId s then
        ptpTake p m (t - phyNs s p) s
      else s
    | none => igmpTake p f s

end Sys2Proof.Machine
end

