-- ==== Sys2Proof/Machine/Rings.lean ====
section
/-! DEFINITION. Descriptor rings, ports, PAUSE and wake frames (08 R259, R271 to R281, R284, R286, R288, R289). -/

namespace Sys2Proof.Machine

/-! ### Rings (R271 to R274) -/

/-- A ring. -/
def ringAt (s : State) (g : Nat) : RingS := tget {} s.net.rings g

/-- A change of one ring. -/
def onRing (g : Nat) (f : RingS → RingS) (s : State) : State := s.onNet fun n => { n with rings := tmod {} n.rings g f }

/-- Receive ring `r` of port `p`. -/
def rxRing (p r : Nat) : Nat := if p < 4 then 32 * p + r else 128 + r

/-- Transmit ring `r` of port `p`. -/
def txRing (p r : Nat) : Nat := if p < 4 then 32 * p + 16 + r else 132 + r

/-- The port of a ring. -/
def ringPort (g : Nat) : Nat := if g < 128 then g / 32 else 4

/-- The ring receives. -/
def ringRx (g : Nat) : Bool := if g < 128 then decide (g % 32 < 16) else decide (g < 132)

/-- The ring's number among the rings of its port and direction. -/
def ringNo (g : Nat) : Nat := if g < 128 then g % 16 else g % 4

/-- OWNER (R271): 1 firmware. -/
def ringOwner (s : State) (g : Nat) : Bool := (ringAt s g).owner.getD (ringNo g == 0)

/-- SIZE in descriptors. -/
def ringSize (r : RingS) : Nat := 2 ^ r.sizeLog.toNat

/-- Descriptors between CONS and PROD. -/
def ringUsed (r : RingS) : Nat := (r.prod - r.cons).toNat

/-- Address of the descriptor with a free-running index. -/
def ringDesc (r : RingS) (i : Nat) : Nat := r.base.toNat + 32 * (i % ringSize r)

/-- Sets a sticky bit of RING_STATUS. -/
def stickRing (g i : Nat) (s : State) : State :=
  onRing g (fun r => { r with sticky := r.sticky ||| BitVec.ofNat 5 (2 ^ i) }) s

/-- A descriptor has been written back: EVENT, and the interrupt of the port's rings (R274, 11 R349). -/
def ringEvent (g : Nat) (s : State) : State :=
  let s := stickRing g 0 s
  if (ringAt s g).irqEn then
    sendMsi (if ringPort g < 4 then (if ringRx g then 38 else 42) + ringPort g else if ringRx g then 46 else 47) s
  else s

/-- A bus error holds the ring until its owner disables it (12 R387). -/
def ringStuck (g a : Nat) (wr : Bool) (s : State) : State :=
  busErr 4 false a wr 0 (onRing g (fun r => { r with stuck := true }) s)

/-- The PROD check of R273. -/
def prodOk (r : RingS) (v : BitVec 16) : Bool :=
  decide ((v - r.prod).toNat ≤ (r.cons + BitVec.ofNat 16 (ringSize r) - r.prod).toNat)

/-- A write of RING_PROD by the owner. -/
def prodWrite (g : Nat) (v : BitVec 16) (s : State) : State :=
  if prodOk (ringAt s g) v then onRing g (fun r => { r with prod := v }) s
  else raise 0x0602 (objRing (ringPort g) g) 0 (stickRing g 4 s)

/-- A write of RING_CTRL by the owner (R273, R274): BASE and SIZE_LOG2 are ignored while ENABLE is 1; reserved values leave
their field; setting ENABLE starts the indices at 0; clearing it ends a bus error. -/
def ctrlWrite (g : Nat) (v : BitVec 32) (s : State) : State :=
  onRing g (fun r =>
    let size := bitsOf v.toNat 23 20
    let tx := bitsOf v.toNat 19 14
    let on := v.getLsbD 31
    let start := on && !r.enable
    { r with
      enable := on
      sizeLog := if !r.enable && decide (3 ≤ size ∧ size ≤ 12) then BitVec.ofNat 4 size else r.sizeLog
      txStart := if !ringRx g && decide (tx ≤ 38) then BitVec.ofNat 6 tx else r.txStart
      irqEn := v.getLsbD 7
      prod := if start then 0 else r.prod
      cons := if start then 0 else r.cons
      stuck := r.stuck && on }) s

/-- A register write to a ring block, from the firmware or the host (R271, R274): the owner alone writes. -/
def ringWrite (fw : Bool) (g off : Nat) (v : BitVec 32) (s : State) : State :=
  if fw != ringOwner s g then stickPort (ringPort g) 3 (stickRing g 3 s)
  else
    match off with
    | 0x00 => onRing g (fun r => if r.enable then r else
        { r with base := (r.base &&& 0xFF00000000) ||| ((v &&& 0xFFFFFFE0).zeroExtend 40) }) s
    | 0x04 => onRing g (fun r => if r.enable then r else
        { r with base := (r.base &&& 0x00FFFFFFFF) ||| ((v &&& 0xFF).zeroExtend 40 <<< 32) }) s
    | 0x08 => ctrlWrite g v s
    | 0x0C => prodWrite g (v.truncate 16) s
    | 0x14 => onRing g (fun r => { r with sticky := r.sticky &&& ~~~ (v.truncate 5) }) s
    | _ => s

/-- A register read of a ring block (R274), with its effect: DROPS is cleared by reading. -/
def ringRead (g off : Nat) (s : State) : State × BitVec 32 :=
  let r := ringAt s g
  match off with
  | 0x00 => (s, r.base.truncate 32)
  | 0x04 => (s, (r.base >>> 32).truncate 32)
  | 0x08 => (s, BitVec.ofNat 32 (b2n r.enable * 2 ^ 31 + b2n (ringOwner s g) * 2 ^ 30 + r.sizeLog.toNat * 2 ^ 20
      + (if ringRx g then 0 else r.txStart.toNat * 2 ^ 14) + b2n r.irqEn * 2 ^ 7))
  | 0x0C => (s, r.prod.zeroExtend 32)
  | 0x10 => (s, r.cons.zeroExtend 32)
  | 0x14 => (s, r.sticky.zeroExtend 32)
  | 0x18 => (onRing g (fun r => { r with drops := 0 }) s, r.drops)
  | _ => (s, 0)

/-- What an owner has placed in its memory before it writes PROD: the firmware reaches SRAM, LPDDR5 and host memory, the
host its own memory (12 R378, R380). -/
def placeMem (fw : Bool) (l : List (Nat × List Byte)) (s : State) : State :=
  l.foldl (fun s p =>
    if inOb p.1 p.2.length || (fw && (inSram p.1 p.2.length || inDdr s p.1 p.2.length)) then dmaWrite p.1 p.2 s
    else s) s

/-- RING_PROD_WRITE (R273): the owner, or the other side, writes PROD after it has placed descriptors and buffers. -/
def execRingProdWrite (ring : Fin 136) (fw : Bool) (prod : BitVec 16) (mem : List (Nat × List Byte)) (s : State) :
    Host.Outcome State Fault Refusal :=
  .next (ringWrite fw ring.val 0x0C (prod.zeroExtend 32) (placeMem fw mem s))

/-- RING_ENABLE (R273): a write of RING_CTRL. -/
def execRingEnable (ring : Fin 136) (fw : Bool) (ctrl : BitVec 32) (s : State) : Host.Outcome State Fault Refusal :=
  .next (ringWrite fw ring.val 0x08 ctrl s)

/-! ### PAUSE (R280, R281) -/

/-- 512 bit times in units of 10 ps, by SPEED. -/
def quantum (speed : Nat) : Nat :=
  match speed with
  | 0 => 512000
  | 1 => 51200
  | 2 => 5120
  | _ => 2048

/-- A pause of some quanta begins now, or replaces the time left; 0 resumes at once. The watchdog keeps its start. -/
def pauseSet (p quanta : Nat) (s : State) : State :=
  let now := s.clk.now
  if quanta = 0 then txDrain p (onPort p (fun q => { q with
    pauseEnd := none
    pausedAt := none }) s)
  else onPort p (fun q => { q with
    pauseEnd := some (now * 100000 + quanta * quantum q.speed.toNat)
    pausedAt := some (q.pausedAt.getD now) }) s

/-- A PAUSE frame is received (R280, R281, R288). -/
def pauseReceive (p quanta : Nat) (s : State) : State :=
  let q := portAt s p
  if q.holdAt.isSome then countPort p 10 1 s
  else
    let s := countPort p 9 1 s
    if q.sending.isSome then onPort p (fun q => { q with pauseWait := some quanta }) s else pauseSet p quanta s

/-- PAUSE_EXPIRE (R280): the pause time has run out. -/
def execPauseExpire (port : Fin 5) (s : State) : Host.Outcome State Fault Refusal :=
  let p := port.val
  match (portAt s p).pauseEnd with
  | some e => .next (if e < (s.clk.now + 1) * 100000 then pauseSet p 0 s else s)
  | none => .next s

/-- PAUSE_WATCHDOG (R281): a port that has stayed paused for WD_US resumes, and its hold-off begins. -/
def execPauseWatchdog (port : Fin 5) (s : State) : Host.Outcome State Fault Refusal :=
  let p := port.val
  let q := portAt s p
  match q.pauseEnd, q.pausedAt with
  | some e, some t =>
    if t + q.wdUs ≤ s.clk.now ∧ s.clk.now * 100000 < e then
      let s := onPort p (fun q => { q with
        pauseEnd := none
        pausedAt := none
        holdAt := some s.clk.now }) s
      .next (txDrain p (raise 0x0603 (objPort p) 0 (stickPort p 7 (countPort p 11 1 s))))
    else .next s
  | _, _ => .next s

/-- PAUSE_HOLDOFF_END (R281). -/
def execPauseHoldoffEnd (port : Fin 5) (s : State) : Host.Outcome State Fault Refusal :=
  let p := port.val
  match (portAt s p).holdAt with
  | some t => .next (if t + (portAt s p).holdMs * 1000 ≤ s.clk.now then onPort p (fun q => { q with holdAt := none }) s else s)
  | none => .next s

/-! ### Frames for the stream engine (R261 to R264) -/

/-- A media frame of the RTP form at an offset: where its extension lies, where its payload lies, and the payload's
length. -/
def rtpParts (f : List Byte) (o len : Nat) : Option Nat × Nat × Nat :=
  let b := (byteAt f o).toNat
  let h := 12 + 4 * (b % 16)
  let x := bitOf b 4
  let e := if x then 4 + 4 * fldBe f (o + h + 2) 2 else 0
  let pad := if bitOf b 5 then (byteAt f (o + len - 1)).toNat else 0
  (if x then some (o + h) else none, o + h + e, len - h - e - pad)

/-- The source that a frame's address names: 0 A, 1 B; under CLAIM_SELECT both addresses are accepted on either path, else
the one of the frame's path (log entry 27). -/
def rxSource (q : RxStream) (path src : Nat) : Option Nat :=
  if rxSelects q then (if src = q.srcA.toNat then some 0 else if src = q.srcB.toNat then some 1 else none)
  else
    let want := (if path = 0 then q.srcA else q.srcB).toNat
    if want = 0 ∨ want = src then some 0 else none

/-- The frame goes to the stream (R261). -/
def rxMatches (p : Nat) (f : List Byte) (mark : Bool) (q : RxStream) : Bool :=
  q.state != 0 && q.ports.getLsbD p && match udpParts f with
    | some (src, dst, port, o, _) =>
      let path := pathOf q.ports p
      dst == (if path = 0 then q.ipA else q.ipB).toNat && port == q.udp.toNat
        && (byteAt f (o + 1)).toNat % 128 == q.pt && (rxSource q path src).isSome
        && (!q.flags.getLsbD 2 || fldBe f (o + 8) 4 == q.ssrc.toNat) && (!q.flags.getLsbD 1 || mark)
    | none => false

/-- A word of a payload, entered under 01 R29. -/
def decWord (l24 : Bool) (f : List Byte) (o : Nat) : W36 :=
  if l24 then portIn 24 (fldBe f o 3) else portIn 16 (fldBe f o 2)

/-- The samples of a payload of `n` samples from timestamp `ts`. -/
def decSamples (q : RxStream) (f : List Byte) (o n src : Nat) (ts : BitVec 32) : List RxSample :=
  let w := if q.l24 then 3 else 2
  (List.range n).map fun i => {
    ts := ts + BitVec.ofNat 32 i
    words := (List.range q.chans).map fun c => decWord q.l24 f (o + (i * q.chans + c) * w)
    first := i == 0
    src := src }

/-- The Zilmir extension at an offset carries the stream's identifier (R268). -/
def extOk (q : RxStream) (f : List Byte) (x : Option Nat) : Bool :=
  match x with
  | some o => fldBe f o 2 == 0xBEDE && fldBe f (o + 2) 2 == 2 && (byteAt f (o + 4)).toNat == q.extId * 16 + 3
  | none => false

/-- A frame of stream `k` on port `p` (R261 to R265). -/
def rxStreamFrame (p k : Nat) (f : List Byte) (past : Bool) (s : State) : State :=
  let q := rxAt s k
  match udpParts f with
  | none => s
  | some (srcIp, _, _, o, len) =>
    let (x, po, pl) := rtpParts f o len
    let n := packetLen s q.ptime
    let path := pathOf q.ports p
    let src := (rxSource q path srcIp).getD 0
    if past || pl != q.chans * n * (if q.l24 then 3 else 2) || (rxSelects q && !extOk q f x) then countPort p 7 1 s
    else
      let ts := BitVec.ofNat 32 (fldBe f (o + 4) 4)
      let xs := decSamples q f po n src ts
      let m := s.wave.count
      let (q', ok) := rxPacket m path src (fldBe f (o + 2) 2) ts xs q
      let s := countPort p 13 1 (onRx k (fun _ => q') s)
      if !ok then s
      else
        let s := if rxLate m q xs then stickPort p 1 s else s
        let s := match x with
          | some e => if rxSelects q then
              let b := (byteAt f (e + 7)).toNat
              let c := some (BitVec.ofNat 16 (fldBe f (e + 5) 2), bitOf b 0, bitOf b 1, m)
              onRx k (fun q => if src = 0 then { q with claimA := c } else { q with claimB := c }) s
            else s
          | none => s
        if q.state = 3 then raise 0x0601 (streamObj q.ports k) 0 (endCond 0x0605 (streamObj q.ports k) s) else s

/-! ### Frames for the rings (R272, R275, R276) -/

/-- What a frame carries to its descriptors: STATUS bits, FRAME_LEN, FILTER and TIMESTAMP. -/
structure RxMeta where
  /-- STATUS bits TS_VALID, MACSEC and TAGGED. -/
  status : Nat
  /-- The frame is longer than MAX_FRAME: OVERSIZE and FCS_UNCHECKED, in the LAST descriptor (R276). -/
  past : Bool
  /-- FRAME_LEN. -/
  len : Nat
  /-- FILTER. -/
  filter : Nat
  /-- TIMESTAMP. -/
  stamp : Nat
deriving DecidableEq, Repr

/-- A frame's bytes fill descriptors in order, at most `n` of them; the last one written carries LAST, with ABANDONED where
bytes remain. -/
def rxFill (p g : Nat) (m : RxMeta) : Nat → Bool → List Byte → State → State
  | 0, _, _, s => s
  | n + 1, first, data, s =>
    let r := ringAt s g
    let a := ringDesc r r.cons.toNat
    if !dmaOk s a 32 then ringStuck g a false s
    else
      let d := dmaRead s a 16
      let buf := fld d 0 8 % 2 ^ 40
      let chunk := data.take (fld d 8 2)
      let rest := data.drop (fld d 8 2)
      if inLib s buf chunk.length then ringStuck g buf true (libRefused s)
      else if !dmaOk s buf chunk.length then ringStuck g buf true s
      else
        let cut := n == 0 && rest != []
        let last := rest == [] || cut
        let st := 1 + 2 * b2n first + 4 * b2n last + 24 * b2n (last && m.past) + m.status + 32 * b2n cut
        let wb := le 2 chunk.length ++ le 2 (if last then m.len else 0) ++ le 2 st ++ le 1 m.filter ++ [0] ++ le 8 m.stamp
        let s := dmaWrite (a + 16) wb (dmaWrite buf chunk s)
        let s := ringEvent g (onRing g (fun r => { r with cons := r.cons + 1 }) s)
        if cut then stickPort p 4 (stickRing g 2 (countPort p 6 1 s))
        else if last then s
        else rxFill p g m n false rest s

/-- A frame goes to receive ring `g` of port `p`; one that finds no free descriptor at its start is dropped. -/
def rxToRing (p g : Nat) (m : RxMeta) (data : List Byte) (s : State) : State :=
  let r := ringAt s g
  if !r.enable || r.stuck || ringUsed r == 0 then
    countPort p 5 1 (onRing g (fun r => { r with drops := satAdd r.drops 1 }) s)
  else rxFill p g m (ringUsed r) true data s

/-- The fixed entries of R272. -/
def fixedEntry (s : State) (p : Nat) (f : List Byte) : Bool :=
  ethType f == 0x0806 || (match ipParts f with
    | some (proto, _, dst, o) => proto == 2
        || (proto == 1 && (byteAt f o).toNat == 8 && dst == (portAt s p).ip.toNat)
        || (proto == 17 && (fldBe f (o + 2) 2 == 319 || fldBe f (o + 2) 2 == 320))
    | none => false)

/-- A filter entry matches a frame; a field of 0 is not compared (log entry 28). -/
def filterHit (e : Filter) (f : List Byte) : Bool :=
  (e.ether == 0 || e.ether.toNat == ethType f)
    && (e.proto == 0 || (match ipParts f with
      | some (proto, _) => proto == e.proto.toNat
      | none => false))
    && (e.dport == 0 || (match ipParts f with
      | some (proto, _, _, o) => (proto == 17 || proto == 6) && fldBe f (o + 2) 2 == e.dport.toNat
      | none => false))
    && (e.dmac == 0 || fldBe f 0 6 == e.dmac.toNat)

/-- The ring of a frame, and FILTER (R272). -/
def classify (s : State) (p : Nat) (f : List Byte) : Nat × Nat :=
  if fixedEntry s p f then (rxRing p 0, 0xFE)
  else
    match (List.range 64).find? fun i => match tget none (portAt s p).filt i with
      | some e => filterHit e f
      | none => false with
    | some i => match tget none (portAt s p).filt i with
      | some e => (e.ring, i)
      | none => (rxRing p 1, 0xFF)
    | none => (rxRing p 1, 0xFF)

/-! ### RX_FRAME -/

/-- MACsec of a received frame, FCS included (R284): what is delivered, with its mark, or none for a frame that is dropped. The
FCS stays as received. -/
def macsecRx (p : Nat) (f : List Byte) (s : State) : State × Option (List Byte × Bool) :=
  let q := portAt s p
  if !q.secy then (s, some (f, false))
  else
    match secTag f with
    | none => if q.check || ethType f == 0x888E then (s, some (f, false)) else (s, none)
    | some (len, sci, an, low, secret) =>
      let fail := (stickPort p 0 (countPort p 12 1 s), none)
      match (List.range 16).find? fun i => tget none q.rxSc (i + 1) == some sci with
      | none => fail
      | some i =>
        let key := 4 * (i + 1) + an
        let a := tget {} q.sa key
        let pn := if q.xpn then xpnRecover a.pn low else low
        let k := macsecKey s a.handle
        match macsecUnseal k.1 (macsecIv q.xpn k.2 sci a.ssci pn) len secret (f.take (f.length - 4)) with
        | some plain =>
          if !a.active || decide (pn + q.replay.toNat < a.pn) then fail
          else (onPort p (fun q => { q with sa := tmod {} q.sa key fun a => { a with pn := max a.pn (pn + 1) } }) s,
            some (plain ++ f.drop (f.length - 4), true))
        | none => fail

/-- Bytes that MACsec adds to a received frame: its SecTAG and ICV (R276). -/
def macsecAdds (s : State) (p : Nat) (f : List Byte) : Nat :=
  if (portAt s p).secy then
    match secTag f with
    | some t => t.1 + 16
    | none => 0
  else 0

/-- A frame that has passed the MAC and MACsec. -/
def rxDeliver (p : Nat) (f : List Byte) (mark : Bool) (stamp : Nat) (s : State) : State :=
  let q := portAt s p
  let past := decide (q.maxFrame < f.length)
  let s := if past then stickPort p 5 (countPort p 4 1 s) else s
  let f := f.take q.maxFrame
  if ethType f = 0x8808 then
    if fldBe f (ethOff f + 2) 2 = 1 ∧ q.flags.getLsbD 1 = true then pauseReceive p (fldBe f (ethOff f + 4) 2) s
    else countPort p 8 1 s
  else
    match if p < 4 then (openRx s).find? fun k => rxMatches p f mark (rxAt s k) else none with
    | some k => rxStreamFrame p k f past s
    | none =>
      let c := classify s p f
      let st := 64 + 128 * b2n mark + 256 * b2n (fldBe f 12 2 == 0x8100)
      let s' := rxToRing p c.1 { status := st, past := past, len := f.length, filter := c.2, stamp := stamp } f s
      let whole := (ringAt s' c.1).cons != (ringAt s c.1).cons && tget 0 (portAt s' p).stats 6 == tget 0 (portAt s p).stats 6
      if c.1 = rxRing p 0 ∧ whole = true then
        fwTake p (f.take (f.length - 4)) (stamp / 2 ^ 30 * 1000000000 + stamp % 2 ^ 30 : Nat) s'
      else s'

/-- RX_FRAME (R261, R272, R276, R280, R284): port `port` receives a frame, FCS included, with its PTP timestamp. -/
def execRxFrame (port : Fin 5) (frame : List Byte) (_ : Computed) (secs : BitVec 34) (ns : BitVec 30) (s : State) :
    Host.Outcome State Fault Refusal :=
  let p := port.val
  let q := portAt s p
  let len := frame.length
  if !(q.flags.getLsbD 0 && q.link && (s.clk.power == .run || s.clk.power == .hush)) then .next s
  else if len < 64 then .next (countPort p 3 1 s)
  else if len ≤ q.maxFrame + macsecAdds s p frame ∧ fcsGood frame = false then .next (countPort p 2 1 s)
  else
    let s := countPort p 1 len (countPort p 0 1 s)
    let r := if p < 4 then macsecRx p frame s else (s, some (frame, false))
    .next (match r.2 with
      | none => r.1
      | some (f, mark) => rxDeliver p f mark (secs.toNat * 2 ^ 30 + ns.toNat) r.1)

/-! ### Transmission from the rings (R277 to R279) -/

/-- The frame at the head of a transmit ring, `n` descriptors at most: its descriptors up to LAST, as the DMA reads them.
None where a descriptor cannot be read. -/
def txDescs (s : State) (r : RingS) : Nat → Nat → Option (List (List Byte))
  | 0, _ => some []
  | n + 1, i =>
    let a := ringDesc r i
    if dmaOk s a 32 then
      let d := dmaRead s a 16
      if (byteAt d 10).getLsbD 0 then some [d] else (txDescs s r n (i + 1)).map (d :: ·)
    else none

/-- The head of the ring is a whole frame, or has more descriptors than a frame may have. -/
def txWhole (l : List (List Byte)) : Bool :=
  decide (32 < l.length) || match l.getLast? with
    | some d => (byteAt d 10).getLsbD 0
    | none => false

/-- A descriptor has LENGTH 0 or a reserved bit (R277, R278). -/
def descBad (d : List Byte) : Bool :=
  fld d 8 2 == 0 || decide (2 ^ 40 ≤ fld d 0 8) || decide (16 ≤ fld d 10 2) || fld d 12 4 != 0

/-- FLAGS of a frame: those of its LAST descriptor (log entry 29). -/
def frameFlags (l : List (List Byte)) : Nat := fld (l.getLastD []) 10 2

/-- Length of a frame with its FCS. -/
def frameLen (l : List (List Byte)) : Nat :=
  (l.foldl (fun n d => n + fld d 8 2) 0) + if bitOf (frameFlags l) 2 then 0 else 4

/-- The refusal of a frame: STATUS bits, 0 for none (R278). -/
def txRefuse (maxFrame : Nat) (l : List (List Byte)) : Nat :=
  if l.any descBad ∨ 32 < l.length then 16 else if maxFrame < frameLen l then 8 else 0

/-- `n` descriptors of a transmit ring are written back, and CONS advances. -/
def txBack (g n status stamp : Nat) (s : State) : State :=
  let r := ringAt s g
  let s := (List.range n).foldl (fun s i =>
    dmaWrite (ringDesc r (r.cons.toNat + i) + 16) (le 2 status ++ zeros 6 ++ le 8 stamp) s) s
  ringEvent g (onRing g (fun r => { r with
    cons := r.cons + BitVec.ofNat 16 n
    inFly := none }) s)

/-- Rings in the order in which a port serves them: ring 0, then the others in turn after the one served last (R266). -/
def txOrder (p turn : Nat) : List Nat :=
  let n := if p < 4 then 15 else 3
  0 :: (List.range n).map fun i => (turn + i) % n + 1

/-- A frame of `raw` bytes as it goes on the wire, FCS included (R278): filled to 60 bytes, protected where MACSEC is set, and
with the FCS of its buffer where NO_FCS is set and nothing is protected. None where no packet number is left. -/
def txWire (p : Nat) (flags : Nat) (raw : List Byte) (s : State) : State × Option (List Byte) :=
  let body := padded (if bitOf flags 2 then raw.take (raw.length - 4) else raw)
  if bitOf flags 3 && decide (p < 4) && (portAt s p).secy then
    let m := macsecSend p body s
    (m.1, m.2.map withFcs)
  else (s, some (if bitOf flags 2 then body ++ raw.drop (raw.length - 4) else withFcs body))

/-- The frame of a ring whose head stands in the transmit buffer starts, or is refused. -/
def txStartRing (p r : Nat) (l : List (List Byte)) (s : State) : State :=
  let g := txRing p r
  let bad := txRefuse (portAt s p).maxFrame l
  if bad ≠ 0 then txBack g l.length (1 + bad) 0 (onRing g (fun r => { r with drops := satAdd r.drops 1 }) s)
  else
    match l.find? fun d => !dmaOk s (fld d 0 8) (fld d 8 2) with
    | some d => ringStuck g (fld d 0 8) false s
    | none =>
      let s := onPort p (fun q => { q with turn := if r = 0 then q.turn else r }) s
      let m := txWire p (frameFlags l) (l.flatMap fun d => dmaRead s (fld d 0 8) (fld d 8 2)) s
      match m.2 with
      | some f =>
        onRing g (fun r => { r with inFly := some (l.length, f.length) })
          (onPort p (fun q => { q with
            sending := some g
            wire := f }) m.1)
      | none => txBack g l.length 1 0 m.1

/-- Descriptors at the head of a transmit ring that can be served; none where one cannot be read. -/
def txHead (s : State) (g : Nat) : Option (List (List Byte)) :=
  txDescs s (ringAt s g) (ringUsed (ringAt s g)) (ringAt s g).cons.toNat

/-- The ring can be served (R279): the whole of its head frame, or TX_START × 256 bytes of it, whichever is less, lie in the
transmit buffer, which holds `filled` bytes of it. -/
def txReady (s : State) (g filled : Nat) : Bool :=
  let r := ringAt s g
  r.enable && !r.stuck && ringUsed r != 0 && match txHead s g with
    | none => true
    | some l => txWhole l && decide (min (l.foldl (fun n d => n + fld d 8 2) 0) (256 * r.txStart.toNat) ≤ filled)

/-- A frame of the firmware starts on ring 0; with a SecY it is protected. -/
def txStartFw (p : Nat) (f : FwFrame) (s : State) : State :=
  let s := onPort p (fun q => { q with fwTx := q.fwTx.drop 1 }) s
  let m := txWire p 8 f.bytes s
  match m.2 with
  | some w => onPort p (fun q => { q with
      sending := some (txRing p 0)
      fwOut := some f
      wire := w }) m.1
  | none => m.1

/-- TX_FRAME_START (R266, R278, R279): `filled` gives for each transmit ring how many bytes of its head frame lie in the transmit
buffer. Stream packets go ahead; ring 0 comes next, and the others share in turn. -/
def execTxFrameStart (port : Fin 5) (filled : List Nat) (s : State) : Host.Outcome State Fault Refusal :=
  let p := port.val
  let s := txDrain p s
  if portFree s p then
    match (portAt s p).fwTx with
    | f :: _ => .next (txStartFw p f s)
    | [] =>
      match (txOrder p (portAt s p).turn).find? fun r => txReady s (txRing p r) (filled.getD r 0) with
      | none => .next s
      | some r =>
        match txHead s (txRing p r) with
        | none => .next (ringStuck (txRing p r) (ringDesc (ringAt s (txRing p r)) (ringAt s (txRing p r)).cons.toNat) false s)
        | some l => .next (txStartRing p r l s)
  else .next s

/-- A frame's sending ends: a PAUSE that arrived runs from here (R280). -/
def sendEnd (p : Nat) (s : State) : State :=
  let w := (portAt s p).pauseWait
  let s := onPort p (fun q => { q with
    sending := none
    fwOut := none
    pauseWait := none }) s
  match w with
  | some n => pauseSet p n s
  | none => txDrain p s

/-- TX_FRAME_COMPLETE (R277, R283): the frame being sent is whole on the wire; TIMESTAMP is written when its TS_REQ is
set. -/
def execTxFrameComplete (port : Fin 5) (secs : BitVec 34) (ns : BitVec 30) (s : State) : Host.Outcome State Fault Refusal :=
  let p := port.val
  match (portAt s p).sending with
  | none => .next s
  | some g =>
    match (portAt s p).fwOut, (ringAt s g).inFly with
    | some f, _ =>
      let s := countPort p 15 (portAt s p).wire.length (countPort p 14 1 s)
      .next (sendEnd p (ptpSent p f (secs.toNat * 1000000000 + ns.toNat : Nat) s))
    | none, none => .next (sendEnd p s)
    | none, some (n, len) =>
      let r := ringAt s g
      let last := dmaRead s (ringDesc r (r.cons.toNat + n - 1)) 16
      let ts := bitOf (fld last 10 2) 1
      let s := countPort p 15 len (countPort p 14 1 s)
      .next (sendEnd p (txBack g n (3 + if ts then 32 else 0) (if ts then secs.toNat * 2 ^ 30 + ns.toNat else 0) s))

/-- TX_UNDERRUN (R279): after `cut.sent` bytes the frame ends with an inverted FCS, and TX_START of its ring rises by one step, to 38 at
most. -/
def execTxUnderrun (cut : TxCut) (s : State) : Host.Outcome State Fault Refusal :=
  let p := cut.port.val
  match (portAt s p).sending with
  | none => .next s
  | some g =>
    let s := onPort p (fun q => { q with wire := badFcs (q.wire.take (min cut.sent (q.wire.length - 4))) }) s
    let back := (ringAt s g).inFly
    if (portAt s p).fwOut.isNone && back.isNone then .next (sendEnd p s)
    else
      let s := stickPort p 6 (stickRing g 1 (countPort p 16 1 s))
      let s := onRing g (fun r => { r with txStart := if r.txStart.toNat < 38 then r.txStart + 1 else r.txStart }) s
      .next (sendEnd p (match back with
        | some (n, _) => txBack g n 5 0 s
        | none => s))

/-! ### Links and status (R288 to R290) -/

/-- The port's DMA is reset: a burst in progress is cut (12 R388). -/
def portDmaReset (p : Nat) (s : State) : State :=
  match (portAt s p).sending with
  | none => s
  | some g =>
    let s := onRing g (fun r => { r with inFly := none }) (onPort p (fun q => { q with
      sending := none
      fwOut := none
      pauseWait := none }) s)
    raise 0x1003 4 0 (s.onMat fun m => { m with mReset := true })

/-- A port's link changes state (R288): LINK_DOWN and its end. -/
def linkSet (p : Nat) (up : Bool) (s : State) : State :=
  let q := portAt s p
  if q.link = up then s
  else
    let s := stickPort p 2 (onPort p (fun q => { q with
      link := up
      linkUps := if up then satAdd q.linkUps 1 else q.linkUps
      lastChg := sampleNow s
      pauseEnd := none
      pausedAt := none }) s)
    if up then endCond 0x0606 (objPort p) s else raise 0x0606 (objPort p) 0 (portDmaReset p s)

/-- LINK_DOWN (R288): a port's link goes down or comes up. A link comes up on an enabled port whose clocks run (13 R411),
outside RETAIN. -/
def execLinkDown (port : Fin 5) (up : Bool) (s : State) : Host.Outcome State Fault Refusal :=
  let p := port.val
  if up then
    if (portAt s p).flags.getLsbD 0 && (s.clk.power == .run || s.clk.power == .hush)
        && (p == 4 || s.clk.lock.getLsbD 3) then
      .next (linkSet p true s)
    else .next s
  else .next (linkSet p false s)

/-- NET_PORT_STATUS (R289). -/
def portStatus (s : State) (p : Nat) : BitVec 32 :=
  let q := portAt s p
  BitVec.ofNat 32 (b2n q.link * 2 ^ 15 + q.speed.toNat * 2 ^ 13 + b2n q.pauseEnd.isSome * 2 ^ 12
    + b2n q.holdAt.isSome * 2 ^ 11 + b2n (s.net.ptp.active == p) * 2 ^ 10 + b2n q.secy * 2 ^ 9 + q.sticky.toNat)

/-! ### Wake (R286, 13 R434) -/

/-- The frame holds the magic packet. -/
def magicIn (s : State) (f : List Byte) : Bool :=
  let m := List.replicate 6 (0xFF : Byte) ++ (List.replicate 16 (be 6 (macOf s 4).toNat)).flatten
  (List.range (f.length + 1)).any fun i => (f.drop i).take 102 == m

/-- The frame matches a pattern: each byte whose mask bit is 1. -/
def patternIn (mask : BitVec 128) (b f : List Byte) : Bool :=
  (List.range 128).all fun i => !mask.getLsbD i || (decide (i < f.length) && byteAt f i == byteAt b i)

/-- WAKE_CAUSE of a frame: 1 magic, 2 + k pattern k. -/
def wakeMatch (s : State) (f : List Byte) : Option Nat :=
  if s.net.magic && magicIn s f then some 1
  else ((List.range 8).find? fun k => match tget none s.net.pats k with
    | some (m, b) => patternIn m b f
    | none => false).map (· + 2)

/-- The wake sequence begins (13 R434). -/
def wakeBegin (src : Nat) (s : State) : State := s.onClk fun c => { c with
  power := .waking
  wakeSrc := src }

/-- WAKE_FRAME (R286, 13 R434, R437): in RETAIN a frame with a good FCS that matches wakes the engine; while the entry is
under way it completes first. -/
def execWakeFrame (frame : List Byte) (s : State) : Host.Outcome State Fault Refusal :=
  if fcsGood frame then
    match wakeMatch s frame with
    | none => .next s
    | some c =>
      let s' := s.onNet fun n => { n with wakeCause := BitVec.ofNat 8 c }
      match s.clk.power, s.clk.powDue with
      | .retain, _ => .next (wakeBegin 1 s')
      | _, some (.retain, _) => .next (s'.onClk fun c => { c with wakeSrc := 1 })
      | _, _ => .next s
  else .next s

/-- WAKE_TIMER (13 R434): the wake timer expires in RETAIN. -/
def execWakeTimer (s : State) : Host.Outcome State Fault Refusal :=
  if s.clk.power = .retain ∧ s.clk.wakeS ≠ 0 ∧ s.clk.retAt + s.clk.wakeS * 1000000 ≤ s.clk.now then
    .next (wakeBegin 2 (s.onNet fun n => { n with wakeCause := 0 }))
  else .next s

end Sys2Proof.Machine
end

