-- ==== Sys2Proof/Machine/NetCmd.lean ====
section
/-! DEFINITION. Command family 0x06 (08 R290 to R292): each command's own checks, its effect, and its meaning. -/

namespace Sys2Proof.Machine

/-! ### Ports -/

/-- Checks of NET_PORT_CONFIG (R290). NET0 to NET3 run at 10 and 25 Gb/s, MGT at 100 and 1,000 Mb/s (R258). -/
def netPortConfigCheck (p : List Byte) (_ : State) : Option Fail :=
  let port := fld p 0 1
  let speed := fld p 4 1
  paramCheck ([(0, decide (port < 5)), (1, decide (fld p 1 1 < 2))] ++ onOp p 1 [
      (2, 1, decide (fld p 2 1 < 8)), (3, 1, byteAt p 3 == 0),
      (4, 1, if port = 4 then decide (speed < 2) else decide (speed = 2 ∨ speed = 3))] ++ [(5, byteAt p 5 == 0)]
    ++ onOp p 1 [(6, 2, decide (1518 ≤ fld p 6 2 ∧ fld p 6 2 ≤ 9600)), (8, 2, decide (50 ≤ fld p 8 2 ∧ fld p 8 2 ≤ 10000)),
      (10, 2, decide (1 ≤ fld p 10 2 ∧ fld p 10 2 ≤ 1000)), (16, 1, decide (8 ≤ fld p 16 1 ∧ fld p 16 1 ≤ 30))]
    ++ [(17, byteAt p 17 == 0), lenIs p 24])

/-- Effect of NET_PORT_CONFIG: a change of speed, FEC or MAC restarts the link; a port that is enabled opens its gate
(13 R416). -/
def netPortConfigEffect (_ : Nat) (p : List Byte) (s : State) : Effect :=
  let port := fld p 0 1
  let q := portAt s port
  let mac := macOf s port
  let resp := (p.take 2) ++ le 2 q.flags.toNat ++ le 1 q.speed.toNat ++ zeros 1 ++ le 2 q.maxFrame ++ le 2 q.wdUs
    ++ le 2 q.holdMs ++ le 4 q.ip.toNat ++ le 1 q.prefix_ ++ zeros 1 ++ le 6 mac.toNat
  if byteAt p 1 = 1 then
    let flags := BitVec.ofNat 3 (fld p 2 1)
    let speed := BitVec.ofNat 2 (fld p 4 1)
    let newMac := BitVec.ofNat 48 (fld p 18 6)
    let restart := speed != q.speed || flags.getLsbD 2 != q.flags.getLsbD 2 || newMac != mac
    let s := if restart || !flags.getLsbD 0 then linkSet port false s else s
    let s := onPort port (fun q => { q with
      flags := flags
      speed := speed
      maxFrame := fld p 6 2
      wdUs := fld p 8 2
      holdMs := fld p 10 2
      ip := BitVec.ofNat 32 (fld p 12 4)
      prefix_ := fld p 16 1
      mac := if newMac = mac then q.mac else some newMac }) s
    (if flags.getLsbD 0 then openGate (8 + port) s else s, some resp)
  else (s, some resp)

/-- NET_PORT_CONFIG (0x0601). -/
def execNetPortConfig (k : Fin 32) (s : State) : Host.Outcome State Fault Refusal :=
  .next (runKiosk 0x0601 k.val fwdNever netPortConfigCheck netPortConfigEffect s)

/-- Checks of a request of PORT and three reserved bytes, with ports below `n`. -/
def portOnlyCheck (n : Nat) (p : List Byte) (_ : State) : Option Fail :=
  paramCheck ([(0, decide (fld p 0 1 < n))] ++ zeroFrom p 1 3 ++ [lenIs p 4])

/-- The highest TX_START of a port's transmit rings. -/
def txStartMax (s : State) (p : Nat) : Nat :=
  (List.range (if p < 4 then 16 else 4)).foldl (fun m r => max m (ringAt s (txRing p r)).txStart.toNat) 0

/-- Effect of NET_PORT_STATUS. -/
def netPortStatusEffect (_ : Nat) (p : List Byte) (s : State) : Effect :=
  let port := fld p 0 1
  let q := portAt s port
  (s, some (le 4 (portStatus s port).toNat ++ le 4 q.linkUps.toNat ++ le 8 q.lastChg.toNat ++ le 1 (txStartMax s port)
    ++ zeros 7))

/-- NET_PORT_STATUS (0x0602). -/
def execNetPortStatus (k : Fin 32) (s : State) : Host.Outcome State Fault Refusal :=
  .next (runKiosk 0x0602 k.val fwdNever (portOnlyCheck 5) netPortStatusEffect s)

/-- Checks of NET_RING_OWNER (R271): ring 0 of a port and direction stays the firmware's; only a disabled ring changes
hands. -/
def netRingOwnerCheck (p : List Byte) (s : State) : Option Fail :=
  let g := fld p 0 1
  orElse (paramCheck ([(0, decide (g < 136)), (1, decide (fld p 1 1 < 2 ∧ (ringNo g = 0 → fld p 1 1 = 1)))]
      ++ zeroFrom p 2 2 ++ [lenIs p 4]))
    (failIf (ringAt s g).enable 0x0006)

/-- Effect of NET_RING_OWNER. -/
def netRingOwnerEffect (_ : Nat) (p : List Byte) (s : State) : Effect :=
  let g := fld p 0 1
  (onRing g (fun r => { r with owner := some (byteAt p 1 == 1) }) s, some (le 1 (b2n (ringOwner s g)) ++ zeros 3))

/-- NET_RING_OWNER (0x0603). -/
def execNetRingOwner (k : Fin 32) (s : State) : Host.Outcome State Fault Refusal :=
  .next (runKiosk 0x0603 k.val fwdNever netRingOwnerCheck netRingOwnerEffect s)

/-- Checks of NET_FILTER_SET (R290): RING is a receive ring of the port. -/
def netFilterSetCheck (p : List Byte) (_ : State) : Option Fail :=
  let g := fld p 16 1
  paramCheck ([(0, decide (fld p 0 1 < 5)), (1, decide (fld p 1 1 < 64)), (2, decide (fld p 2 1 < 3)), (3, byteAt p 3 == 0),
      (7, byteAt p 7 == 0)]
    ++ onOp p 2 [(16, 1, decide (g < 136 ∧ ringPort g = fld p 0 1) && ringRx g)] ++ zeroFrom p 17 3 ++ [lenIs p 20])

/-- Effect of NET_FILTER_SET. -/
def netFilterSetEffect (_ : Nat) (p : List Byte) (s : State) : Effect :=
  let port := fld p 0 1
  let e := tget none (portAt s port).filt (fld p 1 1)
  let x := e.getD {}
  let resp := p.take 2 ++ le 1 (if e.isSome then 1 else 2) ++ zeros 1 ++ le 2 x.ether.toNat ++ le 1 x.proto.toNat ++ zeros 1
    ++ le 2 x.dport.toNat ++ le 6 x.dmac.toNat ++ le 1 x.ring ++ zeros 3
  let put (v : Option Filter) : State := onPort port (fun q => { q with filt := tput none q.filt (fld p 1 1) v }) s
  let n : Filter := {
    ether := BitVec.ofNat 16 (fld p 4 2)
    proto := BitVec.ofNat 8 (fld p 6 1)
    dport := BitVec.ofNat 16 (fld p 8 2)
    dmac := BitVec.ofNat 48 (fld p 10 6)
    ring := fld p 16 1 }
  (if byteAt p 2 = 1 then put (some n) else if byteAt p 2 = 2 then put none else s, some resp)

/-- NET_FILTER_SET (0x0604). -/
def execNetFilterSet (k : Fin 32) (s : State) : Host.Outcome State Fault Refusal :=
  .next (runKiosk 0x0604 k.val fwdNever netFilterSetCheck netFilterSetEffect s)

/-! ### Streams (R269, R291, R292) -/

/-- PORTS names one or two of NET0 to NET3. -/
def portsOk (v : Nat) : Bool := decide (v < 16) && (let n := (pathPorts (BitVec.ofNat 8 v)).length; n == 1 || n == 2)

/-- One path only. -/
def onePath (v : Nat) : Bool := (pathPorts (BitVec.ofNat 8 v)).length == 1

/-- Channels of the network at the running rate; none while no rate is set. -/
def netChans (s : State) : Nat :=
  match s.wave.rate with
  | some r => netChannels r
  | none => 0

/-- Two ranges of channels overlap. -/
def chOverlap (a n b m : Nat) : Bool := decide (a < b + m ∧ b < a + n)

/-- The stream's frame fits its ports, and its channels are within the rate and free (R269). -/
def streamFits (s : State) (ports first chans frame : Nat) (used : List (Nat × Nat)) : Bool :=
  (pathPorts (BitVec.ofNat 8 ports)).all (fun p => decide (frame ≤ (portAt s p).maxFrame))
    && decide (first + chans ≤ netChans s) && !used.any fun u => chOverlap first chans u.1 u.2

/-- Channels of the open receive streams. -/
def rxUsed (s : State) : List (Nat × Nat) := (s.net.rx.filter fun p => p.2.state != 0).map fun p => (p.2.firstCh, p.2.chans)

/-- Channels of the open transmit streams. -/
def txUsed (s : State) : List (Nat × Nat) := (s.net.tx.filter fun p => p.2.open_).map fun p => (p.2.firstCh, p.2.chans)

/-- L of a depth (R262). -/
def depthOf (s : State) (us : Nat) : Nat := (roundEven ((us * hz s : Nat) : Int) 1000000).toNat

/-- Length of the frames that a stream-open request names. -/
def openFrame (p : List Byte) (s : State) (vlan : Nat) : Nat :=
  streamFrame (fld p 4 1) (packetLen s (fld p 5 1)) (fld p 11 1) vlan (byteAt p 3 == 1)

/-- Checks of NET_RX_OPEN (R262, R269, R291). -/
def netRxOpenCheck (p : List Byte) (s : State) : Option Fail :=
  let sel := (byteAt p 22).getLsbD 0
  orElse (paramCheck ([(0, decide (fld p 0 2 < 512)), (2, portsOk (fld p 2 1)), (3, decide (fld p 3 1 < 2)),
      (4, decide (1 ≤ fld p 4 1 ∧ fld p 4 1 ≤ 64)), (5, decide (fld p 5 1 < 4)),
      (8, decide (250 ≤ fld p 8 2 ∧ fld p 8 2 ≤ 4000)
        && (s.wave.rate.isNone || decide (packetLen s (fld p 5 1) ≤ depthOf s (fld p 8 2)))),
      (10, decide (96 ≤ fld p 10 1 ∧ fld p 10 1 ≤ 127)),
      (11, decide (fld p 11 1 ≤ 14 ∧ (sel = true → fld p 11 1 ≠ 0))), (16, !onePath (fld p 2 1) || fld p 16 4 == 0),
      (22, decide (fld p 22 1 < 8)), (23, byteAt p 23 == 0), (24, !sel || fld p 24 4 != 0), (28, !sel || fld p 28 4 != 0),
      (40, decide (fld p 40 2 ≤ 4094))] ++ zeroFrom p 42 14 ++ [lenIs p 56]))
    (orElse (failIf ((rxAt s (fld p 0 2)).state != 0) 0x0006)
      (failIf (!streamFits s (fld p 2 1) (fld p 6 2) (fld p 4 1) (openFrame p s (fld p 40 2)) (rxUsed s)) 0x0023))

/-- The receive stream that a request opens. -/
def rxOf (p : List Byte) (s : State) : RxStream where
  state := 1
  ports := BitVec.ofNat 8 (fld p 2 1)
  l24 := byteAt p 3 == 1
  chans := fld p 4 1
  ptime := fld p 5 1
  firstCh := fld p 6 2
  depth := depthOf s (fld p 8 2)
  pt := fld p 10 1
  extId := fld p 11 1
  ipA := BitVec.ofNat 32 (fld p 12 4)
  ipB := BitVec.ofNat 32 (fld p 16 4)
  udp := BitVec.ofNat 16 (fld p 20 2)
  flags := BitVec.ofNat 3 (fld p 22 1)
  srcA := BitVec.ofNat 32 (fld p 24 4)
  srcB := BitVec.ofNat 32 (fld p 28 4)
  ssrc := BitVec.ofNat 32 (fld p 32 4)
  offset := BitVec.ofNat 32 (fld p 36 4)
  vlan := fld p 40 2
  lastAt := s.wave.count

/-- Effect of NET_RX_OPEN. -/
def netRxOpenEffect (_ : Nat) (p : List Byte) (s : State) : Effect :=
  (membersTell s (onRx (fld p 0 2) (fun _ => rxOf p s) s), some (le 2 (rxOf p s).depth ++ zeros 6 ++ le 8 (sampleNow s).toNat))

/-- NET_RX_OPEN (0x0605). -/
def execNetRxOpen (k : Fin 32) (s : State) : Host.Outcome State Fault Refusal :=
  .next (runKiosk 0x0605 k.val fwdNever netRxOpenCheck netRxOpenEffect s)

/-- Checks of NET_TX_OPEN (R269, R291). -/
def netTxOpenCheck (p : List Byte) (s : State) : Option Fail :=
  let two := !onePath (fld p 2 1)
  orElse (paramCheck ([(0, decide (fld p 0 2 < 512)), (2, portsOk (fld p 2 1)), (3, decide (fld p 3 1 < 2)),
      (4, decide (1 ≤ fld p 4 1 ∧ fld p 4 1 ≤ 64)), (5, decide (fld p 5 1 < 4)),
      (10, decide (96 ≤ fld p 10 1 ∧ fld p 10 1 ≤ 127)), (11, decide (fld p 11 1 ≤ 14)),
      (16, two || fld p 16 4 == 0), (22, decide (fld p 22 1 < 2)), (23, decide (fld p 23 1 < 64)),
      (25, decide (fld p 25 1 < 8))] ++ zeroFrom p 26 2 ++ [(36, decide (fld p 36 2 ≤ 4094))] ++ zeroFrom p 38 6
      ++ [(44, multicast (fld p 12 4) || fld p 44 6 != 0), (50, !two || multicast (fld p 16 4) || fld p 50 6 != 0), lenIs p 56]))
    (orElse (failIf (txAt s (fld p 0 2)).open_ 0x0006)
      (failIf (!streamFits s (fld p 2 1) (fld p 6 2) (fld p 4 1) (openFrame p s (fld p 36 2)) (txUsed s)) 0x0023))

/-- The transmit stream that a request opens; it sends from the first multiple of P on. -/
def txOf (p : List Byte) (s : State) : TxStream where
  open_ := true
  ports := BitVec.ofNat 8 (fld p 2 1)
  l24 := byteAt p 3 == 1
  chans := fld p 4 1
  ptime := fld p 5 1
  firstCh := fld p 6 2
  srcPort := BitVec.ofNat 16 (fld p 8 2)
  pt := fld p 10 1
  extId := fld p 11 1
  ipA := BitVec.ofNat 32 (fld p 12 4)
  ipB := BitVec.ofNat 32 (fld p 16 4)
  dport := BitVec.ofNat 16 (fld p 20 2)
  always := byteAt p 22 == 1
  dscp := fld p 23 1
  ttl := fld p 24 1
  pcp := fld p 25 1
  ssrc := BitVec.ofNat 32 (fld p 28 4)
  offset := BitVec.ofNat 32 (fld p 32 4)
  vlan := fld p 36 2
  macA := BitVec.ofNat 48 (fld p 44 6)
  macB := BitVec.ofNat 48 (fld p 50 6)
  from_ := BitVec.ofNat 64 (nextMultiple (sampleNow s).toNat (packetLen s (fld p 5 1)))
  ownAddr := BitVec.ofNat 8 ((pathPorts (BitVec.ofNat 8 (fld p 2 1))).foldl
    (fun m q => if (portAt s q).twinIp = 0 then m + 2 ^ q else m) 0)

/-- Effect of NET_TX_OPEN. -/
def netTxOpenEffect (_ : Nat) (p : List Byte) (s : State) : Effect :=
  let t := txOf p s
  (onTx (fld p 0 2) (fun _ => t) s, some (le 2 (txSeq s t t.from_).toNat ++ zeros 6 ++ le 8 t.from_.toNat))

/-- NET_TX_OPEN (0x0606). -/
def execNetTxOpen (k : Fin 32) (s : State) : Host.Outcome State Fault Refusal :=
  .next (runKiosk 0x0606 k.val fwdNever netTxOpenCheck netTxOpenEffect s)

/-- Checks of STREAM, DIR and a last byte below `n`. -/
def streamCheck (n : Nat) (p : List Byte) (_ : State) : Option Fail :=
  paramCheck [(0, decide (fld p 0 2 < 512)), (2, decide (fld p 2 1 < 2)), (3, decide (fld p 3 1 < n)), lenIs p 4]

/-- Effect of NET_STREAM_CLOSE: packets that wait on the ports of a closed transmit stream are dropped with it. -/
def netStreamCloseEffect (_ : Nat) (p : List Byte) (s : State) : Effect :=
  let k := fld p 0 2
  let q := rxAt s k
  let s' := if byteAt p 2 = 0 then
      membersTell s (rxSilence q (endCond 0x0605 (streamObj q.ports k) (onRx k (fun _ => {}) s)))
    else
      (List.range 4).foldl (fun s p => onPort p (fun q => { q with queue := q.queue.filter fun x => x.stream != k }) s)
        (onTx k (fun _ => {}) s)
  (s', some (le 8 (sampleNow s).toNat))

/-- NET_STREAM_CLOSE (0x0607). -/
def execNetStreamClose (k : Fin 32) (s : State) : Host.Outcome State Fault Refusal :=
  .next (runKiosk 0x0607 k.val fwdNever (streamCheck 1) netStreamCloseEffect s)

/-- The eight counters of a stream. -/
def cntBytes (t : Tab (BitVec 32)) : List Byte := (List.range 8).flatMap fun i => le 4 (tget 0 t i).toNat

/-- Effect of NET_STREAM_STATUS (R292): with CLEAR the counters are cleared after they are returned. -/
def netStreamStatusEffect (_ : Nat) (p : List Byte) (s : State) : Effect :=
  let k := fld p 0 2
  let clear := byteAt p 3 == 1
  if byteAt p 2 = 0 then
    let q := rxAt s k
    (if clear then onRx k (fun q => { q with cnt := [] }) s else s,
     some (le 1 q.state ++ le 1 q.paths.toNat ++ le 1 q.source.toNat ++ zeros 1 ++ cntBytes q.cnt ++ le 4 q.lastTs.toNat))
  else
    let t := txAt s k
    (if clear then onTx k (fun t => { t with cnt := [] }) s else s,
     some (le 1 (if !t.open_ then 0 else if t.run then 2 else 1) ++ le 1 t.paths.toNat ++ le 1 0xFF ++ zeros 1
       ++ cntBytes t.cnt ++ le 4 t.lastTs.toNat))

/-- NET_STREAM_STATUS (0x0608). -/
def execNetStreamStatus (k : Fin 32) (s : State) : Host.Outcome State Fault Refusal :=
  .next (runKiosk 0x0608 k.val fwdNever (streamCheck 2) netStreamStatusEffect s)

/-- Effect of NET_STATS_READ (R287, R292): every counter of the port at one instant. -/
def netStatsReadEffect (_ : Nat) (p : List Byte) (s : State) : Effect :=
  let q := portAt s (fld p 0 1)
  (s, some (le 8 (sampleNow s).toNat ++ (List.range 18).flatMap fun i => le 8 (tget 0 q.stats i).toNat))

/-- NET_STATS_READ (0x0609). -/
def execNetStatsRead (k : Fin 32) (s : State) : Host.Outcome State Fault Refusal :=
  .next (runKiosk 0x0609 k.val fwdNever (portOnlyCheck 5) netStatsReadEffect s)

/-! ### PTP, wake and MACsec -/

/-- Checks of NET_PTP_CONFIG (R290). -/
def netPtpConfigCheck (p : List Byte) (_ : State) : Option Fail :=
  let sync := sgn 8 (fld p 8 1)
  let dreq := sgn 8 (fld p 11 1)
  paramCheck ([(0, decide (fld p 0 1 < 2))] ++ onOp p 0 [(1, 1, decide (fld p 1 1 < 3)), (2, 1, decide (fld p 2 1 < 128)),
      (3, 1, decide (fld p 3 1 < 2)), (4, 1, decide (fld p 4 1 < 2)), (5, 1, decide (fld p 5 1 < 32)),
      (8, 1, decide (-4 ≤ sync ∧ sync ≤ 1)), (9, 1, decide (fld p 9 1 < 4)), (10, 1, decide (2 ≤ fld p 10 1 ∧ fld p 10 1 ≤ 10)),
      (11, 1, decide (-4 ≤ dreq ∧ dreq ≤ 5))] ++ zeroFrom p 14 2 ++ [lenIs p 16])

/-- Effect of NET_PTP_CONFIG. -/
def netPtpConfigEffect (_ : Nat) (p : List Byte) (s : State) : Effect :=
  (if byteAt p 0 = 1 then s.onNet fun n => { n with ptp := { ptpForget n.ptp with
        cfg := 0 :: (p.drop 1).take 13
        ann := []
        since := s.clk.now
        due := (s.clk.now, s.clk.now, s.clk.now) } } else s,
   some ([byteAt p 0] ++ s.net.ptp.cfg.drop 1 ++ zeros 2))

/-- NET_PTP_CONFIG (0x060A). -/
def execNetPtpConfig (k : Fin 32) (s : State) : Host.Outcome State Fault Refusal :=
  .next (runKiosk 0x060A k.val fwdNever netPtpConfigCheck netPtpConfigEffect s)

/-- Checks of a request without a payload. -/
def emptyReq (p : List Byte) (_ : State) : Option Fail := paramCheck [lenIs p 0]

/-- A measured time, in 2^-16 ns, as a field of 32 bits in ns; the free value `free` where it does not fit. -/
def ptpField (free : Nat) (x : Int) : Nat :=
  let v := roundFree x 65536
  if -(2 ^ 31) ≤ v ∧ v < 2 ^ 31 then unsgn 32 v else free % 2 ^ 32

/-- Effect of NET_PTP_STATUS. -/
def netPtpStatusEffect (_ : Nat) (_ : List Byte) (s : State) : Effect :=
  let free := Config.free s.free
  let q := s.net.ptp
  ({ s with free := s.free + 1 }, some (le 1 q.portState ++ le 1 q.active ++ le 1 (s.clk.dpll.getD 0) ++ zeros 1 ++ le 8 q.gm.toNat ++ le 4 (ptpField free q.offset)
    ++ le 4 (ptpField free q.delay) ++ le 2 q.steps.toNat ++ le 2 q.utc.toNat ++ le 8 q.lastChg.toNat))

/-- NET_PTP_STATUS (0x060B). -/
def execNetPtpStatus (k : Fin 32) (_ _ : Computed) (s : State) : Host.Outcome State Fault Refusal :=
  .next (runKiosk 0x060B k.val fwdNever emptyReq netPtpStatusEffect s)

/-- Checks of NET_WAKE_SET (R290). -/
def netWakeSetCheck (p : List Byte) (_ : State) : Option Fail :=
  paramCheck ([(0, decide (fld p 0 1 < 2))] ++ onOp p 0 [(1, 1, decide (fld p 1 1 < 2)), (2, 1, decide (fld p 2 1 < 8)),
    (3, 1, decide (fld p 3 1 < 2))] ++ [lenIs p 148])

/-- Effect of NET_WAKE_SET: it acts at the next entry to RETAIN. -/
def netWakeSetEffect (_ : Nat) (p : List Byte) (s : State) : Effect :=
  (if byteAt p 0 = 1 then s.onNet fun n => { n with
      magicNext := byteAt p 1 == 1
      wakeNext := tput none n.wakeNext (fld p 2 1) (if byteAt p 3 = 1 then
          some (BitVec.ofNat 128 (fld p 4 16), (p.drop 20).take 128) else none) } else s,
   some (le 1 s.net.wakeCause.toNat ++ zeros 7))

/-- NET_WAKE_SET (0x060C). -/
def execNetWakeSet (k : Fin 32) (s : State) : Host.Outcome State Fault Refusal :=
  .next (runKiosk 0x060C k.val fwdNever netWakeSetCheck netWakeSetEffect s)

/-- Checks of NET_MACSEC_SET (R284, R290): OP 2 and 3 name a receive SC, OP 4 an SC that exists and a key that is loaded. -/
def netMacsecSetCheck (p : List Byte) (s : State) : Option Fail :=
  let op := fld p 1 1
  let sc := fld p 16 1
  let q := portAt s (fld p 0 1)
  orElse (paramCheck ([(0, decide (fld p 0 1 < 4)), (1, decide (op < 5)), (2, decide (fld p 2 1 < 2)),
      (3, decide (fld p 3 1 < 2)),
      (16, decide (sc ≤ 16) && (if op = 2 ∨ op = 3 then sc != 0 else op != 4 || sc == 0 || (tget none q.rxSc sc).isSome)),
      (17, decide (fld p 17 1 < 4))] ++ zeroFrom p 32 4 ++ [lenIs p 36]))
    (failIf (op == 4 && !(decide (0x0100 ≤ fld p 18 2 ∧ fld p 18 2 ≤ 0x013F) && (tget none s.sm.keys (fld p 18 2)).isSome)) 0x0034)

/-- LOWEST_PN of an SA: the lowest number the replay check lets pass; of a transmit SA its next number. -/
def lowestPn (q : PortS) (sc : Nat) (a : MacSa) : Nat := if sc = 0 then a.pn else max 1 (a.pn - q.replay.toNat)

/-- Effect of NET_MACSEC_SET. -/
def netMacsecSetEffect (_ : Nat) (p : List Byte) (s : State) : Effect :=
  let port := fld p 0 1
  let sc := fld p 16 1
  let an := fld p 17 1
  let key := 4 * sc + an
  let q := portAt s port
  let a := tget {} q.sa key
  let sci := if sc = 0 then q.txSci else (tget none q.rxSc sc).getD 0
  let resp := p.take 2 ++ le 1 (b2n q.xpn) ++ le 1 (b2n q.check) ++ le 4 q.replay.toNat ++ le 8 sci.toNat ++ le 1 sc ++ le 1 an
    ++ le 2 a.handle ++ le 8 a.pn ++ le 4 a.ssci.toNat ++ zeros 4 ++ le 8 (lowestPn q sc a)
  let noSa (t : Tab MacSa) : Tab MacSa := (List.range 4).foldl (fun t i => tput {} t (4 * sc + i) {}) t
  let f (q : PortS) : PortS :=
    match fld p 1 1 with
    | 1 => { q with
        secy := true
        xpn := byteAt p 2 == 1
        check := byteAt p 3 == 1
        replay := BitVec.ofNat 32 (fld p 4 4)
        txSci := BitVec.ofNat 64 (fld p 8 8) }
    | 2 => { q with
        rxSc := tput none q.rxSc sc (some (BitVec.ofNat 64 (fld p 8 8)))
        sa := noSa q.sa }
    | 3 => { q with
        rxSc := tput none q.rxSc sc none
        sa := noSa q.sa }
    | 4 => { q with
        sa := tput {} q.sa key {
          active := true
          handle := fld p 18 2
          pn := fld p 20 8
          ssci := BitVec.ofNat 32 (fld p 28 4) }
        txAn := if sc = 0 then an else q.txAn
        rekey := if sc = 0 then false else q.rekey }
    | _ => q
  (onPort port f s, some resp)

/-- NET_MACSEC_SET (0x060D). -/
def execNetMacsecSet (k : Fin 32) (s : State) : Host.Outcome State Fault Refusal :=
  .next (runKiosk 0x060D k.val fwdNever netMacsecSetCheck netMacsecSetEffect s)

end Sys2Proof.Machine
end

