-- ==== Sys2Proof/Machine/PlanOps.lean ====
section
/-! DEFINITION. A plan takes effect, equalisation restarts and settles, and blocks enter or leave a running plan
(05 R155 to R160, R165 to R169, R175, R180). -/

namespace Sys2Proof.Machine

/-! ### The epoch (R175, 02 R64, 11 R372) -/

/-- Channels open on a coefficient, program or meter space close with EPOCH_CHANGED (11 R372). -/
def dpEpoch (d : DpS) : DpS :=
  if d.open_ && (d.space == 2 || d.space == 3 || d.space == 7) then
    { d with
      open_ := false
      status := 0x44
      burst := []
      burstLen := 0
      burstNext := none }
  else d

/-- A new epoch: entries, schedules and words of the old one are discarded (02 R64). Kiosks that wait for a commit as soon as
possible are answered with EPOCH_MISMATCH, which counts as a rejection: 02 R73 names no status for that case (DESIGN CHOICE,
log entry 168). -/
def newEpoch (s : State) : State :=
  let waits := s.xp.scheds.filterMap (·.asap)
  let s := s.onPlan fun p => { p with epoch := nextEpoch p.epoch }
  let s := s.onXp fun x => { x with
    queue := []
    direct := []
    undo := []
    scheds := [] }
  let s := s.onHost fun h => { h with dp := (List.range 4).foldl (fun t c => tmod {} t c dpEpoch) h.dp }
  waits.foldl (fun s k => answerFail k { status := 0x0005 } s) s

/-! ### Equalisation (R156 to R160) -/

/-- A key of the delay line of a row or of a sink. -/
def eqLine (k : Nat) : Bool := codeKind k == 5 || codeKind k == 8 || codeKind k == 9 || codeKind k == 10

/-- The latency table with every path at a value, and none pending. -/
def latTable (i : Image) (f : PathRec → Nat) : Tab LatE :=
  (List.range i.paths.length).foldl (fun t n =>
    match i.paths[n]? with
    | some p => tput {} t n { now := f p }
    | none => t) []

/-- The table with `next` as the published next value wherever it differs from the present one. -/
def latPublish (i : Image) (next : PathRec → Nat) (t : Tab LatE) : Tab LatE :=
  (List.range i.paths.length).foldl (fun t n =>
    match i.paths[n]? with
    | some p => tmod {} t n fun e => { e with next := if e.now = next p then 0 else next p }
    | none => t) t

/-- Entries with a pending change. -/
def latPending (t : Tab LatE) : Nat := (t.filter fun p => p.2.next != 0).length

/-- Declared paths whose entry differs between two tables. -/
def latChanged (i : Image) (a b : Tab LatE) : Nat :=
  ((List.range i.paths.length).filter fun n => tget {} a n != tget {} b n).length

/-- DATA of LATENCY_CHANGE (R160). -/
def latData (count : Nat) (wave : BitVec 64) : BitVec 64 :=
  BitVec.ofNat 64 (count % 2 ^ 32) ||| (wave <<< 32)

/-- The table becomes `t`; a wave in which published entries change logs one LATENCY_CHANGE with their effect wave `w`
(R160). -/
def latSet (w : BitVec 64) (t : Tab LatE) (s : State) : State :=
  match s.plan.run with
  | none => s
  | some i =>
    let n := latChanged i s.plan.lat t
    if n = 0 then s else raise 0x0004 0 (latData n w) (s.onPlan fun p => { p with lat := t })

/-- Equalisation restarts at wave `r` (R156): row and sink delays cleared and of length 0, the natural depths published, and
LATENCY_CHANGE logged. Without a plan nothing happens (R157). In equalisation bypass the delays stay at length 0 until it is
turned off, which is the restart that settles (log entry 145). -/
def restartEq (r : BitVec 64) (s : State) : State :=
  match s.plan.run with
  | none => s
  | some i =>
    let n := latChanged i s.plan.lat (latTable i (pathDepth i))
    let s := s.onPlan fun p => { p with
      restart := if p.bypass then none else some r
      eqOn := false
      lat := latTable i (pathDepth i) }
    let s := s.onSig fun g => { g with lines := g.lines.filter fun l => !eqLine l.1 }
    raise 0x0004 0 (latData n r) (s.onWave fun w => { w with settled := false })

/-- EQ_PUBLISH_H (R156): at wave r + 64 the table publishes H for every path whose D differs. -/
def execEqPublishH (s : State) : Host.Outcome State Fault Refusal :=
  match s.plan.restart, s.plan.run with
  | some r, some i =>
    if s.wave.live = true ∧ r.toNat + 64 ≤ s.wave.num.toNat ∧ (s.plan.bypassDue.any (·.1)) = false then
      .next (latSet (r + 66) (latPublish i (classLatency i) s.plan.lat) s)
    else .next s
  | _, _ => .next s

/-- EQ_SETTLE (R156, R160): at wave r + 66 every delay takes its full length, SETTLED becomes 1 and is logged. -/
def execEqSettle (s : State) : Host.Outcome State Fault Refusal :=
  match s.plan.restart, s.plan.run with
  | some r, some i =>
    if s.wave.live = true ∧ r.toNat + 66 ≤ s.wave.num.toNat then
      .next (raise 0x0003 0 0 ((s.onPlan fun p => { p with
        restart := none
        eqOn := true
        lat := latTable i (classLatency i) }).onWave fun w => { w with settled := true }))
    else .next s
  | _, _ => .next s

/-- An accepted PLAN_EQ_BYPASS acts (R159): on, every row and sink delay has length 0 and SETTLED reads 0; off, a
restart. -/
def bypassApply (on : Bool) (n : BitVec 64) (s : State) : State :=
  let was := s.plan.bypass
  let s := s.onPlan fun p => { p with bypass := on }
  if on then
    match s.plan.run with
    | none => s
    | some i => (s.onPlan fun p => { p with
        restart := none
        eqOn := false
        lat := latTable i (pathDepth i) }).onWave fun w => { w with settled := false }
  else if was then restartEq n s else s

/-- The bypass commands that are due at the launch of wave `n`, oldest first. -/
def bypassLaunch (n : BitVec 64) (s : State) : State :=
  let due := s.plan.bypassDue.filter fun b => decide (b.2.toNat ≤ n.toNat)
  due.foldl (fun s b => bypassApply b.1 n s)
    (s.onPlan fun p => { p with bypassDue := p.bypassDue.filter fun b => !decide (b.2.toNat ≤ n.toNat) })

/-- In stated latency mode a swap changes the depths of its paths (R168). They are published two waves before the first wave
in which it can come, so at least 2 waves before they take effect (R160); a restart's own publication goes first. -/
def swapPublish (n : BitVec 64) (s : State) : State :=
  match s.plan.swap with
  | some q =>
    let settling := match s.plan.restart with
      | some r => decide (r.toNat + 64 ≤ n.toNat)
      | none => false
    if !s.plan.eqOn && !settling && latPending s.plan.lat == 0 && decide (q.p.toNat + q.pre ≤ n.toNat + 1) then
      latSet (if (q.p.toNat + q.pre + 1) ≤ n.toNat + 2 then n + 2 else q.p + BitVec.ofNat 64 (q.pre + 1))
        (latPublish q.img (pathDepth q.img) s.plan.lat) s
    else s
  | none => s

/-! ### A plan takes effect (R175) -/

/-- The Lane context that a block load gives: program, coefficients, sections, chain table and LCTL; everything else 0
(R518, 03 R91). -/
def loadCtx (i : Image) (b : BlockRec) : LaneCtx :=
  let c : LaneCtx := {
    p := tputs 0 [] ((List.range b.progLen).map fun k => (k, (progOf i b).getD k 0))
    lctl := b.lctl }
  (i.coefs.filter fun r => r.block == b.id).foldl (fun c r =>
    (List.range r.items.length).foldl (fun c k =>
      applyOut false c { kind := r.kind, addr := if r.kind = 1 then 9 * r.start + k else r.start + k,
                         val := r.items.getD k 0, set := 0 }) c) c

/-- A Lane after its block load. -/
def loadLane (i : Image) (b : BlockRec) (st : Nat) : LaneS := { cmt := loadCtx i b, cur := loadCtx i b, st := st }

/-- The Lanes of a plan, and the parameter words of its delay blocks. -/
def loadLanes (i : Image) : Tab LaneS :=
  i.blocks.foldl (fun t b =>
    let t := tput {} t (0x4000 + b.id) (loadLane i b 0)
    if b.duplex && b.type != 6 then tput {} t (0x5000 + b.id) (loadLane i b 0) else t) []

/-- The set delays of a plan (R164). -/
def loadDelays (i : Image) : Tab Nat :=
  (delayChans i).foldl (fun t c => tput 0 t (c.1 * 64 + c.2.1) c.2.2) []

/-- The base words of a plan: those of NODES, and 0 everywhere else (R151). -/
def loadNodes (i : Image) : Tab (BitVec 32) :=
  i.nodes.foldl (fun t r =>
    (List.range r.words.length).foldl (fun t k => tput 0 t (r.start + k) (r.words.getD k 0)) t) []

/-- The overrides of an OVERLAYS section. -/
def loadOvr (i : Image) : Tab (Option (BitVec 32)) :=
  (i.ovls.filter fun o => o.idx != 0x7FFFFF).foldl (fun t o => tput none t (o.level * 2 ^ 23 + o.idx) (some o.word)) []

/-- The PRI bindings of an OVERLAYS section (R175). -/
def loadBinds (i : Image) : Tab (Option Bind) :=
  (i.ovls.filter fun o => o.idx == 0x7FFFFF).foldl (fun t o =>
    tput none t (o.word.toNat % 8) (some { level := o.level, brokenActs := o.word.getLsbD 3 })) []

/-- The crosspoint under a new plan at wave `t` (R175; 02 R43, R58, R81): base words from the image; with OVERLAYS, the
whole override pool and every binding replaced, and transitions at nodes whose override in force changes. The whole table of
the Alley buses is cleared, LAST_LOSER with the counters: 02 R81 speaks of the counters only (DESIGN CHOICE, log entry
142). -/
def loadXp (i : Image) (t : BitVec 64) (x : XpS) : XpS :=
  let y := { x with
    base := loadNodes i
    err := []
    sat := []
    alley := [] }
  if i.hasOvl then
    let z := { y with
      ovr := loadOvr i
      bind := loadBinds i
      bindNext := []
      pri := (List.range 8).foldl (fun q k => tmod {} q k fun p => { p with follows := some t }) y.pri }
    let nodes := ((ovrNodes x) ++ (ovrNodes z)).eraseDups.filter fun n =>
      topOverride x x.active n 16 != topOverride z z.active n 16
    startTrans t nodes x z
  else y

/-- Latency of the first result that reaches a sink of a new plan (R175). -/
def sinkFirst (i : Image) (full : Bool) (feed : Nat) : Nat :=
  if alleyFeed i feed then 3
  else if full then i.h
  else if viaBus i feed then
    let ds := ((fedRows i).filter fun r => !imgAlleyRow i r).map (rowDepth i)
    3 + ds.foldl min (ds.foldl max 0) + (prodDepth i feed - busDepth i)
  else 1 + prodDepth i feed

/-- The words of players: those of the old plan's message do not reach the new plan (R173). -/
def noPlayers (t : Tab W36) : Tab W36 := t.filter fun p => codeKind p.1 != 2

/-- The signal words when a plan takes effect in wave `t`: everything between the ports starts at 0, and a sink presents 0
from tick t + 1 until the tick t + latency of its path (R175). -/
def loadSig (i : Image) (full : Bool) (t : BitVec 64) (works : List Nat) (g : SigS) : SigS :=
  { g with
    rowCur := []
    rowPrev := []
    srcCur := noPlayers g.srcCur
    latch := noPlayers g.latch
    outNew := []
    outCur := []
    lines := []
    sumPart := works.foldl (fun m w => tput {} m w { wave := t - 1 }) []
    sumNew := []
    quiet := i.sinks.foldl (fun m w => tput 0 m w.cons (sinkFirst i full w.prod - 1)) [] }

/-- Twin operation when a plan takes effect (10 R314, R338): a run of plans starts in ALONE; a unit that joins starts
again at CONFIG. -/
def twinRun (first : Bool) (t : BitVec 64) (s : State) : State :=
  s.onTwin fun w =>
    if !w.pair then w
    else if 2 ≤ w.state ∧ w.state ≤ 5 then { w with
      state := 2
      stateAt := t }
    else if first then { w with
      state := 1
      stateAt := t
      active := false
      invalid := false
      stay := false
      joinFrom := some s.clk.now }
    else w

/-- The plan `i` takes effect in wave `t` (R156, R157, R175); `rate` says that the load changed the rate. -/
def takeEffect (i0 : Image) (rate : Bool) (t : BitVec 64) (s : State) : State :=
  let i := { i0 with a := some (inputDepth i0) }
  let hNew := match s.plan.run with
    | some o => o.h != i.h
    | none => false
  let restart := !s.plan.loaded || hNew || rate
  let full := !restart && !s.plan.bypass
  let s := twinRun s.plan.run.isNone t s
  let s := abandonAll (newEpoch s)
  let s := playStopAll s
  let s := s.onPlan fun p => { p with
    run := some i
    loaded := true
    staged := none
    swap := none
    effect := t
    restart := none
    eqOn := full
    lat := latTable i (if full || restart then classLatency i else pathDepth i)
    setDelay := loadDelays i }
  let s := { s with lanes := loadLanes i }
  let s := newShortfall (placeAll i s).1
  let s := placeSnap (s.onPlace fun p => { p with window := t - BitVec.ofNat 64 (t.toNat % 256) })
  let old := s.xp.active
  let s := s.onXp (loadXp i t)
  let s := if i.hasOvl then levelChange t s else s
  let works := ((s.place.works.filter fun p => p.2.placed && decide (p.1 < 0x1000)).map (·.1))
  let s := s.onSig (loadSig i full t works)
  let s := if restart then restartEq t s
    else if full && !s.wave.settled then raise 0x0003 0 0 (s.onWave fun w => { w with settled := true })
    else s
  let s := s.onWave fun w => { w with
    done := []
    dropped := [] }
  if s.wave.live then loadWave [] (old ^^^ s.xp.active) s else s

/-- The wave `w` has come: it runs, or no waves run and the counter has reached it. -/
def waveCome (w : BitVec 64) (s : State) : Bool :=
  if s.wave.running then s.wave.live && decide (w.toNat ≤ s.wave.num.toNat) else decide (w.toNat ≤ s.wave.count.toNat)

/-- PLAN_TAKE_EFFECT (R175): the staged plan takes effect at its wave; one that changes the rate, in the first wave of
the new rate. -/
def execPlanTakeEffect (s : State) : Host.Outcome State Fault Refusal :=
  match s.plan.staged with
  | some q =>
    match q.effect with
    | some w =>
      if waveCome w s = true ∧ (q.rateChange = false ∨ (s.clk.rateDue = none ∧ s.wave.rate = some q.img.rate)) then
        .next (takeEffect q.img q.rateChange (sampleNow s) s)
      else .next s
    | none => .next s
  | none => .next s

/-- A plan is unloaded (R180): sinks present 0, players stop, the epoch increments and no plan runs; overrides and base
words are kept. SETTLED keeps its value: 01 R33 does not say what it reads with no path left (DESIGN CHOICE, log entry
138). -/
def unloadPlan (s : State) : State :=
  let base := s.xp.base
  let s := playStopAll (abandonAll (newEpoch s))
  let s := s.onPlan fun p => { p with
    run := none
    staged := none
    swap := none
    unload := none
    restart := none
    eqOn := false
    lat := []
    setDelay := [] }
  let s := endShortfall (s.onPlace fun p => { p with works := [], table := [] })
  let s := s.onXp fun x => { x with base := base }
  { s with
    lanes := []
    sig := { s.sig with
      rowCur := []
      rowPrev := []
      outNew := []
      outCur := []
      lines := []
      sumPart := []
      sumNew := []
      sinkNext := []
      quiet := [] } }

/-- PLAN_UNLOAD_EFFECT (R180): the accepted unload takes effect at its wave. -/
def execPlanUnloadEffect (s : State) : Host.Outcome State Fault Refusal :=
  match s.plan.unload with
  | some w => if waveCome w s then .next (unloadPlan s) else .next s
  | none => .next s

/-! ### Insertion and removal (R167 to R169) -/

/-- Blocks joined to a block by wires, up or down. -/
def blockNext (i : Image) (id : Nat) : List Nat :=
  i.wiring.filterMap fun w =>
    if codeKind w.prod = 4 ∧ codeKind w.cons = 4 then
      if codeBlock w.prod = id then some (codeBlock w.cons)
      else if codeBlock w.cons = id then some (codeBlock w.prod)
      else none
    else none

/-- The segment of a block: every block joined to it. -/
def segment (i : Image) : Nat → List Nat → List Nat
  | 0, l => l
  | n + 1, l => segment i n (l ++ (l.map (blockNext i)).flatten).eraseDups

/-- The chain's end downstream of a producer: the output that reaches a row, a bus input or a sink. -/
def chainEnd (i : Image) : Nat → Nat → Nat
  | 0, c => c
  | n + 1, c =>
    match i.wiring.find? fun w => w.prod == c && codeKind w.cons == 4 with
    | some w =>
      match imgBlock i (codeBlock w.cons) with
      | some b =>
        if b.chOut = 0 then c
        else chainEnd i n (blockCode b.id (if codeIdx w.cons < b.chOut then codeIdx w.cons else 0))
      | none => c
    | none => c

/-- The pre-roll in samples (R167). -/
def preRoll (i : Image) (chain : List Nat) : Nat :=
  max 96 (2 * (((i.blocks.filter fun b => chain.contains b.id).map (·.s)).foldl max 0))

/-- The plan with a block inserted: its records, and the wires that go through it. A row that it feeds no longer has its
source, and the sinks of its input's producer take an output that no wire names (log entry 24). -/
def insertBlock (i n : Image) (b : BlockRec) : Image :=
  let conses := n.wiring.map (·.cons)
  let outs := n.wiring.filterMap fun w =>
    if codeKind w.prod = 4 ∧ codeBlock w.prod = b.id then some (codeIdx w.prod) else none
  let feed (ch : Nat) : Option Nat := (n.wiring.find? fun w => w.cons == blockCode b.id ch).map (·.prod)
  let open_ := (List.range b.chOut).filter fun ch => !outs.contains ch
  { i with
    a := some (inputDepth i)
    blocks := i.blocks ++ [{ b with progFirst := i.progs.length + b.progFirst }]
    progs := i.progs ++ n.progs
    coefs := i.coefs ++ n.coefs
    wiring := (i.wiring.filter fun w => !conses.contains w.cons) ++ n.wiring
    sources := i.sources.filter fun r => !conses.contains (rowCode r.row)
    sinks := i.sinks.map fun w =>
      match open_.find? fun ch => feed ch == some w.prod with
      | some ch => { w with prod := blockCode b.id ch }
      | none => w }

/-- The plan without a block: input channel k is wired to the consumers of output channel k (R169). -/
def removeBlock (i : Image) (id : Nat) : Image :=
  let feed (c : Nat) : Nat :=
    if codeKind c = 4 ∧ codeBlock c = id then
      ((i.wiring.find? fun w => w.cons == c).map (·.prod)).getD c
    else c
  let ws := (i.wiring.filter fun w => !(codeKind w.cons == 4 && codeBlock w.cons == id)).map fun w =>
    { w with prod := feed w.prod }
  let rows := ws.filter fun w => codeKind w.cons == 5 && decide (codeKind w.prod < 3)
  { i with
    a := some (inputDepth i)
    blocks := i.blocks.filter fun b => b.id != id
    coefs := i.coefs.filter fun c => c.block != id
    wiring := ws.filter fun w => !(codeKind w.cons == 5 && decide (codeKind w.prod < 3))
    sources := i.sources ++ rows.map fun w => { src := w.prod, row := codeIdx w.cons, second := true }
    sinks := i.sinks.map fun w => { w with prod := feed w.prod } }

/-- The new chain keeps every delay within its bounds (R168): no row deeper than A, no negative sink delay, no row delay
above 64. -/
def swapLatencyOk (i : Image) : Bool :=
  ((fedRows i).all fun r => imgAlleyRow i r || decide (rowDepth i r ≤ inputDepth i ∧ inputDepth i ≤ rowDepth i r + 64))
    && (i.sinks.all fun w => decide (0 ≤ feedDelay i w.prod))
    && i.paths.all fun p => pathClass i p == 0 || decide (pathDepth i p ≤ i.h)

/-- The works that the new chain needs: a Lane for each of its Lane blocks, and one for the second copy of an inserted
DUPLEX block. -/
def swapWorks (q : Swap) : List Nat :=
  let bs := (laneBlocks q.img).filter fun b => q.chain.contains b.id
  bs.map (0x6000 + ·.id) ++ (if q.insert then (bs.filter fun b => b.duplex && b.id == q.block).map (0x5000 + ·.id) else [])

/-- Place the new chain on free Lane slots; false when they are short. -/
def placeChain (q : Swap) (s : State) : State × Bool :=
  let s := s.onPlan fun p => { p with swap := some q }
  (swapWorks q).foldl (fun p w => placeOne q.img w p) (s, true)

/-- The chain placed, after planned moves and tie-breaks of Lanes that hold slots are abandoned where it would not fit
otherwise (06 R210); false when the slots are still short. -/
def reserveChain (q : Swap) (s : State) : State × Bool :=
  let a := placeChain q s
  if a.2 then a
  else
    let held := s.place.moving.filter fun m => !workMix m.work && (m.kind == .planned || m.kind == .tieBreak)
    placeChain q (held.foldl (fun s m => abandon m s) s)

/-- The pre-roll starts at the launch of its wave p (R167): unchanged blocks are copied with their state, an inserted one
starts from zero state; their delay lines and the words that they have handed on are copied too. -/
def preStart (n : BitVec 64) (s : State) : State :=
  match s.plan.swap, s.plan.run with
  | some q, some i =>
    if q.p = n then
      let s := ((laneBlocks q.img).filter fun b => q.chain.contains b.id).foldl (fun s b =>
        let l := if (imgBlock i b.id).isSome then { laneAt s (0x4000 + b.id) with st := 1 }
          else loadLane q.img b 1
        { s with lanes := tput {} s.lanes (0x6000 + b.id) l }) s
      let s := (q.img.blocks.filter fun b => b.type == 6 && (imgBlock i b.id).isNone).foldl (fun s b =>
        { s with lanes := tput {} s.lanes (0x4000 + b.id) (loadLane q.img b 1) }) s
      let s := s.onPlan fun p => { p with
        setDelay := ((delayChans q.img).filter fun c => (imgBlock i c.1).isNone).foldl (fun t c =>
          tput 0 t (c.1 * 64 + c.2.1) c.2.2) p.setDelay }
      let copied := s.sig.lines.filter fun l =>
        (codeKind l.1 == 4 || codeKind l.1 == 3) && q.chain.contains (codeBlock l.1)
      let words := s.sig.outCur.filter fun w => codeKind w.1 == 4 && q.chain.contains (codeBlock w.1)
      s.onSig fun g => { g with
        lines := copied.foldl (fun t l => tput [] t (preKey l.1) l.2) g.lines
        outCur := words.foldl (fun t w => tput 0 t (preCode (codeBlock w.1) (codeIdx w.1)) w.2) g.outCur }
    else s
  | _, _ => s

/-- The old chain's word on the affected channel, kept for the crossing test before the areas flip (R167). -/
def preNote (s : State) : State :=
  match s.plan.swap, s.plan.run with
  | some q, some i =>
    let w := feedNow s i q.feed
    s.onPlan fun p => { p with swap := some { q with prev := w } }
  | _, _ => s

/-- The swap is due in the wave in progress (R167). -/
def swapDue (q : Swap) (i : Image) (s : State) : Bool :=
  let w := feedNow s i q.feed
  let n := s.wave.num.toNat
  s.wave.live && decide (q.p.toNat + q.pre < n)
    && (wordCrosses q.prev w || decide (q.p.toNat + q.pre + q.timeout ≤ n))
    || (s.wave.live && decide (q.p.toNat + q.pre + q.timeout ≤ n))

/-- A signal key after the swap: what belonged to the old chain is dropped, what belonged to the copy takes its place. -/
def swapKey (gone : List Nat) (k : Nat) : Option Nat :=
  if codeKind k = 4 ∧ k % 0x10000000 < 0x08000000 then
    if gone.contains (codeBlock k) then none else some k
  else if codeKind k = 4 then some (k - 0x08000000)
  else some k

/-- A work code after the swap. -/
def swapWork (gone : List Nat) (w : Nat) : Option Nat :=
  if w / 4096 = 4 ∧ gone.contains (w % 4096) = true then none
  else if w / 4096 = 6 then some (0x4000 + w % 4096)
  else some w

/-- The new chain replaces the old one (R167, R168): Lanes, slots, delay lines, the segment's row and sink words. -/
def swapChain (q : Swap) (i : Image) (s : State) : State :=
  let gone := q.chain ++ (if q.insert then [] else [q.block])
  let lost := s.place.moving.filter fun m =>
    m.work / 4096 == 4 && gone.contains (m.work % 4096) || (!q.insert && m.work == 0x5000 + q.block)
  let s := lost.foldl (fun s m => abandon m s) s
  let works := s.place.works.filterMap fun p =>
    if !q.insert && p.1 == 0x5000 + q.block then none
    else (swapWork gone p.1).map fun w => (w, p.2)
  let lanes := s.lanes.filterMap fun p =>
    if !q.insert && p.1 % 65536 == 0x5000 + q.block then none
    else if p.1 / 4096 % 16 == 4 && match imgBlock q.img (p.1 % 4096) with
        | some b => b.type == 6
        | none => false then some p
    else (swapWork gone (p.1 % 65536)).map fun w => (p.1 / 65536 * 65536 + w,
      if p.1 / 4096 % 16 = 6 then { p.2 with st := if p.2.st = 1 then 0 else p.2.st } else p.2)
  let lanes := tputs {} [] lanes
  let twins := (laneBlocks q.img).filter fun b => b.duplex && q.chain.contains b.id
  let lanes := twins.foldl (fun t b => tput {} t (0x5000 + b.id) (tget {} t (0x4000 + b.id))) lanes
  let segs := segCons i q
  let pre := s.sig.lines
  let flip (t : Tab W36) : Tab W36 := tputs 0 [] (t.filterMap fun p => (swapKey gone p.1).map fun k => (k, p.2))
  let s := s.onPlace fun p => { p with
    works := tputs {} [] works
    moving := p.moving.map fun m => { m with work := (swapWork gone m.work).getD m.work } }
  let s := { s with lanes := lanes }
  let s := s.onWave fun w => { w with done := (w.done.filterMap (swapWork gone)) }
  let s := s.onPlan fun p => { p with
    run := some q.img
    swap := none }
  let s := s.onSig fun g => { g with
    outCur := flip g.outCur
    outNew := tputs none [] (g.outNew.filterMap fun p => (swapKey gone p.1).map fun k => (k, p.2))
    lines := tputs [] [] (g.lines.filterMap fun p =>
      let k := p.1
      if (codeKind k = 3 ∨ codeKind k = 4) ∧ k % 0x10000000 < 0x08000000 then
        (if gone.contains (codeBlock k) then none else some p)
      else if codeKind k = 3 ∨ codeKind k = 4 then some (k - 0x08000000, p.2)
      else if k % 0x10000000 < 0x08000000 then (if segs.contains k then none else some p)
      else none) }
  let s := endShortfall s
  segs.foldl (fun s c =>
    let l := tget [] pre (preKey c)
    if codeKind c = 5 then
      let n := rowDelay q.img (codeIdx c)
      s.onSig fun g => { g with
        lines := tput [] g.lines c (l.take n)
        rowCur := tput 0 g.rowCur (codeIdx c) (l.getD (if fullLen s s.wave.num then n else 0) 0) }
    else
      let n := sinkDelay q.img c
      let mute := tget 0 g0.quiet c != 0 || (q.img.muteUntil && !s.wave.settled)
      s.onSig fun g => { g with
        lines := tput [] g.lines c (l.take n)
        sinkNext := tput 0 g.sinkNext c (if mute then 0 else l.getD (if fullLen s s.wave.num then n else 0) 0) }) s
where
  /-- The signals before the swap. -/
  g0 : SigS := s.sig

/-- In stated latency mode the natural depths of the new chain take effect at the swap, as they were published; entries that
a restart has overtaken are logged with the swap (R160). -/
def swapTable (i : Image) (s : State) : State :=
  let old := s.plan.lat
  let late := ((List.range i.paths.length).filter fun n =>
    match i.paths[n]? with
    | some p =>
      let e := tget {} old n
      e.now != pathDepth i p && e.next != pathDepth i p
    | none => false).length
  let t := (List.range i.paths.length).foldl (fun t n =>
    match i.paths[n]? with
    | some p => tmod {} t n fun e => { now := pathDepth i p, next := if e.next = pathDepth i p then 0 else e.next }
    | none => t) old
  let s := s.onPlan fun p => { p with lat := t }
  if late = 0 then s else raise 0x0004 0 (latData late s.wave.num) s

/-- BLOCK_SWAP (R167, R168, R179): in its wave the new chain replaces the old one, and SWAP_DONE is logged with the wave.
In stated latency mode the table takes the new natural depths in the same wave. -/
def execBlockSwap (s : State) : Host.Outcome State Fault Refusal :=
  match s.plan.swap, s.plan.run with
  | some q, some i =>
    if swapDue q i s then
      let s := raise 0x0005 0 s.wave.num (swapChain q i s)
      if s.plan.eqOn then .next s else .next (swapTable q.img s)
    else .next s
  | _, _ => .next s

/-! ### Fades (R166) -/

/-- FADE_END (R166): after F samples only the new set or tap runs, and the last set that waited is applied at the next
flip. -/
def execFadeEnd (block : Fin 1024) (s : State) : Host.Outcome State Fault Refusal :=
  let id := block.val
  let isDelay := match s.plan.run.bind fun i => imgBlock i id with
    | some b => b.type == 6
    | none => false
  let keys := if isDelay then [0x4000 + id] else laneCopies s id
  .next (keys.foldl (fun s k =>
    let l := laneAt s k
    match l.fade with
    | some (n, f) =>
      if f ≤ n then
        let s := onLane k (fun _ => { l with
          cmt := if isDelay then l.cmt else { l.cmt with
            sec := l.cmt.sec2
            sec2 := [] }
          cur := if isDelay then l.cur else { l.cur with
            sec := l.cur.sec2
            sec2 := [] }
          fade := none
          writes := l.fadeWait ++ l.writes
          fadeWait := [] }) s
        if isDelay then
          s.onPlan fun p => { p with setDelay := (List.range 64).foldl (fun t ch =>
            tput 0 t (id * 64 + ch) (tget 0 l.cmt.y (ch + 1)).toNat) p.setDelay }
        else s
      else s
    | none => s) s)

end Sys2Proof.Machine
end

