-- ==== Sys2Proof/Machine/PlanCmd.lean ====
section
/-! DEFINITION. Command families 0x01 and 0x03 (05 R174 to R183): each command's own checks, its effect, and its
meaning. -/

namespace Sys2Proof.Machine

/-- A plan declares an Alley bus (R174). -/
def hasAlley (i : Image) : Bool := i.buses.any fun b => b.alley.isSome

/-! ### PLAN_LOAD, PLAN_VERIFY (R175, R176) -/

/-- OFFSET of an image: a multiple of 16 in the plan image space. -/
def offsetOk (o : Nat) : Bool := decide (o % 16 = 0 ∧ o < planSpace)

/-- A finding as a failing check, with the payload of PLAN_LOAD. -/
def findingFail (f : Finding) : Fail := { status := f.status, detail := f.step, payload := findingBytes f }

/-- The idle of a rate change has begun: tick a + 2 of the old rate has come (13 R440). -/
def rateIdle (s : State) : Bool :=
  match s.clk.rateDue with
  | some (_, last, _) => s.wave.rate.isNone || decide (last.toNat + 1 ≤ s.wave.count.toNat)
  | none => false

/-- Checks of PLAN_LOAD: one load is staged at a time, and not beside an unload, or an insertion or removal, that has been
accepted (R169, R175). -/
def planLoadCheck (p : List Byte) (s : State) : Option Fail :=
  orElse (paramCheck ([(0, offsetOk (fld p 0 4))] ++ zeroFrom p 4 4 ++ [lenIs p 16]))
  (orElse (failIf (s.plan.staged.isSome || s.plan.unload.isSome || s.plan.swap.isSome) 0x0006)
    ((checkImage s (fld p 0 4)).bad.map findingFail))

/-- Effect of PLAN_LOAD: the checked image is being staged; the Kiosk waits for PLAN_STAGED. -/
def planLoadEffect (k : Nat) (p : List Byte) (s : State) : Effect :=
  (s.onPlan fun q => { q with staged := some {
    img := (checkImage s (fld p 0 4)).img
    atSample := BitVec.ofNat 64 (fld p 8 8)
    kiosk := k
    offset := fld p 0 4 } }, none)

/-- PLAN_LOAD (0x0101). -/
def execPlanLoad (k : Fin 32) (s : State) : Host.Outcome State Fault Refusal :=
  .next (runKiosk 0x0101 k.val fwdAlways planLoadCheck planLoadEffect s)

/-- Why a staged load is turned away in the wave in which staging completes (R175). -/
def stagedFail (q : Staged) (s : State) : Option Fail :=
  let now := (accWave s).toNat
  let t := q.atSample.toNat
  if t = 0 then none
  else if s.wave.rate.isNone then some (badParam 8)
  else if t < now + 2 then some { status := 0x0013 }
  else if now + 2 ^ 32 < t then some (badParam 8)
  else none

/-- A change to another rate than the staged plan's is in progress: staging lasts until it is over. -/
def rateWaits (q : Staged) (s : State) : Bool :=
  match s.clk.rateDue with
  | some (r, _, _) => r != q.img.rate
  | none => false

/-- PLAN_STAGED (R175): staging completes, and the effect wave is fixed and answered. A load that changes the rate has the
rate change proceed from wave t (13 R440), or joins the one to its rate that is in progress; `newFirst` is the value that
R440 gives the first tick of the new rate. -/
def execPlanStaged (newFirst : BitVec 64) (s : State) : Host.Outcome State Fault Refusal :=
  match s.plan.staged with
  | none => .next s
  | some q =>
    if q.effect.isSome || rateWaits q s then .next s
    else
      match stagedFail q s with
      | some f => .next (answerFail q.kiosk f (s.onPlan fun p => { p with staged := none }))
      | none =>
        let t := if q.atSample = 0 then accWave s + 2 else q.atSample
        let rate := s.wave.rate != some q.img.rate
        let due := s.clk.rateDue.getD (q.img.rate, t - 1, if s.wave.counterValid then newFirst else 0)
        let e := if rate then due.2.2 else t
        let s := if rate then s.onClk fun c => { c with rateDue := some due } else s
        let s := s.onPlan fun p => { p with staged := some { q with
          kiosk := 32
          effect := some e
          rateChange := rate } }
        .next (answerOk q.kiosk (le 4 (nextEpoch s.plan.epoch).toNat ++ zeros 4 ++ le 8 e.toNat) s)

/-- The payload of PLAN_VERIFY (R176): counts read 0 unless the checks that fix them have passed. Which checks those are is a
DESIGN CHOICE (log entry 139): step 5 for SQUARES and LANES, step 7 for POOL_WORDS and A, step 1 for H. -/
def verifyBytes (c : Checked) : List Byte :=
  let step := match c.bad with
    | some f => f.step
    | none => 0
  let past (n : Nat) : Bool := step == 0 || decide (n < step)
  let i := c.img
  let squares := 80 + (if i.alleyBlock.isSome then 2 else 0)
  let lanes := (laneBlocks i).length + ((laneBlocks i).filter (·.duplex)).length
  let f := c.bad.getD { status := 0, step := 0 }
  le 2 step ++ le 2 f.sec ++ le 4 f.record ++ le 2 (if past 5 then squares else 0) ++ le 2 (if past 5 then lanes else 0)
    ++ le 4 (if past 7 then poolWords i else 0) ++ le 1 (if past 7 then inputDepth i else 0) ++ le 1 (if past 1 then i.h else 0)

/-- Checks of PLAN_VERIFY: a failing image gives its status with the whole payload. -/
def planVerifyCheck (p : List Byte) (s : State) : Option Fail :=
  orElse (paramCheck ([(0, offsetOk (fld p 0 4))] ++ zeroFrom p 4 4 ++ [lenIs p 8]))
    (let c := checkImage s (fld p 0 4)
     c.bad.map fun f => { status := f.status, detail := f.step, payload := verifyBytes c })

/-- Effect of PLAN_VERIFY: nothing changes. -/
def planVerifyEffect (_ : Nat) (p : List Byte) (s : State) : Effect := (s, some (verifyBytes (checkImage s (fld p 0 4))))

/-- PLAN_VERIFY (0x0102). -/
def execPlanVerify (k : Fin 32) (s : State) : Host.Outcome State Fault Refusal :=
  .next (runKiosk 0x0102 k.val fwdNever planVerifyCheck planVerifyEffect s)

/-! ### PLAN_STATUS, PLAN_LATENCY_READ (R177, R178) -/

/-- Effect of PLAN_STATUS (R177). -/
def planStatusEffect (_ : Nat) (_ : List Byte) (s : State) : Effect :=
  let flags := b2n s.wave.settled + 2 * b2n s.plan.bypass + 4 * b2n s.plan.swap.isSome + 8 * b2n s.plan.staged.isSome
  (s, some (le 4 s.plan.epoch.toNat ++ (match s.plan.run with
    | some i => le 1 i.rate.code ++ le 1 i.h ++ le 1 (inputDepth i) ++ le 1 flags ++ le 2 i.paths.length
        ++ le 2 (laneBlocks i).length ++ zeros 4 ++ le 8 s.plan.effect.toNat ++ le 8 i.buildId.toNat
    | none => le 1 0xFF ++ zeros 2 ++ le 1 flags ++ zeros 24)))

/-- PLAN_STATUS (0x0103). -/
def execPlanStatus (k : Fin 32) (s : State) : Host.Outcome State Fault Refusal :=
  .next (runKiosk 0x0103 k.val fwdNever emptyCheck planStatusEffect s)

/-- Set delay on the routes from an origin to a producer, the largest where there are several (R154, R178); none where no
route leads there. -/
def setDelayTo (s : State) (i : Image) (origin : Nat) : Nat → Nat → Option Nat
  | 0, _ => none
  | n + 1, c =>
    if codeKind c = 4 then
      let own := if isDelay i (codeBlock c) then setDelayOf s (codeBlock c) (codeIdx c) else 0
      let ds := (((wiresTo i c).map (·.prod)).eraseDups).filterMap (setDelayTo s i origin n)
      if ds.isEmpty then none else some (own + ds.foldl max 0)
    else if c = origin then some 0
    else none

/-- SET_DELAY of a path: from its source to its rows, and from its bus, or its source where it has none, to its sink. -/
def pathSet (s : State) (i : Image) (p : PathRec) : Nat :=
  let n := i.blocks.length + 1
  let after := match sinkFeed i p.sink with
    | some f => (setDelayTo s i (if p.bus = 0xFFFF then p.src else busCode p.bus) n f).getD 0
    | none => 0
  let before := if p.bus = 0xFFFF then 0
    else ((fedRows i).filterMap fun r => (rowFeed i r).bind (setDelayTo s i p.src n)).foldl max 0
  before + after

/-- One entry of the latency table (R178). -/
def latBytes (s : State) (i : Image) (n : Nat) : List Byte :=
  match i.paths[n]? with
  | some p =>
    let e := tget {} s.plan.lat n
    le 4 p.src ++ le 2 p.bus ++ le 1 (pathClass i p) ++ le 1 e.now ++ le 4 p.sink ++ le 1 e.next ++ le 3 (pathSet s i p)
  | none => zeros 16

/-- Declared paths of the running plan. -/
def pathCount (s : State) : Nat :=
  match s.plan.run with
  | some i => i.paths.length
  | none => 0

/-- Checks of PLAN_LATENCY_READ (R178). -/
def planLatencyReadCheck (p : List Byte) (s : State) : Option Fail :=
  paramCheck [(2, decide (1 ≤ fld p 2 2 ∧ fld p 2 2 ≤ 14 ∧ fld p 0 2 + fld p 2 2 ≤ pathCount s)), lenIs p 4]

/-- Effect of PLAN_LATENCY_READ: the table of one wave. -/
def planLatencyReadEffect (_ : Nat) (p : List Byte) (s : State) : Effect :=
  match s.plan.run with
  | some i =>
    (s, some (le 2 i.paths.length ++ le 2 (fld p 0 2) ++ le 2 (fld p 2 2) ++ zeros 2 ++ le 8 (sampleNow s).toNat
      ++ (List.range (fld p 2 2)).flatMap fun k => latBytes s i (fld p 0 2 + k)))
  | none => (s, some [])

/-- PLAN_LATENCY_READ (0x0104). -/
def execPlanLatencyRead (k : Fin 32) (s : State) : Host.Outcome State Fault Refusal :=
  .next (runKiosk 0x0104 k.val fwdNever planLatencyReadCheck planLatencyReadEffect s)

/-! ### PLAN_BLOCK_INSERT, PLAN_BLOCK_REMOVE (R167 to R169, R179) -/

/-- The insertion image at an offset: its first failing check, and the plan with its block (R162, R179). Its wires may
name endpoints of the running plan, so they are checked in the joined plan. -/
def insertRead (s : State) (i : Image) (o : Nat) : Option Finding × Option (BlockRec × Image) :=
  let room := planSpace - o
  let h := planBytes s o 32
  match headerCheck h room with
  | some f => (some f, none)
  | none =>
    let b := planBytes s o (fld h 8 4)
    match firstFinding [crcCheck b, directoryCheck b, rateCheck b,
        need (fld b 12 1 == i.rate.code) { status := 0x0022, step := 4, record := 12 }] with
    | some f => (some f, none)
    | none =>
      let n := readImage b
      match n.blocks with
      | [q] =>
        let m := insertBlock i n q
        let wires := recordCheck 6 (recsOf b 6) (fun r => !codeReserved (fld r 0 4) && !codeReserved (fld r 4 4))
          (fun k r =>
            let p := fld r 0 4
            let c := fld r 4 4
            !((n.wiring.take k).any fun w => w.cons == c)
              && (sourceOk s i.rate p || outputOk m p || busOk m p)
              && (if codeKind c = 5 then decide (codeIdx c < rowsAt i.rate) && codeKind p == 4 else inputOk m c)) fitsAny
        let only := (directory b).all fun e => e.type == 3 || e.type == 4 || e.type == 5 || e.type == 6
        (firstFinding [need only { status := 0x0020, step := 5 },
          recordCheck 4 (recsOf b 4) (fun r => decide (fld r 0 8 < 2 ^ 36)) (fun _ _ => true) fitsAny,
          blocksCheck b n, coefsCheck b n,
          need (imgBlock i q.id).isNone { status := 0x0004, step := 5, sec := 3 },
          need (countsOk m.blocks) { status := 0x0023, step := 5, sec := 3 },
          wires, libraryCheck n, alleyCheck6 m,
          need (swapLatencyOk m) { status := 0x0024, step := 7, sec := 3 },
          need (poolOk s m) { status := 0x0023, step := 8, sec := 3 }], some (q, m))
      | _ => (some { status := 0x0020, step := 5, sec := 3 }, none)

/-- The swap that an insertion starts. -/
def insertSwap (s : State) (i : Image) (q : BlockRec) (m : Image) : Swap :=
  let chain := segment m (m.blocks.length + 1) [q.id]
  let feed := match m.wiring.find? fun w => codeKind w.cons == 4 && codeBlock w.cons == q.id with
    | some w => chainEnd i (i.blocks.length + 1)
        (match m.wiring.find? fun v => codeKind v.prod == 4 && codeBlock v.prod == q.id with
         | some v =>
           if codeKind v.cons = 4 then
             match i.wiring.find? fun u => u.cons == v.cons with
             | some u => u.prod
             | none => w.prod
           else (consFeed i v.cons).getD w.prod
         | none => w.prod)
    | none => blockCode q.id 0
  { insert := true, block := q.id, img := m, p := nextWave s, pre := preRoll m chain
    timeout := timeoutOf s s.xp.stTimeout.toNat, feed := feed, chain := chain }

/-- The swap that a removal starts. -/
def removeSwap (s : State) (i : Image) (id : Nat) : Swap :=
  let m := removeBlock i id
  let chain := (segment i (i.blocks.length + 1) [id]).filter (· != id)
  { insert := false, block := id, img := m, p := nextWave s, pre := preRoll m chain
    timeout := timeoutOf s s.xp.stTimeout.toNat, feed := chainEnd i (i.blocks.length + 1) (blockCode id 0)
    chain := chain }

/-- The swap starts: its chain takes its slots, and the response gives BLOCK, PREROLL and START_SAMPLE (R179). -/
def startSwap (q : Swap) (s : State) : Effect :=
  ((reserveChain q s).1, some (le 2 q.block ++ zeros 2 ++ le 4 q.pre ++ le 8 q.p.toNat))

/-- Checks of PLAN_BLOCK_INSERT. Without a running plan there is no path to insert into: NO_BLOCK. -/
def planBlockInsertCheck (p : List Byte) (s : State) : Option Fail :=
  orElse (paramCheck [(0, offsetOk (fld p 0 4)), lenIs p 4])
  (orElse (failIf s.plan.swap.isSome 0x0006)
    (match s.plan.run with
     | none => some { status := 0x0026 }
     | some i =>
       match insertRead s i (fld p 0 4) with
       | (some f, _) => some (findingFail f)
       | (none, some (q, m)) => failIf (!(reserveChain (insertSwap s i q m) s).2) 0x0025
       | (none, none) => some { status := 0x0020 }))

/-- Effect of PLAN_BLOCK_INSERT. -/
def planBlockInsertEffect (_ : Nat) (p : List Byte) (s : State) : Effect :=
  match s.plan.run with
  | none => (s, some [])
  | some i =>
    match (insertRead s i (fld p 0 4)).2 with
    | some (q, m) => startSwap (insertSwap s i q m) s
    | none => (s, some [])

/-- PLAN_BLOCK_INSERT (0x0105). -/
def execPlanBlockInsert (k : Fin 32) (s : State) : Host.Outcome State Fault Refusal :=
  .next (runKiosk 0x0105 k.val fwdAlways planBlockInsertCheck planBlockInsertEffect s)

/-- A removal leaves a sink fed by a source, which no plan can hold (R151). -/
def leavesSource (i : Image) (id : Nat) : Bool := (removeBlock i id).sinks.any fun w => decide (codeKind w.prod < 3)

/-- Checks of PLAN_BLOCK_REMOVE (R168, R169). -/
def planBlockRemoveCheck (p : List Byte) (s : State) : Option Fail :=
  let id := fld p 0 2
  orElse (paramCheck (zeroFrom p 2 2 ++ [lenIs p 4]))
  (orElse (failIf s.plan.swap.isSome 0x0006)
    (match s.plan.run with
     | none => some { status := 0x0026 }
     | some i =>
       match imgBlock i id with
       | none => some { status := 0x0026 }
       | some b =>
         if b.chIn ≠ b.chOut ∨ leavesSource i id = true then some (badParam 0)
         else orElse (failIf (!swapLatencyOk (removeBlock i id)) 0x0024)
           (failIf (!(reserveChain (removeSwap s i id) s).2) 0x0025)))

/-- Effect of PLAN_BLOCK_REMOVE. -/
def planBlockRemoveEffect (_ : Nat) (p : List Byte) (s : State) : Effect :=
  match s.plan.run with
  | none => (s, some [])
  | some i => startSwap (removeSwap s i (fld p 0 2)) s

/-- PLAN_BLOCK_REMOVE (0x0106). -/
def execPlanBlockRemove (k : Fin 32) (s : State) : Host.Outcome State Fault Refusal :=
  .next (runKiosk 0x0106 k.val fwdAlways planBlockRemoveCheck planBlockRemoveEffect s)

/-! ### PLAN_EQ_BYPASS, PLAN_UNLOAD (R159, R180) -/

/-- Checks of PLAN_EQ_BYPASS. -/
def planEqBypassCheck (p : List Byte) (_ : State) : Option Fail :=
  paramCheck ([(0, decide ((byteAt p 0).toNat < 2))] ++ zeroFrom p 1 3 ++ [lenIs p 4])

/-- The wave in which an accepted PLAN_EQ_BYPASS acts: 2 waves on. Where a restart would settle in the wave between, it acts
with that wave, so that the natural depths stay and no change is left without its publication (R160, log entry 155). -/
def bypassWave (on : Bool) (s : State) : BitVec 64 :=
  let w := accWave s + 2
  match s.plan.restart with
  | some r => if on ∧ (accWave s).toNat < r.toNat + 66 ∧ r.toNat + 66 < w.toNat then r + 66 else w
  | none => w

/-- Effect of PLAN_EQ_BYPASS: it acts 2 waves on, and the latencies that it brings are published at once (R160); while no
waves run it acts at once. -/
def planEqBypassEffect (_ : Nat) (p : List Byte) (s : State) : Effect :=
  let on := byteAt p 0 == 1
  if s.wave.running then
    let w := bypassWave on s
    let s := s.onPlan fun q => { q with bypassDue := q.bypassDue ++ [(on, w)] }
    match s.plan.run with
    | some i => (if on then latSet w (latPublish i (pathDepth i) s.plan.lat) s else s, some [])
    | none => (s, some [])
  else (bypassApply on (sampleNow s) s, some [])

/-- PLAN_EQ_BYPASS (0x0107). -/
def execPlanEqBypass (k : Fin 32) (s : State) : Host.Outcome State Fault Refusal :=
  .next (runKiosk 0x0107 k.val fwdAlways planEqBypassCheck planEqBypassEffect s)

/-- A Kiosk that waits for a staging is answered BUSY: its image has been discarded (log entry 25). -/
def stagingGone (k : Nat) (s : State) : State := if k < 32 then answerFail k { status := 0x0006 } s else s

/-- Effect of PLAN_UNLOAD: it discards a staged load (R175), and its change of rate unless the idle has begun, and takes
effect within 2 waves; while no waves run, at once. -/
def planUnloadEffect (_ : Nat) (_ : List Byte) (s : State) : Effect :=
  let waits := match s.plan.staged with
    | some q => q.kiosk
    | none => 32
  let rate := match s.plan.staged with
    | some q => q.rateChange && !rateIdle s
    | none => false
  let s := if rate then s.onClk fun c => { c with rateDue := none } else s
  let s := stagingGone waits (s.onPlan fun p => { p with staged := none })
  if s.wave.running then (s.onPlan fun p => { p with unload := some (accWave s + 2) }, some [])
  else (unloadPlan s, some [])

/-- PLAN_UNLOAD (0x0108). -/
def execPlanUnload (k : Fin 32) (s : State) : Host.Outcome State Fault Refusal :=
  .next (runKiosk 0x0108 k.val fwdAlways emptyCheck planUnloadEffect s)

/-! ### BLK commands (R181 to R183) -/

/-- The words of a payload, as slots of 8 bytes from an offset. -/
def payloadSlots (p : List Byte) (o n : Nat) : List (BitVec 64) := (List.range n).map fun k => slot8 p (o + 8 * k)

/-- Bits [63:36] of each slot are 0. -/
def slotBytes (p : List Byte) (o n : Nat) : List (Nat × Bool) :=
  (List.range n).flatMap fun k =>
    (o + 8 * k + 4, decide ((byteAt p (o + 8 * k + 4)).toNat < 16)) :: zeroFrom p (o + 8 * k + 5) 3

/-- The block of the running plan. -/
def runBlock (s : State) (id : Nat) : Option BlockRec := s.plan.run.bind fun i => imgBlock i id

/-- A block whose Lane runs: placed, in the running plan. -/
def laneRuns (s : State) (id : Nat) : Bool :=
  match runBlock s id with
  | some b => b.type != 6 && (workAt s (0x4000 + id)).placed
  | none => false

/-- A block whose parameters can be written: a running Lane block, or a delay block. -/
def paramRuns (s : State) (id : Nat) : Bool :=
  laneRuns s id || match runBlock s id with
    | some b => b.type == 6
    | none => false

/-- Checks of BLK_PARAM_WRITE. -/
def blkParamWriteCheck (p : List Byte) (s : State) : Option Fail :=
  let f := (byteAt p 2).toNat
  let n := (byteAt p 3).toNat
  orElse (paramCheck ([(3, decide (1 ≤ n ∧ n ≤ 29 ∧ f + n ≤ 256))] ++ slotBytes p 4 (min n 29) ++ [lenIs p (4 + 8 * n)]))
    (failIf (!paramRuns s (fld p 0 2)) 0x0026)

/-- Words as outside writes to Y memory from an address on. -/
def yWrites (a : Nat) (l : List (BitVec 64)) : List OutWr :=
  (List.range l.length).map fun k => { kind := 0, addr := a + k, val := l.getD k 0, set := 0 }

/-- Effect of BLK_PARAM_WRITE: all words apply at the next flip (03 R87). -/
def blkParamWriteEffect (_ : Nat) (p : List Byte) (s : State) : Effect :=
  (outsideWrite (fld p 0 2) (yWrites (byteAt p 2).toNat (payloadSlots p 4 (byteAt p 3).toNat)) s,
   some (le 8 (nextWave s).toNat))

/-- BLK_PARAM_WRITE (0x0301). -/
def execBlkParamWrite (k : Fin 32) (s : State) : Host.Outcome State Fault Refusal :=
  .next (runKiosk 0x0301 k.val fwdAlways blkParamWriteCheck blkParamWriteEffect s)

/-- Checks of BLK_PARAM_READ. -/
def blkParamReadCheck (p : List Byte) (s : State) : Option Fail :=
  let f := (byteAt p 2).toNat
  let n := (byteAt p 3).toNat
  orElse (paramCheck [(3, decide (1 ≤ n ∧ n ≤ 29 ∧ f + n ≤ 256)), lenIs p 4]) (failIf (!paramRuns s (fld p 0 2)) 0x0026)

/-- Effect of BLK_PARAM_READ: the committed words. -/
def blkParamReadEffect (_ : Nat) (p : List Byte) (s : State) : Effect :=
  (s, some ((List.range (byteAt p 3).toNat).flatMap fun k =>
    le 8 (blockY s (fld p 0 2) ((byteAt p 2).toNat + k)).toNat))

/-- BLK_PARAM_READ (0x0302). -/
def execBlkParamRead (k : Fin 32) (s : State) : Host.Outcome State Fault Refusal :=
  .next (runKiosk 0x0302 k.val fwdNever blkParamReadCheck blkParamReadEffect s)

/-- Checks of BLK_COEF_WRITE. -/
def blkCoefWriteCheck (p : List Byte) (s : State) : Option Fail :=
  let a := fld p 4 2
  let n := fld p 6 2
  orElse (paramCheck (zeroFrom p 2 2 ++ [(4, decide (0x100 ≤ a ∧ a ≤ 0x1FFF)),
      (6, decide (1 ≤ n ∧ n ≤ 28 ∧ a + n ≤ 0x2000))] ++ slotBytes p 8 (min n 28) ++ [lenIs p (8 + 8 * n)]))
    (failIf (!laneRuns s (fld p 0 2)) 0x0026)

/-- Effect of BLK_COEF_WRITE. -/
def blkCoefWriteEffect (_ : Nat) (p : List Byte) (s : State) : Effect :=
  (outsideWrite (fld p 0 2) (yWrites (fld p 4 2) (payloadSlots p 8 (fld p 6 2))) s, some (le 8 (nextWave s).toNat))

/-- BLK_COEF_WRITE (0x0303). -/
def execBlkCoefWrite (k : Fin 32) (s : State) : Host.Outcome State Fault Refusal :=
  .next (runKiosk 0x0303 k.val fwdAlways blkCoefWriteCheck blkCoefWriteEffect s)

/-- Words of a section in BLK_SOS_WRITE: 5, or 9 with STATE. -/
def sosWords (p : List Byte) : Nat := if byteAt p 5 = 1 then 9 else 5

/-- A library block whose FADE is above 0: its section writes fade (R182). -/
def sosFades (s : State) (id : Nat) : Bool :=
  match runBlock s id with
  | some b => fades b.type && blockY s id 0 != 0
  | none => false

/-- Checks of BLK_SOS_WRITE (R182). -/
def blkSosWriteCheck (p : List Byte) (s : State) : Option Fail :=
  let f := fld p 2 2
  let n := (byteAt p 4).toNat
  let w := sosWords p
  let most := if w = 9 then 3 else 5
  orElse (paramCheck ([(2, decide (f < 384)), (4, decide (1 ≤ n ∧ n ≤ most)), (5, decide ((byteAt p 5).toNat < 2))]
      ++ zeroFrom p 6 2 ++ slotBytes p 8 (w * min n 5) ++ [lenIs p (8 + 8 * w * n)]))
  (orElse (failIf (!laneRuns s (fld p 0 2) || decide (384 < f + n)) 0x0026)
    (if w = 9 ∧ sosFades s (fld p 0 2) = true then some (badParam 5) else none))

/-- The outside writes of a section command. -/
def sosWrites (f n w : Nat) (l : List (BitVec 64)) : List OutWr :=
  (List.range (n * w)).map fun k => { kind := 1, addr := 9 * (f + k / w) + k % w, val := l.getD k 0, set := 0 }

/-- Effect of BLK_SOS_WRITE: the sections apply at the next flip; on a library block with FADE > 0 they go to the inactive
set and start a fade there (`applyWrites`). -/
def blkSosWriteEffect (_ : Nat) (p : List Byte) (s : State) : Effect :=
  let n := (byteAt p 4).toNat
  let w := sosWords p
  (outsideWrite (fld p 0 2) (sosWrites (fld p 2 2) n w (payloadSlots p 8 (n * w))) s, some (le 8 (nextWave s).toNat))

/-- BLK_SOS_WRITE (0x0304). -/
def execBlkSosWrite (k : Fin 32) (s : State) : Host.Outcome State Fault Refusal :=
  .next (runKiosk 0x0304 k.val fwdAlways blkSosWriteCheck blkSosWriteEffect s)

/-- The Lane whose status a block shows, and its record: the running block, or the copy that pre-rolls. -/
def statusLane (s : State) (id : Nat) : Option (Nat × BlockRec) :=
  match s.plan.run.bind fun i => imgBlock i id with
  | some b => if b.type = 6 then none else some (0x4000 + id, b)
  | none =>
    match s.plan.swap with
    | some q =>
      match imgBlock q.img id with
      | some b => if b.type = 6 then none else some (0x6000 + id, b)
      | none => none
    | none => none

/-- Checks of BLK_STATUS. -/
def blkStatusCheck (p : List Byte) (s : State) : Option Fail :=
  orElse (paramCheck [(2, decide ((byteAt p 2).toNat < 2)), (3, byteAt p 3 == 0), lenIs p 4])
    (failIf (statusLane s (fld p 0 2)).isNone 0x0026)

/-- Effect of BLK_STATUS: LST, accounted length, type and state; CLEAR clears GV, GVAC, SAT and SOSSAT after them. -/
def blkStatusEffect (_ : Nat) (p : List Byte) (s : State) : Effect :=
  match statusLane s (fld p 0 2) with
  | none => (s, some [])
  | some (key, b) =>
    let l := laneAt s key
    let st := if (workAt s key).placed then l.st else 2
    let t := if byteAt p 2 = 1 then
        (laneCopies s (fld p 0 2)).foldl (fun s c => onLane c (fun l => { l with
          cmt := { l.cmt with lst := l.cmt.lst &&& ~~~ 0xEF0 }
          cur := { l.cur with lst := l.cur.lst &&& ~~~ 0xEF0 } }) s) s
      else s
    (t, some (le 8 (lstRead l).toNat ++ le 2 (accountedOf b) ++ le 1 b.type ++ le 1 st))

/-- BLK_STATUS (0x0305). -/
def execBlkStatus (k : Fin 32) (s : State) : Host.Outcome State Fault Refusal :=
  .next (runKiosk 0x0305 k.val fwdNever blkStatusCheck blkStatusEffect s)

/-! ### PLAYER commands (R170 to R173, R181, R183) -/

/-- Failure payload-free check of an entry for a player: it exists and has the running rate (R170), and for a protected
player its signature has been verified (15 R477). An entry that the library does not hold is answered as one that is not at
the running rate (log entry 150). -/
def entryCheck (s : State) (p e : Nat) : Option Fail :=
  if entryPlays s e = false then some { status := 0x0027 }
  else failIf (playProt s p && !libVerified s e) 0x0056

/-- Checks of PLAYER_START. -/
def playerStartCheck (p : List Byte) (s : State) : Option Fail :=
  let pl := (byteAt p 0).toNat
  let md := (byteAt p 1).toNat
  let now := (accWave s).toNat
  let t := fld p 8 8
  orElse (paramCheck ([(0, decide (pl < 64)), (1, decide (md < 3)),
      (2, (md == 1) == decide (0 < fld p 2 2) || (md != 1)), (4, decide (fld p 4 2 < 1024))]
      ++ zeroFrom p 6 2 ++ [lenIs p 16]))
  (orElse (failIf (playRec s pl).isNone 0x0004)
  (orElse (failIf (tget {} s.plan.players pl).byLevel 0x0028)
  (orElse (entryCheck s pl (fld p 4 2))
    (if t = 0 then none
     else if t < now + 2 then some { status := 0x0013 }
     else if now + 2 ^ 32 < t then some (badParam 8)
     else none))))

/-- Effect of PLAYER_START: the player is armed for its start wave; without AT_SAMPLE two waves on, within the 4,096
samples of R171. -/
def playerStartEffect (_ : Nat) (p : List Byte) (s : State) : Effect :=
  let t : BitVec 64 := if fld p 8 8 = 0 then accWave s + 2 else BitVec.ofNat 64 (fld p 8 8)
  (onPlayer (byteAt p 0).toNat (fun q => { q with
    st := 1
    mode := (byteAt p 1).toNat
    entry := fld p 4 2
    loops := fld p 2 2
    pos := 0
    word := 0
    timed := decide (fld p 8 8 ≠ 0)
    kept := decide (fld p 8 8 ≠ 0) || (q.bound.isSome && q.bEntry == fld p 4 2)
    startAt := t }) s, some (le 8 t.toNat))

/-- PLAYER_START (0x0310). -/
def execPlayerStart (k : Fin 32) (s : State) : Host.Outcome State Fault Refusal :=
  .next (runKiosk 0x0310 k.val fwdAlways playerStartCheck playerStartEffect s)

/-- Checks of PLAYER_STOP. -/
def playerStopCheck (p : List Byte) (s : State) : Option Fail :=
  let pl := (byteAt p 0).toNat
  orElse (paramCheck ([(0, decide (pl < 64))] ++ zeroFrom p 1 3 ++ [lenIs p 4]))
    (failIf (playRec s pl).isNone 0x0004)

/-- Effect of PLAYER_STOP: a playing player stops at its first zero crossing or 96 samples on (R172); an armed one at
once. -/
def playerStopEffect (_ : Nat) (p : List Byte) (s : State) : Effect :=
  let w := nextWave s
  (onPlayer (byteAt p 0).toNat (fun q =>
    if q.st = 2 then { q with
      st := 3
      stopAt := w + 96
      byLevel := false }
    else if q.st = 1 then { q with
      st := 0
      word := 0 }
    else q) s, some (le 8 w.toNat))

/-- PLAYER_STOP (0x0311). -/
def execPlayerStop (k : Fin 32) (s : State) : Host.Outcome State Fault Refusal :=
  .next (runKiosk 0x0311 k.val fwdAlways playerStopCheck playerStopEffect s)

/-- Checks of PLAYER_STATUS. -/
def playerStatusCheck (p : List Byte) (_ : State) : Option Fail :=
  let f := (byteAt p 0).toNat
  let n := (byteAt p 1).toNat
  paramCheck ([(0, decide (f < 64)), (1, decide (1 ≤ n ∧ n ≤ 16 ∧ f + n ≤ 64))] ++ zeroFrom p 2 2 ++ [lenIs p 4])

/-- Effect of PLAYER_STATUS: 12 bytes for each player (R183). -/
def playerStatusEffect (_ : Nat) (p : List Byte) (s : State) : Effect :=
  (s, some ((List.range (byteAt p 1).toNat).flatMap fun k =>
    let q := tget {} s.plan.players ((byteAt p 0).toNat + k)
    le 1 q.st ++ zeros 1 ++ le 2 q.entry ++ le 4 q.pos ++ le 4 q.under.toNat))

/-- PLAYER_STATUS (0x0312). -/
def execPlayerStatus (k : Fin 32) (s : State) : Host.Outcome State Fault Refusal :=
  .next (runKiosk 0x0312 k.val fwdNever playerStatusCheck playerStatusEffect s)

/-- Checks of PLAYER_BIND: LEVEL 0xFF unbinds, and then names no entry to check. -/
def playerBindCheck (p : List Byte) (s : State) : Option Fail :=
  let pl := (byteAt p 0).toNat
  let un := byteAt p 1 == 0xFF
  let md := (byteAt p 3).toNat
  orElse (paramCheck [(0, decide (pl < 64)), (1, un || decide ((byteAt p 1).toNat < 16)),
      (2, decide ((byteAt p 2).toNat < 2)), (3, decide (md < 3)), (4, decide (fld p 4 2 < 1024)),
      (6, un || md != 1 || decide (0 < fld p 6 2)), lenIs p 8])
  (orElse (failIf (playRec s pl).isNone 0x0004) (if un then none else entryCheck s pl (fld p 4 2)))

/-- Effect of PLAYER_BIND: the player follows its level from the level's next activation on. -/
def playerBindEffect (_ : Nat) (p : List Byte) (s : State) : Effect :=
  (onPlayer (byteAt p 0).toNat (fun q =>
    if byteAt p 1 = 0xFF then { q with
      bound := none
      byLevel := false }
    else { q with
      bound := some (byteAt p 1).toNat
      stopOnRel := byteAt p 2 == 1
      bMode := (byteAt p 3).toNat
      bEntry := fld p 4 2
      bLoops := fld p 6 2 }) s, some [])

/-- PLAYER_BIND (0x0313). -/
def execPlayerBind (k : Fin 32) (s : State) : Host.Outcome State Fault Refusal :=
  .next (runKiosk 0x0313 k.val fwdAlways playerBindCheck playerBindEffect s)

end Sys2Proof.Machine
end

