-- ==== Sys2Proof/Machine/Lio.lean ====
section
/-! DEFINITION. Local audio ports, master clocks, the census of modules, and command family 0x07 (09 R293 to R308). -/

namespace Sys2Proof.Machine

/-! ### TDM frames (R293 to R297) -/

/-- A TDM group. -/
def groupAt (s : State) (g : Nat) : GroupS := tget {} s.lio.groups g

/-- A change of one group. -/
def onGroup (g : Nat) (f : GroupS → GroupS) (s : State) : State := s.onLio fun x => { x with groups := tmod {} x.groups g f }

/-- Slots of a frame by FORMAT at the running rate. -/
def frameSlots (s : State) (fmt : Nat) : Nat :=
  if fmt ≠ 0 then 2
  else match s.wave.rate with
    | some .r48 => 32
    | some .r96 => 16
    | some .r192 => 8
    | none => 0

/-- Index of slot `j` of port `p`: `p` x 32 + `j` (R296). -/
def slotIdx (p j : Nat) : Nat := p * 32 + j

/-- The word of a slot, of which the first WORD_IN bits are data (R295, 01 R29). -/
def slotIn (wordIn : Nat) (w : BitVec 32) : W36 := portIn wordIn (w.toNat / 2 ^ (32 - wordIn))

/-- A word narrowed to WORD_OUT bits, left-justified in its slot (R295). -/
def slotOut (wordOut : Nat) (z : W36) : BitVec 32 := BitVec.ofNat 32 (portOut wordOut z * 2 ^ (32 - wordOut))

/-- The slots of a group's frame: every port and slot below the count. -/
def tdmGroupSlots (s : State) (g fmt : Nat) : List Nat :=
  (List.range 4).flatMap fun i => (List.range (frameSlots s fmt)).map fun j => slotIdx (4 * g + i) j

/-- Words of a group latched at a tick, from the input frame that began one tick before (R295); `ws` gives slot words by
slot index. -/
def groupLatch (ws : List (Nat × BitVec 32)) (g : Nat) (s : State) : State :=
  let idle := s.onSig fun x => { x with
    latch := x.latch.filter fun p => !(codeKind p.1 == 1 && codeIdx p.1 / 128 == g) }
  match (groupAt s g).act with
  | none => idle
  | some (fmt, _, win, _) =>
    (tdmGroupSlots s g fmt).foldl (fun s i =>
      match ws.find? fun p => p.1 == i with
      | some p => s.onSig fun x => { x with latch := tput 0 x.latch (0x10000000 + i) (slotIn win p.2) }
      | none => s) idle

/-- The running plan feeds a TDM output slot. -/
def slotFed (s : State) (i : Nat) : Bool :=
  match s.plan.run with
  | some p => (sinkFeed p (0x90000000 + i)).isSome
  | none => false

/-- A group's output frame that begins at a tick (R295 to R297): the words now presented; zeros while no plan runs or
in HUSH; an unfed slot at high impedance with TRISTATE_UNUSED. -/
def groupFrame (g : Nat) (s : State) : State :=
  let q := groupAt s g
  let live := q.flags.getLsbD 0 && q.hold == 0 && s.wave.rate.isSome
  let s := onGroup g (fun q => { q with
    act := if live then some (q.fmt, q.flags, q.wordIn, q.wordOut) else none
    hold := q.hold - 1 }) s
  if live then
    let playing := s.plan.run.isSome && presenting s
    (tdmGroupSlots s g q.fmt).foldl (fun s i =>
      let w := if playing then slotOut q.wordOut (tget 0 s.sig.sinkNow (0x90000000 + i)) else 0
      let hz := playing && q.flags.getLsbD 3 && !slotFed s i
      s.onSig fun x => { x with
        tdmOut := tput 0 x.tdmOut i w
        tdmHz := if hz then x.tdmHz ++ [i] else x.tdmHz }) s
  else s

/-- Every group's output frame at a tick. -/
def tdmFrames (s : State) : State :=
  (List.range 4).foldl (fun s g => groupFrame g s) (s.onSig fun x => { x with
    tdmOut := []
    tdmHz := [] })

/-- No frame runs: the clocks of every group stop (R297). -/
def tdmStop (s : State) : State :=
  (List.range 4).foldl (fun s g => onGroup g (fun q => { q with act := none }) s) (s.onSig fun x => { x with
    tdmOut := []
    tdmHz := []
    latch := x.latch.filter fun p => codeKind p.1 != 1 })

/-- WORD_IN and WORD_OUT take 16, 24 or 32 (01 R29, R30). -/
def wordOk (w : Nat) : Bool := w == 16 || w == 24 || w == 32

/-- Checks of LIO_PORT_CONFIG (R308). -/
def lioPortConfigCheck (p : List Byte) (_ : State) : Option Fail :=
  paramCheck ([(0, decide (fld p 0 1 < 4)), (1, decide (fld p 1 1 < 2))] ++ onOp p 1 [(2, 1, decide (fld p 2 1 < 3)),
    (3, 1, decide (fld p 3 1 < 16)), (4, 1, wordOk (fld p 4 1)), (5, 1, wordOk (fld p 5 1))] ++ zeroFrom p 6 2 ++ [lenIs p 8])

/-- Effect of LIO_PORT_CONFIG: from the next frame; a format change of an enabled group holds its clocks low for two periods
first; a group that is enabled opens its gate (13 R416). -/
def lioPortConfigEffect (_ : Nat) (p : List Byte) (s : State) : Effect :=
  let g := fld p 0 1
  let q := groupAt s g
  let resp := p.take 2 ++ le 1 q.fmt ++ le 1 q.flags.toNat ++ le 1 q.wordIn ++ le 1 q.wordOut ++ zeros 2
  if byteAt p 1 = 1 then
    let flags := BitVec.ofNat 4 (fld p 3 1)
    let s := onGroup g (fun q => { q with
      fmt := fld p 2 1
      flags := flags
      wordIn := fld p 4 1
      wordOut := fld p 5 1
      hold := if q.flags.getLsbD 0 && fld p 2 1 != q.fmt && s.wave.rate.isSome then 2 else q.hold }) s
    (if flags.getLsbD 0 then openGate (1 + g) s else s, some resp)
  else (s, some resp)

/-- LIO_PORT_CONFIG (0x0701). -/
def execLioPortConfig (k : Fin 32) (s : State) : Host.Outcome State Fault Refusal :=
  .next (runKiosk 0x0701 k.val fwdNever lioPortConfigCheck lioPortConfigEffect s)

/-- Checks of LIO_MCLK_SET (R308). -/
def lioMclkSetCheck (p : List Byte) (_ : State) : Option Fail :=
  paramCheck ([(0, decide (fld p 0 1 < 4)), (1, decide (fld p 1 1 < 2))] ++ onOp p 1 [(2, 1, decide (fld p 2 1 < 4))]
    ++ [(3, byteAt p 3 == 0), lenIs p 4])

/-- MCLK output `k` runs (R298): it divides the media clock, so not without a rate, while MEDIAPLL has failed (13 R411), after
FATAL, or for 1 µs after a change of its frequency. -/
def mclkRuns (s : State) (k : Nat) : Bool :=
  tget 0 s.lio.mclk k != 0 && s.wave.rate.isSome && s.clk.lock.getLsbD 1 && !s.flt.fatal
    && decide (tget 0 s.lio.mclkLow k ≤ s.clk.now)

/-- Effect of LIO_MCLK_SET (R298): a change of frequency holds the output low for 1 µs at least; a non-zero frequency opens
gate 5 (13 R416). -/
def lioMclkSetEffect (_ : Nat) (p : List Byte) (s : State) : Effect :=
  let k := fld p 0 1
  let resp := p.take 2 ++ le 1 (tget 0 s.lio.mclk k) ++ zeros 1
  if byteAt p 1 = 1 then
    let s := if fld p 2 1 = tget 0 s.lio.mclk k then s else s.onLio fun x => { x with
      mclk := tput 0 x.mclk k (fld p 2 1)
      mclkLow := tput 0 x.mclkLow k (s.clk.now + 2) }
    (if byteAt p 2 = 0 then s else drivePin 2 (openGate 5 s), some resp)
  else (s, some resp)

/-- LIO_MCLK_SET (0x0702). -/
def execLioMclkSet (k : Fin 32) (s : State) : Host.Outcome State Fault Refusal :=
  .next (runKiosk 0x0702 k.val fwdNever lioMclkSetCheck lioMclkSetEffect s)

/-! ### The DMIR (R303, R304) -/

/-- Class in TYPE. -/
def dmirClass (b : List Byte) : Nat := fld b 10 2 / 4096

/-- The DMIR is a power stage's. -/
def dmirStage (b : List Byte) : Bool := dmirClass b == 4

/-- Bytes `o` to `o + n - 1` are 0. -/
def allZero (b : List Byte) (o n : Nat) : Bool := ((b.drop o).take n).all (· == 0)

/-- CRC32 is good (R304). -/
def dmirCrc (b : List Byte) : Bool := b.length == 256 && (crc32 (b.take 252)).toNat == fld b 252 4

/-- Every reserved field is 0. -/
def dmirClean (b : List Byte) : Bool :=
  allZero b 14 2 && if dmirStage b then
    allZero b 40 24 && (List.range 4).all fun k => allZero b (74 + 16 * k) 6
  else allZero b 41 23 && allZero b 64 64

/-- A DMIR is accepted, on I²C or on a drive link (R304). -/
def dmirOk (link : Bool) (b : List Byte) : Bool :=
  fld b 0 4 == 0x524D4944 && decide (0x0100 ≤ fld b 4 2 ∧ fld b 4 2 ≤ 0x01FF) && fld b 6 2 == 256 && dmirCrc b
    && (if link then dmirStage b else decide (1 ≤ dmirClass b ∧ dmirClass b ≤ 3)) && dmirClean b

/-- A module's DMIR has been accepted: VALID or MISMATCH. -/
def modOk (s : State) (m : Nat) : Bool := (modAt s m).st == 2 || (modAt s m).st == 5

/-- The other modules whose DMIR has been accepted. -/
def otherMods (s : State) (m : Nat) : List (List Byte) :=
  ((List.range 64).filter fun j => j != m && modOk s j).map fun j => (modAt s j).dmir

/-- FORMATS has the format of a port's group. -/
def formatOk (s : State) (b : List Byte) (port : Nat) : Bool :=
  port == 0xFF || bitOf (fld b 35 1) (groupAt s (port / 4)).fmt

/-- RATES has a rate. -/
def ratesHave (b : List Byte) (r : Rate) : Bool := bitOf (fld b 33 1) r.code

/-- RATES of a converter or a stage. -/
def ratesOk (s : State) (b : List Byte) : Bool :=
  match s.wave.rate with
  | some r => if dmirStage b then ratesHave b r else bitOf (fld b 34 1) r.code
  | none => true

/-- The positions that a stage lacks. -/
def stageLacks (b : List Byte) : BitVec 4 :=
  BitVec.ofNat 4 ((List.range 4).foldl (fun m k => if fld b 32 1 ≤ k then m + 2 ^ k else m) 0)

/-- A module with this accepted DMIR is MISMATCH as a whole, for another reason than the positions that it lacks (R304). -/
def dmirWhole (s : State) (m : Nat) (b : List Byte) : Bool :=
  let others := otherMods s m
  let convs := others.filter fun o => !dmirStage o
  !ratesOk s b
    || (!dmirStage b
        && (!formatOk s b (fld b 37 1) || !formatOk s b (fld b 38 1)
          || (fld b 37 1 != 0xFF && convs.any fun o => fld o 37 1 == fld b 37 1)
          || (fld b 38 1 != 0xFF && convs.any fun o => fld o 38 1 == fld b 38 1)))
    || others.any fun o => fld o 8 2 == fld b 8 2 && fld o 10 2 == fld b 10 2 && (o.drop 16).take 16 == (b.drop 16).take 16

/-- A module with this accepted DMIR is MISMATCH (R304). -/
def dmirMismatch (s : State) (m : Nat) (b : List Byte) : Bool :=
  dmirWhole s m b || (dmirStage b && stageLacks b != 0)

/-- Calibration of position `k` in a stage's DMIR. -/
def dmirCal (b : List Byte) (k : Nat) : Option CalP :=
  if k < fld b 32 1 then
    some { vLsb := fld b (64 + 16 * k) 4, iLsb := fld b (68 + 16 * k) 4, vOutFs := fld b (72 + 16 * k) 2 }
  else none

/-- A stage's calibration follows its state (R305). -/
def stageCal (l : Nat) (s : State) : State :=
  let m := modAt s (32 + l)
  (List.range 4).foldl (fun s k => onChan (4 * l + k) (fun q => { q with
    calDmir := if modOk s (32 + l) then dmirCal m.dmir k else none }) s) s

/-- Sets a sticky bit of LIO_STATUS. -/
def stickLio (i : Nat) (s : State) : State := s.onLio fun x => { x with sticky := x.sticky ||| BitVec.ofNat 6 (2 ^ i) }

/-- An accepted DMIR is compared with the running configuration: VALID, or MISMATCH with its NOTE. -/
def compareMod (m : Nat) (s : State) : State :=
  let b := (modAt s m).dmir
  if dmirMismatch s m b then
    let s' := onMod m (fun q => { q with
      st := 5
      missing := if dmirStage b ∧ dmirWhole s m b = false then stageLacks b else 0 }) s
    if (modAt s m).st = 5 then s' else raise 0x0703 m 0 (stickLio 4 s')
  else onMod m (fun q => { q with
    st := 2
    missing := 0 }) s

/-- A change of rate: every accepted module is compared again without a read (R306). -/
def compareAll (s : State) : State :=
  ((List.range 64).filter (modOk s)).foldl (fun s m => compareMod m s) s

/-- A DMIR has been read in full: it is checked and classed (R302, R304, R305). -/
def dmirRead (m : Nat) (b : List Byte) (s : State) : State :=
  let old := (modAt s m).serial
  let ser := (b.drop 16).take 16
  let ok := dmirOk (decide (32 ≤ m)) b
  let s := onMod m (fun q => { q with
    dmir := b
    readAt := sampleNow s
    retries := 0
    serial := ser }) s
  let s := if old != [] && old != ser then raise 0x0704 m 0 (stickLio 5 s) else s
  let s := if ok then compareMod m s else raise 0x0702 m 0 (stickLio 3 (onMod m (fun q => { q with st := 4 }) s))
  if 32 ≤ m then stageCal (m - 32) s else s

/-! ### I²C (R299, R300) -/

/-- A module of the run has been read, or cannot be: the run goes on. -/
def moduleDone (m : Nat) (s : State) : State :=
  censusEnd (s.onLio fun x => { x with
    probed := x.probed.filter (· != m)
    runLinks := x.runLinks.filter fun l => l + 32 != m })

/-- A module becomes UNREADABLE. -/
def unreadable (m : Nat) (s : State) : State := stickLio 2 (onMod m (fun q => { q with
  st := 3
  retries := 0 }) s)

/-- A full read of an I²C module starts. -/
def readStart (m : Nat) (s : State) : State := onMod m (fun q => { q with
  st := 1
  retries := 0 }) s

/-- One module at a probe of its bus: `ans` is what it answers, bytes 0 to 31 of its memory. In a run every module that
answers is read; between runs a change of presence or of SERIAL starts a read. A module that is being read ends its retries
first (R306). -/
def probeModule (run : Bool) (m : Nat) (ans : Option (List Byte)) (s : State) : State :=
  match ans with
  | none => onMod m (fun q => { q with
      st := if q.st = 1 then 1 else 0
      retries := if q.st = 1 then q.retries else 0 }) s
  | some b =>
    let q := modAt s m
    if run then (readStart m s).onLio fun x => { x with probed := x.probed ++ [m] }
    else if q.st = 0 ∨ (q.st ≠ 1 ∧ (b.drop 16).take 16 ≠ (q.dmir.drop 16).take 16) then readStart m s
    else s

/-- CENSUS_PROBE (R300): every address is probed, for a run that has started or 10 s after the last probe; `answers` lists
the modules that acknowledge, with their bytes 0 to 31. -/
def execCensusProbe (answers : List (Fin 32 × List Byte)) (s : State) : Host.Outcome State Fault Refusal :=
  let run := s.lio.busy && s.lio.probe
  if nolutDown s then .next s
  else if run || (!s.lio.busy && s.host.fwState == 5 && decide (s.lio.probeAt + 10000000 ≤ s.clk.now)) then
    let s := s.onLio fun x => { x with
      probe := x.probe && !run
      probeAt := s.clk.now }
    .next (censusEnd ((List.range 32).foldl (fun s m =>
      probeModule run m ((answers.find? fun a => a.1.val == m).map (·.2)) s) s))
  else .next s

/-- A read of a module has failed: it is tried again, up to 3 times (R300). -/
def readFailed (m : Nat) (s : State) : State :=
  if (modAt s m).retries < 3 then onMod m (fun q => { q with retries := q.retries + 1 }) s
  else moduleDone m (raise 0x0701 m 0 (unreadable m s))

/-- CENSUS_READ_COMPLETE (R300, R304): the 256 bytes of a module have been read; a bad CRC is a failed read. -/
def execCensusReadComplete (module : Fin 32) (bytes : List Byte) (s : State) : Host.Outcome State Fault Refusal :=
  let m := module.val
  if (modAt s m).st = 1 ∧ nolutDown s = false then .next (if dmirCrc bytes then moduleDone m (dmirRead m bytes s) else readFailed m s)
  else .next s

/-- CENSUS_READ_RETRY (R300): a NACK, or a clock stretch beyond 10 ms. -/
def execCensusReadRetry (module : Fin 32) (s : State) : Host.Outcome State Fault Refusal :=
  .next (if (modAt s module.val).st = 1 ∧ nolutDown s = false then readFailed module.val s else s)

/-- I2C_BUS_STUCK (R300): SDA has been low for 25 ms; `freed` tells whether 9 clocks and a stop have freed it. -/
def execI2cBusStuck (bus : Fin 4) (freed : Bool) (s : State) : Host.Outcome State Fault Refusal :=
  if freed then .next s
  else
    let s := raise 0x0705 (8 * bus.val) 0 (stickLio 1 s)
    .next ((List.range 8).foldl (fun s a => moduleDone (8 * bus.val + a) (unreadable (8 * bus.val + a) s)) s)

/-! ### Stages (R301) -/

/-- STAGE_DMIR_READ_COMPLETE (R301): all 256 bytes of a stage have come. -/
def execStageDmirReadComplete (link : Fin 32) (s : State) : Host.Outcome State Fault Refusal :=
  let l := link.val
  let b := (linkAt s l).dmir
  if (modAt s (32 + l)).st = 1 ∧ b.length = 256 ∧ nolutDown s = false then
    .next (moduleDone (32 + l) (dmirRead (32 + l) b (onLink l (fun k => { k with dmir := [] }) s)))
  else .next s

/-- STAGE_DMIR_RETRY (R301): an UNREADABLE stage is read again after 10 s while its link is up. -/
def execStageDmirRetry (link : Fin 32) (s : State) : Host.Outcome State Fault Refusal :=
  let l := link.val
  match (modAt s (32 + l)).retryAt with
  | some t => .next (if t ≤ s.clk.now ∧ (linkAt s l).up = true ∧ (modAt s (32 + l)).st = 3 ∧ nolutDown s = false then dmirStart l s else s)
  | none => .next s

/-! ### Census commands (R308) -/

/-- Checks of CENSUS_RUN. -/
def censusRunCheck (p : List Byte) (_ : State) : Option Fail :=
  paramCheck ([(0, decide (fld p 0 1 < 3))] ++ zeroFrom p 1 3 ++ [lenIs p 4])

/-- Effect of CENSUS_RUN: a run starts, or follows the one in progress (R306). -/
def censusRunEffect (_ : Nat) (p : List Byte) (s : State) : Effect :=
  let scope := if byteAt p 0 = 0 then 3 else fld p 0 1
  if s.lio.busy then (s.onLio fun x => { x with again := x.again ||| scope }, none)
  else (runStart scope s, none)

/-- CENSUS_RUN (0x0703). -/
def execCensusRun (k : Fin 32) (s : State) : Host.Outcome State Fault Refusal :=
  .next (runKiosk 0x0703 k.val fwdNever censusRunCheck censusRunEffect s)

/-- Effect of CENSUS_SUMMARY. -/
def censusSummaryEffect (_ : Nat) (_ : List Byte) (s : State) : Effect :=
  (s, some (le 8 (sampleNow s).toNat ++ (List.range 64).flatMap fun m => le 1 (modAt s m).st))

/-- CENSUS_SUMMARY (0x0704). -/
def execCensusSummary (k : Fin 32) (s : State) : Host.Outcome State Fault Refusal :=
  .next (runKiosk 0x0704 k.val fwdNever emptyReq censusSummaryEffect s)

/-- Checks of CENSUS_READ. -/
def censusReadCheck (p : List Byte) (_ : State) : Option Fail :=
  paramCheck [(0, decide (fld p 0 1 < 2)), (1, decide (fld p 1 1 < 32)), (2, decide (fld p 2 1 < 2)), (3, byteAt p 3 == 0),
    lenIs p 4]

/-- Effect of CENSUS_READ: half a DMIR as last read, zeros if it was never read. -/
def censusReadEffect (_ : Nat) (p : List Byte) (s : State) : Effect :=
  let m := modAt s (32 * fld p 0 1 + fld p 1 1)
  (s, some (le 1 m.st ++ zeros 3 ++ le 8 m.readAt.toNat ++ sized 128 (m.dmir.drop (128 * fld p 2 1))))

/-- CENSUS_READ (0x0705). -/
def execCensusRead (k : Fin 32) (s : State) : Host.Outcome State Fault Refusal :=
  .next (runKiosk 0x0705 k.val fwdNever censusReadCheck censusReadEffect s)

/-- The converter that declares a port for input or output: a VALID one before another, the lowest number first. -/
def portModule (s : State) (input : Bool) (port : Nat) : Option Nat :=
  let l := (List.range 32).filter fun m =>
    let b := (modAt s m).dmir
    (modAt s m).st != 0 && b != [] && !dmirStage b && fld b (if input then 37 else 38) 1 == port
  match l.find? fun m => (modAt s m).st == 2 with
  | some m => some m
  | none => l.head?

/-- What the census finds about a TDM slot of an image: REASON and MODULE. -/
def slotReason (s : State) (i : Image) (input : Bool) (code : Nat) : Option (Nat × Nat) :=
  let port := codeIdx code / 32
  let j := codeIdx code % 32
  match portModule s input port with
  | none => some (1, 0xFF)
  | some m =>
    let b := (modAt s m).dmir
    let first := fld b 39 1
    if (modAt s m).st ≠ 2 then some (2, m)
    else if j < first ∨ first + fld b (if input then 32 else 33) 1 ≤ j then some (3, m)
    else if !bitOf (fld b 34 1) i.rate.code then some (4, m)
    else if tdmSlots s i.rate port ≤ j then some (5, m)
    else none

/-- What the census finds about a drive channel of an image. -/
def stageReason (s : State) (i : Image) (code : Nat) : Option (Nat × Nat) :=
  let m := 32 + codeIdx code / 4
  let q := modAt s m
  if q.st = 0 then some (1, 0xFF)
  else if q.st ≠ 2 ∧ ¬ (q.st = 5 ∧ q.missing ≠ 0 ∧ q.missing.getLsbD (codeIdx code % 4) = false) then some (2, m)
  else if fld q.dmir 32 1 ≤ codeIdx code % 4 then some (3, m)
  else if !ratesHave q.dmir i.rate then some (4, m)
  else none

/-- The endpoint codes of sources that an image names. -/
def imageSources (i : Image) : List Nat :=
  (i.sources.map (·.src) ++ (i.wiring.map (·.prod)).filter fun c => decide (codeKind c < 3)).eraseDups

/-- The findings of CENSUS_PLAN_CHECK: code, REASON, MODULE. -/
def planFindings (s : State) (i : Image) : List (Nat × Nat × Nat) :=
  (((imageSources i).filter fun c => codeKind c == 1).filterMap fun c => (slotReason s i true c).map fun r => (c, r))
    ++ i.sinks.filterMap fun w =>
      if codeKind w.cons = 9 then (slotReason s i false w.cons).map fun r => (w.cons, r)
      else if codeKind w.cons = 10 then (stageReason s i w.cons).map fun r => (w.cons, r)
      else none

/-- Checks of CENSUS_PLAN_CHECK: an image whose header, CRC, directory or rate fails is not read (05 R162, steps 1 to
4). -/
def censusPlanCheckCheck (p : List Byte) (s : State) : Option Fail :=
  orElse (paramCheck ([(0, offsetOk (fld p 0 4))] ++ zeroFrom p 4 4 ++ [lenIs p 8]))
    (match (checkImage s (fld p 0 4)).bad with
     | some f => if f.step ≤ 4 then some { status := f.status, detail := f.step } else none
     | none => none)

/-- Effect of CENSUS_PLAN_CHECK: COUNT, and up to 16 findings. -/
def censusPlanCheckEffect (_ : Nat) (p : List Byte) (s : State) : Effect :=
  let l := planFindings s (checkImage s (fld p 0 4)).img
  (s, some (le 2 l.length ++ zeros 2 ++ (l.take 16).flatMap fun f => le 4 f.1 ++ le 1 f.2.1 ++ le 1 f.2.2 ++ zeros 2))

/-- CENSUS_PLAN_CHECK (0x0706). -/
def execCensusPlanCheck (k : Fin 32) (s : State) : Host.Outcome State Fault Refusal :=
  .next (runKiosk 0x0706 k.val fwdNever censusPlanCheckCheck censusPlanCheckEffect s)

/-! ### Registers (R307) -/

/-- A stage's DMIR is being read. -/
def stageReading (s : State) : Bool := (List.range 32).any fun l => (modAt s (32 + l)).st == 1

/-- LIO_STATUS. -/
def lioStatus (s : State) : BitVec 32 :=
  let en := (List.range 4).foldl (fun m g => m + b2n ((groupAt s g).flags.getLsbD 0) * 2 ^ g) 0
  let mc := (List.range 4).foldl (fun m k => m + b2n (mclkRuns s k) * 2 ^ k) 0
  BitVec.ofNat 32 (en * 2 ^ 16 + mc * 2 ^ 12 + b2n (s.lio.busy || stageReading s) * 2 ^ 6 + s.lio.sticky.toNat)

/-- LIO_PRESENT. -/
def lioPresent (s : State) : BitVec 32 :=
  BitVec.ofNat 32 ((List.range 32).foldl (fun m k => m + b2n ((modAt s k).st == 2) * 2 ^ k) 0)

end Sys2Proof.Machine
end

