-- ==== Sys2Proof/Machine/Twin.lean ====
section
/-! DEFINITION. Twin operation: claims, the Octot link, digests, joining, decisions and promotion (10 R309 to R340). -/

namespace Sys2Proof.Machine

/-! ### Claims (R311) -/

/-- The successor of a claim. -/
def claimSucc (c : BitVec 16) : BitVec 16 := if c = 0xFFFF then 1 else c + 1

/-- The predecessor of a claim. -/
def claimPred (c : BitVec 16) : BitVec 16 := if c = 1 then 0xFFFF else c - 1

/-- Claim `a` of unit `u` outranks claim `b` of the other unit. -/
def outranks (a : BitVec 16) (u : Bool) (b : BitVec 16) : Bool :=
  claimHigher a b || (((a - b).toNat == 0 || (a - b).toNat == 32768) && !u)

/-- The higher of two claims, 0 standing for none. -/
def claimMax (a b : BitVec 16) : BitVec 16 := if a = 0 then b else if b = 0 then a else if claimHigher b a then b else a

/-! ### Roles -/

/-- STATE becomes `st` in the wave in progress (R342). -/
def setTwin (st : Nat) (s : State) : State :=
  s.onTwin fun t => { t with
    state := st
    stateAt := sampleNow s }

/-- Bit `i` of the peer's FLAGS byte (R316). -/
def peerFlag (s : State) (i : Nat) : Bool := s.twin.peer.flags.getLsbD i

/-- The unit is a standby of a running pair: forwarded commands from its own host are turned away (R319). A unit that is
ALONE and runs no plan takes them. -/
def isStandby (s : State) : Bool := s.twin.pair && !s.twin.active && (s.twin.state != 1 || s.plan.run.isSome)

/-- What CONFIG_CRC covers (R323). -/
structure CfgView where
  /-- The plan image. -/
  plan : Option Image
  /-- Plan epoch. -/
  epoch : BitVec 32
  /-- Base node words. -/
  base : Tab (BitVec 32)
  /-- Overrides. -/
  ovr : Tab (Option (BitVec 32))
  /-- PRI bindings. -/
  bind : Tab (Option Bind)
  /-- Command-set levels. -/
  cmdSet : BitVec 16
  /-- Queue entries and held entries. -/
  queue : List QEntry
  /-- Scene schedules. -/
  scheds : List Sched
  /-- Y memory, section coefficients and chain tables, by Lane. -/
  lanes : List (Nat × Tab W36 × Tab Section × Tab (Option Chain))
  /-- AUDIO_ENABLE. -/
  audio : BitVec 32
  /-- Settings of the Load Monitors. -/
  chans : List (ThermP × PilotP × KerbP × ZP × Option CalP × Bool)
  /-- The message library. -/
  library : List Host.Cell

/-- A section's coefficients without its state. -/
def secCoefs (k : Section) : Section := { k with
  x1 := 0
  x2 := 0
  y1 := 0
  y2 := 0 }

/-- The unit's configuration (R323). -/
def cfgView (s : State) : CfgView where
  plan := s.plan.run
  epoch := s.plan.epoch
  base := s.xp.base
  ovr := s.xp.ovr
  bind := s.xp.bind
  cmdSet := s.xp.cmdSet
  queue := s.xp.queue
  scheds := s.xp.scheds
  lanes := s.lanes.map fun p => (p.1, p.2.cmt.y, p.2.cmt.sec.map fun q => (q.1, secCoefs q.2), p.2.cmt.chain)
  audio := s.drv.audio
  chans := (List.range 128).map fun c =>
    let q := chanAt s c
    (q.therm, q.pilot, q.kerb, q.z, q.calHost, q.hostMute)
  library := s.mat.mem.filter fun c => decide (libBase s ≤ c.1 ∧ c.1 < libBase s + libSize s)

end Sys2Proof.Machine

namespace Sys2Proof

/-- CONFIG_CRC of a configuration (10 R323): the CRC-32 over all of it; the spec gives no serial form. Log entry 14. -/
opaque Config.configCrc : Machine.CfgView → BitVec 32

end Sys2Proof

namespace Sys2Proof.Machine

/-- CONFIG_CRC of the unit. -/
def ownCrc (s : State) : BitVec 32 := Config.configCrc (cfgView s)

/-- RUN_IN begins (R323): it lasts max(S_max, 512) + N samples. -/
def enterRunIn (s : State) : State :=
  let sMax := match s.plan.run with
    | some i => (i.blocks.map (·.s)).foldl max 0
    | none => 0
  setTwin 3 (s.onTwin fun t => { t with
    runInEnd := sampleNow s + BitVec.ofNat 64 (max sMax 512 + timeoutOf s s.xp.stTimeout.toNat) })

/-- A join starts: CONFIG, or RUN_IN where CONFIG_CRC is already equal (R323). -/
def startJoin (s : State) : State :=
  let s := s.onTwin fun t => { t with
    active := false
    invalid := false
    joinFrom := none
    failed := false
    skewed := false
    fwdSeqIn := none
    seedLeft := []
    seedPut := [] }
  if s.twin.linkUp && peerFlag s 2 && s.twin.peer.cfgCrc == ownCrc s then enterRunIn s else setTwin 2 s

/-- A standby that has lost its place rejoins, with AUTO_REJOIN, or stays ALONE (R329). -/
def rejoin (s : State) : State :=
  if s.twin.autoRejoin then startJoin s
  else setTwin 1 (s.onTwin fun t => { t with
    active := false
    invalid := false
    joinFrom := none })

/-- The unit becomes the claimant with a claim. It sends one gratuitous ARP for each claimant address (R333). -/
def becomeClaimant (c : BitVec 16) (s : State) : State :=
  let s := s.onTwin fun t => { t with
    active := true
    claim := c
    invalid := false
    joinFrom := none
    decide := none
    dropAt := none }
  let s := (List.range 4).foldl (fun s p =>
    let q := portAt s p
    if q.twinIp = 0 then onPort p (fun q => { q with gone := false }) s
    else fwSend p 0 (arpFrame 0xFFFFFFFFFFFF q.twinMac q.twinIp 0 q.twinIp 1) (onPort p (fun q => { q with gone := true }) s)) s
  setTwin 7 s

/-- The roles of R314 for a unit whose run of plans has started and whose Octot link is up. -/
def startRoles (s : State) : State :=
  if s.twin.pair && s.twin.state == 1 && s.twin.joinFrom.isSome && s.twin.linkUp then
    if peerFlag s 2 then startJoin s
    else if s.twin.unit then startJoin s
    else becomeClaimant (if s.twin.highAcc = 0 then 1 else claimSucc s.twin.highAcc) s
  else s

/-- The claimant stands down to READY with its claim, which is now the predecessor of the new one; without a host swap it
drops the claim later (R313, R334). -/
def standDown (p : BitVec 64) (swap : Bool) (s : State) : State :=
  setTwin 6 (s.onTwin fun t => { t with
    active := false
    invalid := false
    yieldAt := none
    lastProm := p
    dropAt := if swap then none else some (p + 16) })

/-- The claim of the pair's claimant as this standby knows it. -/
def claimantClaim (s : State) : BitVec 16 :=
  if s.twin.state = 6 then claimSucc s.twin.claim else claimMax s.twin.peer.claim s.twin.highAcc

/-! ### Quorum (R336) -/

/-- The unit's drive links that are up with AUDIO_ENABLE 1. -/
def quorumLinks (s : State) : List Nat := (List.range 32).filter fun l => (linkAt s l).up && audioOn s l

/-- ACTIVE_CLAIM_LOST has been set for 8 consecutive accepted samples on all quorum links, or on ACL_QUORUM of them. -/
def quorumMet (s : State) : Bool :=
  let ls := quorumLinks s
  let n := (ls.filter fun l => decide (8 ≤ (linkAt s l).aclRun)).length
  !ls.isEmpty && decide ((if s.twin.quorum = 0 then ls.length else s.twin.quorum) ≤ n)

/-- A standby is promoted by quorum: READY, or PROMOTE_UNREADY set (R331). -/
def quorumPromote (s : State) : State :=
  let t := s.twin
  if t.pair && !t.active && t.promAt.isNone && (t.state == 6 || t.promUnready) && quorumMet s then
    s.onTwin fun t => { t with promAt := some (sampleNow s + 1, claimSucc (claimantClaim s), false) }
  else s

/-! ### The unit's own frame (R316, R321, R322) -/

/-- Bytes of the Z36 words that enter a digest (R321). -/
def digestBytes (l : List W36) : List Byte := l.flatMap fun w => le 5 w.toNat

/-- The words of a group in the sample presented now. -/
def groupWords (s : State) (g : Nat) : List W36 :=
  if g < 32 then (List.range 4).map fun k => (chanAt s (4 * g + k)).word
  else if g < 48 then (List.range 128).map fun k => tget 0 s.sig.sinkNow (txCode (128 * (g - 32) + k))
  else (List.range 32).map fun k => tget 0 s.sig.sinkNow (0x90000000 + 32 * (g - 48) + k)

/-- The digest of a group (R321). -/
def groupDigest (s : State) (g : Nat) : BitVec 32 := crc32 (digestBytes (groupWords s g))

/-- The expected played digest of a link for the sample four before `n` (R322); 0 where neither unit accepted its upstream
frame. -/
def expectDigest (s : State) (n : BitVec 64) (l : Nat) : BitVec 16 :=
  if (linkAt s l).lastSc = some ((n - 4).truncate 24) ∧ 4 ≤ n.toNat then
    let ws := (s.twin.words.getD 4 []).drop (4 * l)
    crc16 (packWords ((List.range 4).map fun k => if (chanAt s (4 * l + k)).muted then 0 else ws.getD k 0))
  else 0

/-- VERSION: silicon revision and firmware version (R316, log entry 30). -/
def unitVersion (s : State) : BitVec 32 := BitVec.ofNat 32 (0xB0 * 2 ^ 24 + s.host.fwVer.toNat % 2 ^ 24)

/-- ACL_LINKS: the stages that report ACTIVE_CLAIM_LOST (R316). -/
def aclLinks (s : State) : BitVec 32 :=
  BitVec.ofNat 32 ((List.range 32).foldl (fun m l =>
    if (linkAt s l).up && (linkAt s l).stage.getLsbD 1 then m + 2 ^ l else m) 0)

/-- A wave of the list lies within the last 264 waves of `n`. -/
def within264 (n : BitVec 64) (l : List (BitVec 64)) : Bool := l.any fun w => decide (n.toNat < w.toNat + 264)

/-- Words that a block mirrors (R324). -/
def mirrorWords (b : BlockRec) : Nat := if b.type = 3 then 2 * b.chIn else b.mirror

/-- A list of optional numbers in integer form. -/
def optInt (o : Option Int) : List Int :=
  match o with
  | some v => [1, v]
  | none => [0, 0]

/-- Where a short sequence stands, as a number. -/
def shortCode : ShortSt → Int
  | .none => 0
  | .holdOff => 1
  | .probe => 2
  | .waiting => 3

/-- The state of a number. -/
def shortOf (v : Int) : ShortSt := if v = 1 then .holdOff else if v = 2 then .probe else if v = 3 then .waiting else .none

/-- Values of a Load Monitor's seed item (R324, R325; log entry 31): thermal states, gains, impedance readings, diagnostic
latches, the short sequence and its timers. -/
def chanSeed (q : ChanS) : List Int :=
  [q.tvc, q.tm, q.pLast, (q.kTh : Int), (q.kPk : Int)] ++ optInt q.tMeas
  ++ [(b2n q.useMeas : Int), (q.far : Int), (b2n q.trip : Int), shortCode q.short, (q.shortAt.toNat : Int),
    (b2n q.hold : Int), (b2n q.probeBad : Int), (b2n q.open_ : Int), (b2n q.zWin : Int), (b2n q.diverge : Int),
    (b2n q.mismatch : Int), (q.noRead : Int), (b2n q.readOk : Int), (q.zMag : Int), q.zPhase, (q.reEst : Int),
    (q.shorts.toNat : Int), (q.probes.toNat : Int), (q.pilM : Int), (q.pilAt.toNat : Int)]
  ++ optInt (q.resume.map fun w => (w.toNat : Int)) ++ [q.pilV.1, q.pilV.2, q.pilI.1, q.pilI.2]

/-- One more thermal update of a channel, from a window's power and count of frames. -/
def thermReplay (s : State) (q : ChanS) (w : Nat × Int × Nat) : ChanS :=
  let h := q.winHist
  let r := thermStep s { q with
    winPow := w.2.1
    winM := w.2.2 }
  { r with
    kTh := stepDb r.kTh (thermTarget r)
    winPow := q.winPow
    winM := q.winM
    nextPow := q.nextPow
    nextM := q.nextM
    winHist := h }

/-- A Load Monitor item is installed: the state after update `u`, and every later update replayed (R325). -/
def chanInstall (s : State) (u : Nat) (v : List Int) (q : ChanS) : ChanS :=
  let i (k : Nat) : Int := v.getD k 0
  let n (k : Nat) : Nat := (i k).toNat
  let b (k : Nat) : Bool := i k != 0
  let r := { q with
    tvc := i 0
    tm := i 1
    pLast := i 2
    kTh := n 3
    kPk := n 4
    tMeas := if b 5 then some (i 6) else none
    useMeas := b 7
    far := n 8
    trip := b 9
    short := shortOf (i 10)
    shortAt := BitVec.ofNat 64 (n 11)
    hold := b 12
    probeBad := b 13
    open_ := b 14
    zWin := b 15
    diverge := b 16
    mismatch := b 17
    noRead := n 18
    readOk := b 19
    zMag := n 20
    zPhase := i 21
    reEst := n 22
    shorts := BitVec.ofNat 16 (n 23)
    probes := BitVec.ofNat 16 (n 24)
    pilM := n 25
    pilV := (i 29, i 30)
    pilI := (i 31, i 32)
    pilAt := BitVec.ofNat 64 (n 26)
    resume := if b 27 then some (BitVec.ofNat 64 (n 28)) else none }
  ((q.winHist.filter fun w => decide (u < w.1)).reverse).foldl (thermReplay s) r

/-- Values of a player's seed item (R324, R325). -/
def playSeed (q : PlayerS) : List Int :=
  [(q.st : Int), (q.mode : Int), (q.entry : Int), (q.loops : Int), (q.pos : Int), (q.startAt.toNat : Int),
    (q.stopAt.toNat : Int), (b2n q.byLevel : Int)]

/-- A player goes on by one sample by its own rules (05 R171, R172). -/
def playOn (s : State) (q : PlayerS) : PlayerS :=
  if q.st = 2 ∨ q.st = 3 then
    if q.pos + 1 < libSamples s q.entry then { q with pos := q.pos + 1 }
    else if q.st = 2 ∧ q.mode = 2 then { q with pos := 0 }
    else if q.st = 2 ∧ q.mode = 1 ∧ 1 < q.loops then { q with
      pos := 0
      loops := q.loops - 1 }
    else { q with
      st := 0
      loops := 0
      byLevel := false }
  else q

/-- A player item is installed: the state at the end of wave `w`, advanced to the present (R325). -/
def playInstall (s : State) (w : BitVec 64) (v : List Int) (q : PlayerS) : PlayerS :=
  let n (k : Nat) : Nat := (v.getD k 0).toNat
  let r := { q with
    st := n 0
    mode := n 1
    entry := n 2
    loops := n 3
    pos := n 4
    startAt := BitVec.ofNat 64 (n 5)
    stopAt := BitVec.ofNat 64 (n 6)
    byLevel := n 7 != 0 }
  (List.range (s.wave.count.toNat - w.toNat)).foldl (fun q _ => playOn s q) r

/-- The items that bring a joiner's state to the claimant's (R324): TYPE and number. -/
def seedItems (s : State) : List (Nat × Nat) :=
  let bs := match s.plan.run with
    | some i => ((laneBlocks i).filter fun b => mirrorWords b != 0).map fun b => (2, b.id)
    | none => []
  bs ++ ((List.range 192).map fun k => (4, k))

/-- The seed item of the claimant's frame of sample `n`: one in each frame, in turn, each again no earlier than 16 waves
later (R325, log entry 31). -/
def seedRec (s : State) (n : BitVec 64) : List FwdRec :=
  let l := seedItems s
  match l[n.toNat % max 16 l.length]? with
  | some (2, id) =>
    let m := match s.plan.run.bind fun i => imgBlock i id with
      | some b => mirrorWords b
      | none => 0
    [{ type := 2
       code := id
       wave := n
       vals := (List.range m).map fun k => (tget 0 (laneAt s (0x4000 + id)).cmt.x (0x100 + k)).toInt }]
  | some (_, k) =>
    if k < 128 then [{ type := 4
                       code := k
                       wave := BitVec.ofNat 64 s.drv.thermWin
                       vals := chanSeed (chanAt s k) }]
    else [{ type := 4
            code := k
            wave := n
            vals := playSeed (tget {} s.plan.players (k - 128)) }]
  | none => []

/-- The accepted upstream frames that the frame of sample `n` forwards (R320). -/
def upRecs (s : State) (n : BitVec 64) : List FwdRec :=
  ((List.range 32).filter fun l => (linkAt s l).fwd != [] && (linkAt s l).lastGood == (n - 1).truncate 32).map fun l =>
    { type := 3, code := l, wave := n, bytes := (linkAt s l).fwd }

/-- The header of the Octot frame of sample `n`, and its records, in the order of R316. Content accepted in wave a goes
into the frame of sample a + 1 (R319). -/
def ownFrame (n : BitVec 64) (yielding : Bool) (s : State) : OctHdr :=
  let t := s.twin
  let due := t.fwdOut.filter fun r => decide (r.wave.toNat ≤ n.toNat + 1)
  let seeds := if t.active && t.linkUp && t.peer.state == 4 then seedRec s n else []
  { flags := BitVec.ofNat 8 (b2n t.unit + 2 * b2n (holdsClaim s) + 4 * b2n t.active + 8 * b2n yielding
      + 16 * b2n (within264 n t.faultWaves) + 32 * b2n (within264 n t.auditWaves) + 64 * b2n t.ahead
      + 128 * b2n t.unresolved)
    state := t.state
    sample := n
    claim := claimNow s
    fwdSeq := t.fwdSeqOut
    epoch := s.plan.epoch
    buildId := match s.plan.run with
      | some i => i.buildId
      | none => 0
    version := unitVersion s
    rate := rateCode s
    acl := aclLinks s
    cfgCrc := ownCrc s
    digests := (List.range 64).map (groupDigest s)
    expect := (List.range 32).map (expectDigest s n)
    recs := (due.filter fun r => r.type == 1) ++ (seeds.filter fun r => r.type == 2) ++ upRecs s n
      ++ (seeds.filter fun r => r.type == 4) ++ (due.filter fun r => r.type == 5) }

/-- Bytes 0 to 367 of an Octot frame of `len` bytes (R316). -/
def octHeader (len : Nat) (h : OctHdr) : List Byte :=
  le 4 0x4F435431 ++ le 2 len ++ le 1 h.flags.toNat ++ le 1 h.state ++ le 8 h.sample.toNat ++ le 2 h.claim.toNat
    ++ le 2 h.fwdSeq.toNat ++ le 4 h.epoch.toNat ++ le 8 h.buildId.toNat ++ le 4 h.version.toNat ++ le 1 h.rate ++ zeros 3
    ++ le 4 h.acl.toNat ++ le 4 h.cfgCrc.toNat ++ h.digests.flatMap (fun d => le 4 d.toNat)
    ++ h.expect.flatMap (fun d => le 2 d.toNat)

/-- The fields of a received header (R316). -/
def octParse (b : List Byte) (recs : List FwdRec) : OctHdr where
  flags := byteAt b 6
  state := fld b 7 1
  sample := BitVec.ofNat 64 (fld b 8 8)
  claim := BitVec.ofNat 16 (fld b 16 2)
  fwdSeq := BitVec.ofNat 16 (fld b 18 2)
  epoch := BitVec.ofNat 32 (fld b 20 4)
  buildId := BitVec.ofNat 64 (fld b 24 8)
  version := BitVec.ofNat 32 (fld b 32 4)
  rate := fld b 36 1
  acl := BitVec.ofNat 32 (fld b 40 4)
  cfgCrc := BitVec.ofNat 32 (fld b 44 4)
  digests := (List.range 64).map fun g => BitVec.ofNat 32 (fld b (48 + 4 * g) 4)
  expect := (List.range 32).map fun l => BitVec.ofNat 16 (fld b (304 + 2 * l) 2)
  recs := recs

/-- A yield is asked for, from the frame of the next sample on (R331). -/
def yieldSoon (swap : Bool) (s : State) : State :=
  if s.twin.pair && s.twin.active && s.twin.yieldAt.isNone then
    s.onTwin fun t => { t with
      yieldAt := some (sampleNow s + 1)
      swapDue := swap }
  else s

/-- The twin at the tick of sample `n`, after the sinks and the links: the lanes' periods, the words kept for R322, the
frame that begins, and a yield that is due (R316, R317, R331). -/
def twinTick (n : BitVec 64) (s : State) : State :=
  if s.twin.pair && !s.flt.fatal then
    let s := s.onTwin fun t =>
      let lane (k : Nat) (t : TwinS) : TwinS :=
        if t.heard.getLsbD k then { t with laneBad := tput 0 t.laneBad k 0 }
        else { t with
          laneBad := tput 0 t.laneBad k (min 8 (tget 0 t.laneBad k + 1))
          laneGood := tput 0 t.laneGood k 0 }
      let t := lane 1 (lane 0 t)
      { t with
        heard := 0
        heardAt := none
        words := (((List.range 128).map fun c => (chanAt s c).word) :: t.words).take 5 }
    let due := match s.twin.yieldAt with
      | some w => s.twin.active && decide (w.toNat ≤ n.toNat)
      | none => false
    let ready := s.twin.linkUp && s.twin.peer.state == 6
    let s := if due && !s.twin.linkUp && s.twin.peerReady then s.onTwin fun t => { t with invalid := true } else s
    let h := ownFrame n (due && ready) s
    s.onTwin fun t => { t with
      own := h
      yieldAt := if due then none else t.yieldAt
      promAt := if due && ready then some (n + 1, claimSucc t.claim, t.swapDue) else t.promAt
      fwdSeqOut := t.fwdSeqOut + BitVec.ofNat 16 (h.recs.filter fun r => r.type == 1 || r.type == 5).length
      fwdOut := t.fwdOut.filter fun r => decide (n.toNat + 1 < r.wave.toNat) }
  else s

/-! ### The Octot link (R317, R335, R337) -/

/-- A decision record is kept, newest first (R347). -/
def keepRecord (d : Decision) (s : State) : State := s.onTwin fun t => { t with records := (d :: t.records).take 8 }

/-- The Octot link is lost (R335): a decision in progress is abandoned, a unit that joins is ALONE again. -/
def octLost (s : State) : State :=
  let s := raise 0x0802 0 0 (s.onTwin fun t => { t with
    linkUp := false
    octLoss := true
    octLosses := satAdd t.octLosses 1
    peerReady := t.peer.state == 6
    fwdSeqIn := none
    skewRun := 0 })
  let s := match s.twin.decide with
    | some d => keepRecord { d with outcome := 4 } (s.onTwin fun t => { t with decide := none })
    | none => s
  if 2 ≤ s.twin.state ∧ s.twin.state ≤ 5 then
    setTwin 1 (s.onTwin fun t => { t with
      failed := true
      joinAt := s.clk.now })
  else s

/-- The claimant has seen that it must stand down, after a promotion in wave `p`: it does so in the next wave (R313). -/
def stopSoon (p : BitVec 64) (swap split : Bool) (s : State) : State :=
  if s.twin.active && s.twin.stopAt.isNone then s.onTwin fun t => { t with stopAt := some (sampleNow s + 1, p, swap, split) }
  else s

/-- A stand-down that is due in wave `n` acts (R313); after split-brain the unit rejoins at CONFIG (R337). -/
def stopTake (n : BitVec 64) (s : State) : State :=
  match s.twin.stopAt with
  | some (w, p, swap, split) =>
    if w.toNat ≤ n.toNat then
      let s := s.onTwin fun t => { t with stopAt := none }
      if !s.twin.active then s
      else if split then
        setTwin 2 (s.onTwin fun t => { t with
          active := false
          invalid := false
          fwdSeqIn := none })
      else standDown p swap s
    else s
  | none => s

/-- Split-brain is resolved (R337): the unit whose claim outranks stays the claimant, the other stands down. -/
def splitBrain (peerWins : Bool) (s : State) : State :=
  let s := raise 0x0807 0 0 (s.onTwin fun t => { t with split := true })
  if peerWins then stopSoon (sampleNow s) false true s else s

/-- The Octot link comes up. -/
def octUp (s : State) : State :=
  let s := endCond 0x0802 0 (s.onTwin fun t => { t with
    linkUp := true
    skewRun := 256 })
  let s := if s.twin.active && peerFlag s 2 then
      splitBrain (outranks s.twin.peer.claim (peerFlag s 0) s.twin.claim) s else s
  let s := if s.twin.state == 6 && peerFlag s 6 then setTwin 2 s else s
  startRoles s

/-- The conditions of R317 hold. -/
def octGood (s : State) : Bool :=
  let t := s.twin
  t.pair && t.laneUp != 0 && t.peer.state != 0 && !t.conflict && t.peer.version == unitVersion s
    && t.peer.rate == rateCode s && s.wave.counterValid

/-- The Octot link is judged again. -/
def octEval (s : State) : State :=
  if octGood s && !s.twin.linkUp then octUp s
  else if !octGood s && s.twin.linkUp then octLost s
  else s

/-! ### Receiving a frame -/

/-- SAMPLE is compared (R318). -/
def skewCheck (equal : Bool) (s : State) : State :=
  if equal then
    let s := s.onTwin fun t => { t with skewRun := min 256 (t.skewRun + 1) }
    if s.twin.skewed && s.twin.skewRun == 256 then startJoin s else s
  else
    let s := raise 0x0803 0 0 (s.onTwin fun t => { t with skewRun := 0 })
    if s.twin.pair && !s.twin.active && s.twin.state == 6 then
      setTwin 1 (s.onTwin fun t => { t with skewed := true })
    else s

/-- A gap in FWD_SEQ makes a unit leave READY, or start its join again (R319). -/
def seqCheck (h : OctHdr) (s : State) : State :=
  let k := (h.recs.filter fun r => r.type == 1 || r.type == 5).length
  if k = 0 then s
  else
    let gap := match s.twin.fwdSeqIn with
      | some e => e != h.fwdSeq
      | none => false
    let s := if gap && !s.twin.active && decide (2 ≤ s.twin.state) then rejoin s else s
    s.onTwin fun t => { t with fwdSeqIn := some (h.fwdSeq + BitVec.ofNat 16 k) }

/-- The Load Monitor gives back what it took from a frame of the sample it took last. -/
def monitorBack (l : Nat) (f : List Byte) (s : State) : State :=
  let s := onLink l (fun k => { k with lastSc := none }) s
  let n := frameSample s f
  (List.range 4).foldl (fun s k => onChan (4 * l + k) (fun q =>
    let v := sgn 24 (fldBe f (12 + 3 * k) 3)
    let i := sgn 24 (fldBe f (24 + 3 * k) 3)
    pilotAdd s true n v i (windowAdd true s.drv.thermWin n (v * i) q)) s) s

/-- The peer's copy of an upstream frame (R320): used where the unit has no frame of that sample; where both have one and
they differ, both use that of unit 0. -/
def peerUpstream (r : FwdRec) (s : State) : State :=
  let l := r.code
  let sc := BitVec.ofNat 24 (fldBe r.bytes 1 3)
  let k := linkAt s l
  if r.bytes.length = 38 ∧ l < 32 ∧ scRecent s sc.toNat then
    if k.lastSc = some sc then
      if s.twin.unit && k.fwd != r.bytes && fldBe k.fwd 1 3 == sc.toNat then monitorFrame l r.bytes (monitorBack l k.fwd s)
      else s
    else monitorFrame l r.bytes s
  else s

/-- A seed item leaves the list of those still to be installed; with the last, CONVERGE begins (R323, R325). -/
def seedDone (item : Nat × Nat) (s : State) : State :=
  let l := s.twin.seedLeft.filter (· != item)
  let s := s.onTwin fun t => { t with seedLeft := l }
  if s.twin.state = 4 ∧ l = [] then setTwin 5 (s.onTwin fun t => { t with convRun := 0 }) else s

/-- The Lanes of a block that have not yet begun wave j and hold still (R325, R339). -/
def seedLanes (id : Nat) (s : State) : List Nat :=
  let ks := laneCopies s id
  if (ks.all fun k => (laneAt s k).slot == 0 && (laneAt s k).phase == .run)
    && !(s.place.moving.any fun m => m.work == 0x4000 + id || m.work == 0x5000 + id) then ks else []

/-- A seed item arrives at a joiner in SEED (R325). A block item acts on the wave j it carries, while the tile waits. -/
def seedTake (r : FwdRec) (s : State) : State :=
  if s.twin.state = 4 ∧ s.twin.seedLeft.contains (r.type, r.code) = true then
    if r.type = 2 then
      let ks := seedLanes r.code s
      if s.wave.live && r.wave == s.wave.num && !s.twin.seedOver.contains r.code && !ks.isEmpty then
        let s := ks.foldl (fun s k => onLane k (fun l => { l with cur := { l.cur with
          x := (List.range r.vals.length).foldl (fun t i =>
            tput 0 t (0x100 + i) (BitVec.ofInt 36 (r.vals.getD i 0))) l.cur.x } }) s) s
        s.onTwin fun t => { t with seedPut := r.code :: t.seedPut }
      else s
    else if r.code < 128 then
      seedDone (r.type, r.code) (onChan r.code (fun q => chanInstall s r.wave.toNat r.vals q) s)
    else
      seedDone (r.type, r.code) (onPlayer (r.code - 128) (fun q => playInstall s r.wave r.vals q) s)
  else s

/-- At the end of a wave: a block item is installed when its tile has completed wave j; the waits end (R325). -/
def seedSettle (s : State) : State :=
  let l := s.twin.seedPut.filter fun id => s.wave.done.contains (0x4000 + id)
  let s := s.onTwin fun t => { t with
    seedPut := []
    seedOver := [] }
  l.foldl (fun s id => seedDone (2, id) s) s

/-- One record of the peer's frame (R316). Forwarded content waits for its wave. -/
def recTake (s : State) (r : FwdRec) : State :=
  if r.type = 3 then peerUpstream r s
  else if r.type = 2 ∨ r.type = 4 then seedTake r s
  else if (r.type = 1 ∨ r.type = 5) ∧ (2 ≤ s.twin.state ∨ r.code = 0x0806) then
    s.onTwin fun t => { t with fwdIn := t.fwdIn ++ [{ r with kiosk := 32 }] }
  else s

/-- The groups in which two frames of one sample differ (R322). -/
def mismatchGroups (a b : OctHdr) : List Nat :=
  (List.range 64).filter fun g => a.digests.getD g 0 != b.digests.getD g 0

/-- A promotion is in progress in sample `n`: one is due, or the last is at most 16 waves old (R339). -/
def promBusy (n : BitVec 64) (s : State) : Bool :=
  s.twin.promAt.isSome || (s.twin.lastProm != 0 && decide (s.twin.lastProm.toNat ≤ n.toNat ∧ n.toNat ≤ s.twin.lastProm.toNat + 16))

/-- A mismatch that is recorded and not decided joins the last record of its kind when that is at most 8 samples old
(R347). -/
def recordOnly (outcome : Nat) (d : Decision) (s : State) : State :=
  match s.twin.records with
  | r :: t =>
    if r.outcome = outcome ∧ d.sample.toNat ≤ r.sample.toNat + 8 ∧ r.sample.toNat ≤ d.sample.toNat then
      s.onTwin fun w => { w with records := { r with groups := r.groups ||| d.groups } :: t }
    else keepRecord { d with outcome := outcome } s
  | [] => keepRecord { d with outcome := outcome } s

/-- A mismatch in sample `n` (R322, R326, R328, R339). -/
def mismatchTake (h : OctHdr) (gs : List Nat) (s : State) : State :=
  let g0 := gs.headD 0
  let mask := BitVec.ofNat 64 (gs.foldl (fun m g => m + 2 ^ g) 0)
  let d : Decision := {
    sample := h.sample
    groups := mask
    active := s.twin.active
    ownDig := s.twin.own.digests.getD g0 0
    peerDig := h.digests.getD g0 0 }
  let converging := s.twin.state == 5 || (s.twin.active && h.state == 5)
  let paired := (s.twin.active && h.state == 6) || (s.twin.state == 6 && h.flags.getLsbD 2)
  let s := s.onTwin fun t => { t with
    mismatch := true
    mismatches := satAdd t.mismatches 1
    matchRun := 0
    convRun := 0 }
  if converging then recordOnly 5 d s
  else
    match s.twin.decide with
    | some e =>
      if h.sample.toNat ≤ e.sample.toNat + 8 then s.onTwin fun t => { t with
        decide := some { e with groups := e.groups ||| mask }
        misAt := h.sample :: t.misAt }
      else s
    | none =>
      if promBusy h.sample s then recordOnly 4 d s
      else if paired && !s.twin.unresolved then s.onTwin fun t => { t with
        decide := some d
        misAt := [h.sample] }
      else s

/-- Played digests of the sample four before that of the frame (R328 step 2). -/
def playedTake (h : OctHdr) (s : State) : State :=
  match s.twin.decide with
  | some d =>
    let m := h.sample - 4
    if s.twin.misAt.contains m then
      let part (l : Nat) : Bool := (linkAt s l).accFlags.getLsbD 1 && (linkAt s l).lastSc == some (m.truncate 24)
        && s.twin.own.expect.getD l 0 != h.expect.getD l 0
        && s.twin.own.expect.getD l 0 != 0 && h.expect.getD l 0 != 0
      let bits (f : Nat → Bool) : BitVec 32 :=
        BitVec.ofNat 32 ((List.range 32).foldl (fun v l => if part l && f l then v + 2 ^ l else v) 0)
      s.onTwin fun t => { t with decide := some { d with
        agOwn := d.agOwn ||| bits fun l => (linkAt s l).played == t.own.expect.getD l 0
        agPeer := d.agPeer ||| bits fun l => (linkAt s l).played == h.expect.getD l 0 } }
    else s
  | none => s

/-- Digests are compared (R322). -/
def digestTake (h : OctHdr) (s : State) : State :=
  if h.state = 5 ∨ h.state = 6 ∨ h.flags.getLsbD 2 = true then
    let gs := mismatchGroups s.twin.own h
    let s := playedTake h s
    if gs = [] then s.onTwin fun t => { t with
      matchRun := satAdd t.matchRun 1
      convRun := if t.state = 5 then t.convRun + 1 else t.convRun }
    else mismatchTake h gs s
  else s

/-- The peer's flags act: its claim outranks (R313), it yields (R331), or it has cleared CONFIG_AHEAD's cause (R335). -/
def flagsTake (h : OctHdr) (s : State) : State :=
  let s := if s.twin.active && h.flags.getLsbD 2 && outranks h.claim (h.flags.getLsbD 0) s.twin.claim then
      let swap := !quorumMet s && !s.twin.own.flags.getLsbD 4
      stopSoon h.sample swap false s
    else s
  let s := if h.flags.getLsbD 3 && s.twin.state == 6 && !s.twin.active && s.twin.promAt.isNone then
      s.onTwin fun t => { t with promAt := some (h.sample + 1, claimSucc h.claim, false) }
    else s
  let s := if s.twin.active && s.twin.ahead && (h.state == 3 || h.state == 4 || h.state == 5) && h.cfgCrc == ownCrc s then
      s.onTwin fun t => { t with ahead := false }
    else s
  if s.twin.state = 2 ∧ h.flags.getLsbD 2 = true ∧ h.cfgCrc = ownCrc s ∧ (s.twin.fwdIn.all fun r => r.type != 6) then
    enterRunIn (s.onPlan fun p => { p with epoch := h.epoch })
  else s

/-- The first good copy of a frame (R315 to R320). -/
def octTake (h : OctHdr) (s : State) : State :=
  let same := h.flags.getLsbD 0 == s.twin.unit
  let told := s.twin.conflict
  let s := s.onTwin fun t => { t with
    peer := h
    heardAt := some h.sample
    conflict := same }
  let s := if same && !told then raise 0x0808 0 0 s else s
  let s := octEval s
  if s.twin.linkUp then
    let equal := h.sample == s.twin.own.sample
    let s := skewCheck equal s
    let s := h.recs.foldl recTake (seqCheck h s)
    let s := if equal then digestTake h s else s
    startRoles (flagsTake h s)
  else s

/-- OCTOT_FRAME_RECEIVE (R315 to R320): a frame on a lane, with a good CRC or not, as its first 368 bytes and its
records. The header and the records of TYPE 1 to 5 are taken from the first good copy, those of TYPE 6 from every one. In
SINGLE mode the link is ignored (R309). -/
def execOctotFrameReceive (lane : Fin 2) (good : Bool) (header : List Byte) (recs : List FwdRec) (s : State) :
    Host.Outcome State Fault Refusal :=
  let k := lane.val
  if s.twin.pair then
    if good && fld header 0 4 == 0x4F435431 && header.length == 368 then
      let h := octParse header (recs.filter fun r => r.type != 6)
      let s := s.onTwin fun t => { t with
        heard := t.heard ||| BitVec.ofNat 2 (2 ^ k)
        laneGood := tput 0 t.laneGood k (min 16 (tget 0 t.laneGood k + 1)) }
      let s := if 16 ≤ tget 0 s.twin.laneGood k then
          s.onTwin fun t => { t with laneUp := t.laneUp ||| BitVec.ofNat 2 (2 ^ k) } else s
      let s := if s.twin.state = 2 then s.onTwin fun t => { t with
          fwdIn := t.fwdIn ++ (recs.filter fun r => r.type == 6).map fun r => { r with kiosk := 32 } } else s
      .next (if s.twin.heardAt = some h.sample then octEval s else octTake h s)
    else .next (s.onTwin fun t => { t with laneGood := tput 0 t.laneGood k 0 })
  else .next s

/-- OCTOT_LANE (R317): a lane without a good frame for 8 periods is lost. -/
def execOctotLane (lane : Fin 2) (s : State) : Host.Outcome State Fault Refusal :=
  let k := lane.val
  if s.twin.laneUp.getLsbD k = true ∧ 8 ≤ tget 0 s.twin.laneBad k then
    .next (octEval (raise 0x0801 k 0 (s.onTwin fun t => { t with
      laneUp := t.laneUp &&& ~~~ (BitVec.ofNat 2 (2 ^ k)) })))
  else .next s

/-! ### Upstream frames and the twin (R313, R314, R336) -/

/-- What a stage's report of its accepted input tells the unit. -/
def stageTells (l : Nat) (s : State) : State :=
  let k := linkAt s l
  if s.twin.pair && k.accFlags.getLsbD 1 then
    let s := s.onTwin fun t => { t with highAcc := claimMax t.highAcc k.accClaim }
    let peers := k.up && k.accFlags.getLsbD 0 != s.twin.unit
    let s := if peers && !s.twin.linkUp && s.twin.joinFrom.isSome then s.onTwin fun t => { t with stay := true } else s
    if peers && s.twin.active && outranks k.accClaim (k.accFlags.getLsbD 0) s.twin.claim then
      if s.twin.stopAt.isSome then s
      else if s.twin.linkUp then stopSoon (sampleNow s) (!quorumMet s && !s.twin.own.flags.getLsbD 4) false s
      else splitBrain true s
    else s
  else s

/-- UPSTREAM_FRAME_RECEIVE (07 R226; R313, R314, R336): the engine's port receives an upstream frame, positions 1 to 48,
with its comma at position 0 or not. -/
def execUpstreamFrameReceive (link : Fin 32) (comma : Bool) (frame : List Byte) (s : State) :
    Host.Outcome State Fault Refusal :=
  .next (quorumPromote (stageTells link.val (upstreamFrame link.val comma frame s)))

/-! ### Start, joining -/

/-- TWIN_START_WAIT (R314): at the end of the wait with the Octot link down the unit becomes the claimant, unless a stage
has reported an accepted input of the peer. -/
def execTwinStartWait (s : State) : Host.Outcome State Fault Refusal :=
  match s.twin.joinFrom with
  | some t0 =>
    let wait := s.twin.startWait * 100000 * (if s.twin.unit then 2 else 1)
    if s.twin.pair = true ∧ s.twin.state = 1 ∧ s.twin.linkUp = false ∧ s.twin.stay = false ∧ t0 + wait ≤ s.clk.now
        ∧ nolutDown s = false then
      .next (becomeClaimant (if s.twin.highAcc = 0 then 1 else claimSucc s.twin.highAcc) s)
    else .next s
  | none => .next s

/-- TWIN_RUN_IN_END (R323): SEED begins. -/
def execTwinRunInEnd (s : State) : Host.Outcome State Fault Refusal :=
  if s.twin.state = 3 ∧ s.twin.runInEnd.toNat ≤ (sampleNow s).toNat then
    .next (setTwin 4 (s.onTwin fun t => { t with
      joinAt := s.clk.now
      seedPut := []
      seedLeft := seedItems s }))
  else .next s

/-- SEED_ITEM_TIMEOUT (R325): the words of a block's item have not arrived within 2.0 us of the launch; the tile computes
the wave without them. -/
def execSeedItemTimeout (block : Fin 1024) (s : State) : Host.Outcome State Fault Refusal :=
  if s.twin.state = 4 ∧ s.twin.seedLeft.contains (2, block.val) = true ∧ s.twin.seedPut.contains block.val = false then
    .next (s.onTwin fun t => { t with seedOver := block.val :: t.seedOver })
  else .next s

/-- TWIN_READY (R326): after 4,800 samples without a mismatch the joiner takes the predecessor of the claimant's claim. -/
def execTwinReady (s : State) : Host.Outcome State Fault Refusal :=
  if s.twin.state = 5 ∧ s.twin.linkUp = true ∧ 4800 ≤ s.twin.convRun then
    .next (setTwin 6 (s.onTwin fun t => { t with claim := claimPred t.peer.claim }))
  else .next s

/-- JOIN_FAILED (R327). -/
def execJoinFailed (s : State) : Host.Outcome State Fault Refusal :=
  if (s.twin.state = 4 ∨ s.twin.state = 5) ∧ s.twin.joinAt + s.twin.joinLimit * 1000000 ≤ s.clk.now then
    .next (setTwin 1 (raise 0x0804 0 0 (s.onTwin fun t => { t with
      failed := true
      joinAt := s.clk.now })))
  else .next s

/-- TWIN_AUTO_REJOIN (R327). -/
def execTwinAutoRejoin (s : State) : Host.Outcome State Fault Refusal :=
  if s.twin.failed = true ∧ s.twin.autoRejoin = true ∧ s.twin.state = 1 ∧ s.twin.linkUp = true
      ∧ s.twin.joinAt + s.twin.joinLimit * 1000000 ≤ s.clk.now ∧ nolutDown s = false then
    .next (startJoin s)
  else .next s

/-! ### Decisions and promotion (R328 to R334) -/

/-- The loser of a decision and the step that gives it (R328): true for this unit. -/
def decideLoser (ownBad peerBad : Bool) (d : Decision) : Option Bool × Nat :=
  if ownBad != peerBad then (some ownBad, 1)
  else if d.agOwn == 0 && d.agPeer != 0 then (some true, 2)
  else if d.agPeer == 0 && d.agOwn != 0 then (some false, 2)
  else (none, 3)

/-- TWIN_DECISION (R328, R329): in wave n + 8 both units decide, on the frames of sample n + 8. -/
def execTwinDecision (s : State) : Host.Outcome State Fault Refusal :=
  match s.twin.decide with
  | none => .next s
  | some d =>
    if d.sample.toNat + 8 ≤ (sampleNow s).toNat ∧ nolutDown s = false then
      let fl (h : OctHdr) : BitVec 2 := BitVec.ofNat 2 (b2n (h.flags.getLsbD 4) + 2 * b2n (h.flags.getLsbD 5))
      let own := fl s.twin.own
      let peer := fl s.twin.peer
      let (loser, step) := decideLoser (own != 0) (peer != 0) d
      let lostByClaimant := loser == some d.active
      let d := { d with
        outcome := match loser with
          | none => 3
          | some _ => if lostByClaimant then 2 else 1
        step := step
        own := own
        peer := peer }
      let busy := promBusy (d.sample + 8) s
      let s := keepRecord d (s.onTwin fun t => { t with
        decide := none
        outcome := d.outcome })
      if busy then .next s
      else
        match loser with
        | none => .next (raise 0x0809 0 0 (s.onTwin fun t => { t with unresolved := true }))
        | some mine =>
          if lostByClaimant then
            let s := s.onTwin fun t => { t with
              promAt := some (d.sample + 9, claimSucc (if t.active then t.claim else t.peer.claim), false) }
            .next (if mine then raise 0x0806 0 0 s else s)
          else if mine then .next (rejoin (raise 0x0805 0 0 s))
          else .next s
    else .next s

/-- TWIN_PROMOTION (R331, R334, R338): in wave p the standby becomes the claimant, or the old claimant stands down. A
staged load that has not been answered is discarded. A promotion waits for READY while Nolut restarts (13 R437). -/
def execTwinPromotion (s : State) : Host.Outcome State Fault Refusal :=
  match s.twin.promAt with
  | some (p, c, swap) =>
    if p.toNat ≤ (sampleNow s).toNat ∧ (s.twin.active || !nolutDown s) = true then
      let s := s.onTwin fun t => { t with
        promAt := none
        lastProm := p }
      if s.twin.active then .next (standDown p swap s)
      else
        let s := match s.plan.staged with
          | some q => if q.effect.isNone then s.onPlan fun x => { x with staged := none } else s
          | none => s
        .next (becomeClaimant c (s.onTwin fun t => { t with promotions := satAdd t.promotions 1 }))
    else .next s
  | none => .next s

/-- TWIN_CLAIM_DROP (R334): the old claimant drops its claim once the stages on all its quorum links report the new one
accepted, or in wave p + 16, and rejoins. -/
def execTwinClaimDrop (s : State) : Host.Outcome State Fault Refusal :=
  match s.twin.dropAt with
  | some w =>
    let ls := quorumLinks s
    let seen := !ls.isEmpty && ls.all fun l =>
      (linkAt s l).accFlags.getLsbD 1 && (linkAt s l).accFlags.getLsbD 0 != s.twin.unit
        && (linkAt s l).accClaim == claimSucc s.twin.claim
    if seen = true ∨ w.toNat ≤ (sampleNow s).toNat then
      .next (rejoin (s.onTwin fun t => { t with dropAt := none }))
    else .next s
  | none => .next s

/-! ### Registers (R340) -/

/-- The claim that the unit shows: before the firmware is ready the reset row of TWIN_STATUS holds (log entry 32). -/
def claimShown (s : State) : BitVec 16 := if s.host.fwState = 5 then claimNow s else 0

/-- TWIN_STATUS. -/
def twinStatus (s : State) : BitVec 32 :=
  let t := s.twin
  let up := s.host.fwState == 5
  BitVec.ofNat 32 (b2n t.octLoss + 2 * b2n t.mismatch + 4 * b2n t.split + 8 * b2n t.unresolved + 16 * t.laneUp.toNat
    + 64 * (if t.linkUp then t.peer.state % 8 else 0) + 512 * (t.state % 8) + 4096 * b2n t.pair + 8192 * b2n t.unit
    + 16384 * b2n (up && isClaimant s) + 32768 * b2n (up && holdsClaim s) + 65536 * (claimShown s).toNat)

end Sys2Proof.Machine
end

