-- ==== Sys2Proof/Machine/Engine.lean ====
section
/-! DEFINITION. Operations on the whole engine: the end of sessions and zeroisation (15 R474, R480), stopped waves and
failed clocks (13 R411), the pins (13 R427, R428) and the resets (13 R419 to R424). -/

namespace Sys2Proof.Machine

/-! ### Data Port channels and the session -/

/-- A Data Port channel. -/
def dpAt (s : State) (c : Nat) : DpS := tget {} s.host.dp c

/-- A change of one Data Port channel. -/
def onDp (c : Nat) (f : DpS → DpS) (s : State) : State := s.onHost fun h => { h with dp := tmod {} h.dp c f }

/-- A channel closes; its burst ends without effect on words it has not yet applied. -/
def dpShut (q : DpS) : DpS := { q with
  open_ := false
  session := false
  burst := []
  burstLen := 0
  burstNext := none }

/-- Channels that satisfy `f` close. -/
def dpCloseAll (f : DpS → Bool) (s : State) : State :=
  (List.range 4).foldl (fun s c => onDp c (fun q => if q.open_ && f q then dpShut q else q) s) s

/-- The session ends, and a channel on the message-library space with it (15 R474). -/
def sessionEnd (s : State) : State :=
  dpCloseAll (fun q => q.space == 4) (s.onSm fun m => { m with session := none })

/-- SAs that satisfy `f` stop: their frames are dropped and counted from now on (15 R478). -/
def stopSas (f : MacSa → Bool) (s : State) : State :=
  (List.range 4).foldl (fun s p => onPort p (fun q => { q with
    sa := (List.range 68).foldl (fun t k => tmod {} t k fun a => if a.active && f a then { a with active := false } else a)
      q.sa }) s) s

/-- Zeroisation of the VOLATILE scope (15 R480): session, ephemeral and MACsec keys. -/
def zeroVolatile (s : State) : State :=
  stopSas (fun _ => true) (sessionEnd (s.onSm fun m => { m with
    opening := none
    keys := [] }))

/-- Zeroisation of the STORE scope (15 R480): the module is commissioning again. -/
def zeroStore (s : State) : State :=
  zeroVolatile (s.onSm fun m => { m with
    opers := []
    libKeys := []
    request := false
    verified := [] })

/-- Zeroisation of the TOTAL scope (15 R480). -/
def zeroTotal (s : State) : State := zeroStore (s.onSm fun m => { m with ident := none })

/-- The module leaves approved mode (15 R482). -/
def leaveApproved (s : State) : State :=
  if s.sm.approved then zeroVolatile (s.onSm fun m => { m with
    approved := false
    lost := true })
  else s

/-- The module operation in progress fails with SM_FAULT (15 R467, R479); VERIFIED is unchanged (R484). -/
def smFail (s : State) : State :=
  match s.sm.verifying with
  | some (_, k) => answerFail k { status := 0x0057 } (s.onSm fun m => { m with verifying := none })
  | none => s

/-! ### Pins -/

/-- Factory fuse-map code of a group (13 R428). -/
def pinFactory (g : Nat) : Nat := ([0, 0, 0, 5, 3, 2, 0, 2, 2, 0, 1] : List Nat).getD g 0

/-- Codes that a group allows (13 R428). -/
def pinAllowed (g : Nat) : List Nat :=
  ([[0, 1, 2, 3, 4], [0, 1, 2, 3], [0, 3], [2, 5], [2, 3], [2], [0, 1, 2], [2], [2], [0, 3], [0, 1, 2]] : List (List Nat)).getD g []

/-- Code of a group in the pin reset fuse map: the programmed one, or the factory's. -/
def pinFuse (s : State) (g : Nat) : Nat :=
  match tget 0 s.clk.pins g with
  | 0 => pinFactory g
  | c + 1 => c

/-- Every group shows its fuse-map code (13 R424 step 2, 14 R452). -/
def pinsFuse (s : State) : State :=
  s.onClk fun c => { c with pinNow := (List.range 11).foldl (fun t g => tput 0 t g (pinFuse s g + 1)) [] }

/-! ### Waves and clocks -/

/-- Waves stop: transfers, audits and moves are abandoned, responses that wait for the end of the wave are returned, and nothing
more is handed to the sinks. -/
def stopWaves (s : State) : State :=
  (abandonAll (xpReplies s)).onWave fun w => { w with
    live := false
    running := false
    tail := false
    minSlack := 0
    minAcc := none
    done := []
    dropped := [] }

/-- MEDIAPLL fails (13 R411 monitor 3): ticks and waves stop, the drive links go idle low, COUNTER_VALID becomes 0, and the
first lock afterwards re-aligns (13 R410). -/
def mediaFail (s : State) : State :=
  let s := tdmStop (linksIdle (stopWaves s))
  let s := s.onWave fun w => { w with counterValid := false }
  s.onClk fun c => { c with
    lock := c.lock &&& 0xD
    relock := true
    dpll := if s.wave.rate.isSome then some 0 else none }

/-- LPDDR5 fails (12 R397, R399; 14 R449): its spaces close; long delays and players give 0 while it lasts. -/
def ddrFail (s : State) : State :=
  dpCloseAll (fun q => q.space == 4 || q.space == 5) (s.onMat fun m => { m with ddrState := 4 })

/-- SYSPLL domains fall back to the RC oscillator (13 R411 monitors 1 and 2). -/
def sysFail (s : State) : State := s.onClk fun c => { c with
  lock := c.lock &&& 0xE
  clockGood := false
  onRc := true }

/-- Media ports and Octot lanes drop (13 R411 monitor 5). -/
def sdsFail (s : State) : State :=
  let s := s.onClk fun c => { c with lock := c.lock &&& 0x7 }
  let s := (List.range 4).foldl (fun s p => linkSet p false s) s
  octEval (s.onTwin fun t => { t with
    laneUp := 0
    laneGood := [] })

/-! ### Injections (14 R455, R456) -/

/-- An injection closes: what SUPPRESS held back is raised as real, a condition that only the forced report showed ends,
and an ENDED INJECTION record follows. -/
def closeInj (i : Nat) (s : State) : State :=
  match tget none s.flt.inj i with
  | none => s
  | some j =>
    let key := srcKey j.src j.obj
    let s := s.onFlt fun f => { f with inj := tput none f.inj i none }
    let s := if j.flags.getLsbD 0 then
      let s := s.onFlt fun f => { f with fresh := f.fresh ++ [(key, s.clk.now)] }
      if srcCond j.src then
        if s.flt.cond.contains key then
          putRep { (j.heldBack.getLastD { src := j.src, obj := j.obj }) with reRaised := true } s
        else s
      else j.heldBack.foldl (fun s r => putRep { r with reRaised := true } s) s
    else s
    let s := if srcCond j.src && !j.broken && !s.flt.cond.contains key then
      putRep { src := j.src, obj := j.obj, ended := true, injected := true } s
    else s
    putRep { src := 0x0A02, ended := true } s

/-! ### Resets -/

/-- Host memory, beyond the engine's own address space, which no reset of the engine touches. -/
def hostMem (s : State) : List Host.Cell := s.mat.mem.filter fun c => decide (2 ^ 40 ≤ c.1)

/-- What the Security Module keeps without power (15 R470): fuses and the key store. -/
def smKept (s : State) : SmS := { State.reset.sm with
  request := s.sm.request
  rollback := s.sm.rollback
  tampered := s.sm.tampered
  order := s.sm.order
  uid := s.sm.uid
  macBase := s.sm.macBase
  opers := s.sm.opers
  libKeys := s.sm.libKeys
  ident := s.sm.ident
  identSig := s.sm.identSig
  roots := s.sm.roots
  revoked := s.sm.revoked }

/-- The engine after a POR or SYSTEM reset: what lies outside it is as it was, the power stages and host memory among it. -/
def resetBase (s : State) : State := { State.reset with
  pending := s.pending
  free := s.free
  sm := smKept s
  mat := { State.reset.mat with mem := hostMem s }
  drv := { State.reset.drv with stages := s.drv.stages } }

/-- A POR (13 R419, R421): everything but the fuses; RESET_CAUSE shows POR alone. -/
def powerOn (s : State) : State :=
  (resetBase s).onClk fun c => { c with pins := s.clk.pins }

/-- A SYSTEM reset (13 R421): everything but the POR domain. `bit` is its bit of RESET_CAUSE. It is ignored while the FATAL
latch is set (13 R422). -/
def systemReset (bit : Nat) (s : State) : State :=
  if s.flt.fatal then s
  else (resetBase s).onClk fun c => { c with
    now := s.clk.now
    por := false
    pins := s.clk.pins
    causes := s.clk.causes ||| BitVec.ofNat 9 (2 ^ bit) }

/-- CLOCK_ABSENT (13 R412): a SYSTEM reset that is held until the RC oscillator is stable again. -/
def clockAbsent (s : State) : State :=
  if s.flt.fatal then s else (systemReset 2 s).onClk fun c => { c with absent := true }

/-- A NOLUT reset (13 R421, R423): Nolut, its working SRAM, the Kiosks, the Data Port channels and the firmware rings. A
locked media DPLL goes to holdover with its NOTE (R407), and open injections close at once (14 R456). Ignored while the FATAL latch is set. -/
def nolutReset (s : State) : State :=
  if s.flt.fatal then s
  else
    let s := sessionEnd (s.onSm fun m => { m with
      opening := none
      verifying := none })
    let s := s.onHost fun h => { h with
      kiosks := []
      dp := []
      k0 := []
      fwState := 4
      classes := 0x1E
      view := false }
    let s := s.onMat fun m => { m with
      remap := false
      mem := m.mem.filter fun c => !decide (0x10000000 ≤ c.1 ∧ c.1 < 0x10400000) }
    let s := s.onNet fun n => { n with
      rings := n.rings.filter fun g => !ringOwner s g.1 }
    let s := s.onPlan fun p => { p with
      staged := match p.staged with
        | some q => if q.effect.isSome then some q else none
        | none => none }
    let s := (List.range 4).foldl (fun s i => closeInj i s) s
    let s := if s.clk.dpll = some 2 then raise 0x0901 0 0 s else s
    s.onClk fun c => { c with
      restart := true
      resetDue := none
      closing := []
      meas := none
      dpll := match c.dpll with
        | some 2 => some 3
        | d => d
      holdAt := if c.dpll = some 2 then c.now else c.holdAt }

/-- The Kiosks become IDLE and the Data Port channels close (11 R377, 13 R421): commands in progress complete, and their
responses are discarded. -/
def hostLost (s : State) : State :=
  let s := dpCloseAll (fun _ => true) s
  (List.range 32).foldl (fun s k => onKiosk k (fun q => if q.st = 7 then q else { q with
    st := 0
    drop := q.req.isSome }) s) s

end Sys2Proof.Machine
end

