-- ==== Sys2Proof/Machine/Faults.lean ====
section
/-! DEFINITION. The fault collector: scans, records, reactions and injections (14 R443 to R463). -/

namespace Sys2Proof.Machine

/-! ### nFAULT (R453) -/

/-- The level at which nFAULT rests: the fuse-map code until READY, ASSERT afterwards. -/
def nfaultRest (s : State) : Bool :=
  match tget 0 s.clk.pinNow 4 with
  | 0 => s.flt.assert_
  | c => c == 4

/-- nFAULT is asserted now (R452, R453). -/
def nfaultPin (s : State) : Bool := s.flt.fatal || s.flt.pulse.isSome || nfaultRest s

/-- A pulse, or the start of a hold, is told to the host. -/
def nfaultTell (s : State) : State := sendMsi 36 (setIrq 24 s)

/-! ### Instances (R462, R517) -/

/-- STATE of an instance in FLT_SOURCE_READ. -/
def instState (s : State) (c obj : Nat) : Nat :=
  let key := srcKey c obj
  if s.flt.broken.contains key then 2
  else if s.flt.inj.any fun p => match p.2 with
    | some j => j.src == c && j.obj == obj
    | none => false then 3
  else if s.flt.cond.contains key then 1
  else if c = 0x0A01 ∧ s.flt.broken.any (fun k => k % 2 ^ 32 == obj) then 1
  else if c = 0x0A02 ∧ s.flt.inj != [] then 1
  else if srcLine c then 0
  else 4

/-- An instance in its place by OBJECT. -/
def instPut (i : SrcInst) : List SrcInst → List SrcInst
  | [] => [i]
  | j :: t => if i.obj < j.obj then i :: j :: t else if i.obj = j.obj then i :: t else j :: instPut i t

/-- The listed instance in state ok whose LAST is oldest. -/
def instOldest (s : State) (c : Nat) (l : List SrcInst) : Option SrcInst :=
  (l.filter fun i => instState s c i.obj == 0 || instState s c i.obj == 4).foldl (fun b i =>
    match b with
    | none => some i
    | some o => if i.last.toNat < o.last.toNat then some i else some o) none

/-- An instance is listed; `n` reports of it are counted at `sample`. -/
def instNote (c obj n : Nat) (sample : BitVec 64) (s : State) : State :=
  let l := tget [] s.flt.list c
  let put (l : List SrcInst) : State := s.onFlt fun f => { f with list := tput [] f.list c l }
  match l.find? fun i => i.obj == obj with
  | some i => put (instPut { i with
      occ := satAdd i.occ n
      last := if n = 0 then i.last else sample.truncate 32 } l)
  | none =>
    let i : SrcInst := { obj := obj, occ := BitVec.ofNat 16 n, last := if n = 0 then 0 else sample.truncate 32 }
    if l.length < 256 then put (instPut i l)
    else
      match instOldest s c l with
      | some o => put (instPut i (l.filter fun j => j.obj != o.obj))
      | none => s

/-! ### Reactions (R448 to R452) -/

/-- The wave in progress of a piece of work is discarded. -/
def dropWork (w : Nat) (s : State) : State :=
  s.onWave fun v => if v.dropped.contains w then v else { v with dropped := v.dropped ++ [w] }

/-- What an injected SEVERE does: the last column of R449. -/
def injectedAct (c obj : Nat) (s : State) : State :=
  if c = 0x0401 then urgentMove (obj / 65536) (nextWave s) s
  else if c = 0x0305 then urgentMove (0x4000 + obj) (nextWave s) s
  else if c = 0x090A then nolutReset s
  else if c = 0x0B01 ∨ c = 0x1007 then smFail s
  else s

/-- The isolation of a source whose line breaks: as for its own SEVERE (R444, R449). -/
def isolate (c obj : Nat) (s : State) : State :=
  if c = 0x0101 then onPlayer obj (fun q => { q with word := 0 }) s
  else if c = 0x0202 then s.onXp fun x => { x with err := (x.err ++ [obj, 2 ^ 23 + obj]).eraseDups }
  else if c = 0x0204 then s.onXp fun x => { x with alley := tmod {} x.alley obj fun a => { a with rep1 := none, rep2 := none } }
  else if c = 0x0205 then
    s.onXp fun x => { x with pri := tmod {} x.pri obj fun p => { p with
      broken := true
      follows := some (sampleNow s + 1) } }
  else if c = 0x0305 then urgentMove (0x4000 + obj) (nextWave s) (dropWork (0x4000 + obj) s)
  else if c = 0x0306 ∨ c = 0x0307 then dropWork (0x4000 + obj) s
  else if c = 0x0401 then urgentMove (obj / 65536) (nextWave s) (dropWork (obj / 65536) s)
  else if c = 0x0908 then sysFail s
  else if c = 0x0909 then mediaFail s
  else if c = 0x090A then nolutReset s
  else if c = 0x0B01 ∨ c = 0x1007 then smFail s
  else if c = 0x1008 then ddrFail s
  else s

/-- A report on which the claimant keeps its claim (R450). -/
def noYield (r : Rep) : Bool :=
  let c := if r.src = 0x0A01 then r.data.toNat % 65536 else r.src
  c == 0x0205 || c == 0x0808 || c == 0x0809

/-- SEVERE (R448, R450, R453). -/
def reactSevere (r : Rep) (s : State) : State :=
  let s := s.onFlt fun f => { f with
    severes := satAdd f.severes 1
    sevT := satAdd f.sevT 1
    sticky := f.sticky ||| 4
    lastSev := r.sample }
  let s := s.onTwin fun t => { t with
    faultWaves := if r.src = 0x0809 then t.faultWaves
      else r.sample :: t.faultWaves.filter fun w => decide (r.sample.toNat ≤ w.toNat + 264) }
  let s := if s.flt.fatal then s else nfaultTell (s.onFlt fun f => { f with pulse := some (s.clk.now + f.pulseUs) })
  let s := if noYield r then s else yieldSoon false s
  if r.injected ∧ r.src ≠ 0x0A01 then injectedAct r.src r.obj s else s

/-- Step 5 and 6 of R452: the message on Kiosk 0, which takes the place of any message, and HALTED. -/
def haltFirmware (r : Rec) (s : State) : State :=
  let post := s.host.classes.getLsbD 3 && s.host.fwState == 5 && r.ssrc != 0x1009 && r.ssrc != 0x100A && r.ssrc != 0x090B
  let s := (List.range 32).foldl (fun s k => onKiosk k (fun q => { q with
    st := 7
    req := none
    drop := false }) s) s
  let s := s.onHost fun h => { h with k0 := [] }
  let s := if post then k0Show r s else s
  s.onHost fun h => { h with fwState := 7 }

/-- FATAL (R452). -/
def reactFatal (r : Rec) (s : State) : State :=
  if s.flt.fatal then s
  else
    let s := s.onFlt fun f => { f with
      fatal := true
      fatalRec := some r
      pulse := none }
    let s := tdmStop (linksIdle (stopWaves (pinsFuse s)))
    let s := s.onTwin fun t => { t with
      active := if t.pair then false else t.active
      yieldAt := none
      stopAt := none
      promAt := none }
    let s := if s.twin.pair then setTwin 1 s else s
    let s := (List.range 5).foldl (fun s p => onPort p (fun q => { q with sending := none, fwOut := none, fwTx := [], queue := [] }) s) s
    haltFirmware r (nfaultTell s)

/-! ### The collector -/

/-- The record of a report: at once, or merged within 1 ms of the last record of its instance (R451). A FATAL that sets the
latch is not posted on Kiosk 0 like the others (R452). -/
def noteRep (r : Rep) (c : Nat) (s : State) : State :=
  match s.flt.merges.find? fun m => m.src == r.src && m.obj == r.obj && decide (s.clk.now < m.at_ + 1000) with
  | some m =>
    s.onFlt fun f => { f with merges := f.merges.map fun x =>
      if x = m then { m with
        count := m.count + 1
        rep := r }
      else x }
  | none =>
    let s := s.onFlt fun f => { f with merges :=
      (f.merges.filter fun m => !(m.src == r.src && m.obj == r.obj)) ++ [{ src := r.src, obj := r.obj, at_ := s.clk.now }] }
    let q := mkRec r c 1 s
    if c = 4 ∧ s.flt.fatal = false then logPut q s else logRec q s

/-- The merged record of a window is written. -/
def flushMerge (m : Merge) (s : State) : State :=
  if m.count = 0 then s
  else logRec (mkRec m.rep ((srcClass (playProt s m.obj) m.src).getD 0) m.count s) s

/-- The ENDED record of a condition, after what still merges (R451, R459). -/
def noteEnded (r : Rep) (c : Nat) (s : State) : State :=
  let mine := s.flt.merges.filter fun m => m.src == r.src && m.obj == r.obj
  let s := mine.foldl (fun s m => flushMerge m s) s
  let s := s.onFlt fun f => { f with merges :=
    (f.merges.filter fun m => !(m.src == r.src && m.obj == r.obj)) ++ [{ src := r.src, obj := r.obj, at_ := s.clk.now }] }
  logRec (mkRec r c 1 s) s

/-- The collector takes one report (R443, R445, R448). -/
def collect (r : Rep) (s : State) : State :=
  match srcClass (playProt s r.obj) r.src with
  | none => s
  | some c =>
    if r.ended then noteEnded r c s
    else
      let q := { mkRec r c 1 s with seq := s.host.head }
      let s := noteRep r c (instNote r.src r.obj 1 r.sample s)
      if c = 1 then s.onFlt fun f => { f with
        notesT := satAdd f.notesT 1
        sticky := f.sticky ||| 1 }
      else if c = 2 then s.onFlt fun f => { f with
        degrades := satAdd f.degrades 1
        degT := satAdd f.degT 1
        sticky := f.sticky ||| 2 }
      else if c = 3 then reactSevere r s
      else if c = 4 then reactFatal q s
      else s

/-! ### Scans (R443, R444, R455, R456) -/

/-- The open injections on a pair. -/
def injOn (s : State) (key : Nat) : List (Nat × Inj) :=
  s.flt.inj.filterMap fun p => match p.2 with
    | some j => if srcKey j.src j.obj = key then some (p.1, j) else none
    | none => none

/-- The real line of a pair is not sampled. -/
def suppressed (s : State) (key : Nat) : Bool := (injOn s key).any fun j => j.2.flags.getLsbD 0

/-- The pairs that read broken at a scan: real lines, and the forced ones. -/
def readBroken (s : State) (real : List (Nat × Nat)) : List Nat :=
  let r := (real.filter fun p => srcLine p.1 && decide (p.2 < 2 ^ 32)).map fun p => srcKey p.1 p.2
  let f := s.flt.inj.filterMap fun p => match p.2 with
    | some j => if j.broken then some (srcKey j.src j.obj) else none
    | none => none
  ((r.filter fun k => !suppressed s k) ++ f).eraseDups

/-- A pair is taken as broken (R444). -/
def lineBreaks (real : Bool) (key : Nat) (s : State) : State :=
  let c := key / 2 ^ 32
  let obj := key % 2 ^ 32
  let again := s.flt.fresh.any fun p => p.1 == key && decide (s.clk.now ≤ p.2 + 2)
  let s := instNote c obj 0 0 (s.onFlt fun f => { f with
    broken := f.broken ++ [key]
    sticky := f.sticky ||| 8 })
  let r : Rep := { src := 0x0A01, obj := obj, data := BitVec.ofNat 64 c, sample := sampleNow s }
  let s := collect { r with injected := !real, reRaised := real && again } s
  if real then isolate c obj s else injectedAct c obj s

/-- A pair leaves the blind state; an error that it then shows is reported (R444). -/
def lineRestored (key : Nat) (s : State) : State :=
  let c := key / 2 ^ 32
  let obj := key % 2 ^ 32
  let s := s.onFlt fun f => { f with broken := f.broken.filter (· != key) }
  let r : Rep := { src := 0x0A01, obj := obj, data := BitVec.ofNat 64 c, sample := sampleNow s }
  let s := collect { r with ended := true } s
  let s := if s.flt.cond.contains key && !suppressed s key then
    collect { src := c, obj := obj, sample := sampleNow s } s else s
  if (injOn s key).any fun j => !j.2.broken then
    collect { src := c, obj := obj, injected := true, sample := sampleNow s } s else s

/-- A real report is held back by SUPPRESS. -/
def holdBack (r : Rep) (s : State) : State :=
  s.onFlt fun f => { f with inj := (List.range 4).foldl (fun t i => tmod none t i fun q => q.map fun j =>
    if j.src = r.src ∧ j.obj = r.obj ∧ j.flags.getLsbD 0 then { j with heldBack := j.heldBack ++ [r] } else j) f.inj }

/-- One report on a line at a scan; `b` holds the pairs that read broken at it. -/
def scanRep (b : List Nat) (s : State) (r : Rep) : State :=
  let key := srcKey r.src r.obj
  if s.flt.broken.contains key then s
  else if suppressed s key ∧ r.injected = false then (if r.ended then s else holdBack r s)
  else if b.contains key then s.onFlt fun f => { f with lineQ := f.lineQ ++ [{ r with seen := 0 }] }
  else if r.seen = 0 then s.onFlt fun f => { f with lineQ := f.lineQ ++ [{ r with seen := 1 }] }
  else collect r s

/-- FAULT_LINE_SCAN (R443, R444): one scan of every pair, 1 µs after the one before. `broken` names the pairs, by source and
OBJECT, whose wires read 0b00 or 0b11. It also carries the model's time on (log entry 5). -/
def execFaultLineScan (broken : List (Nat × Nat)) (s : State) : Host.Outcome State Fault Refusal :=
  let s := ptpTimer (s.onClk fun c => { c with now := c.now + 1 })
  if s.clk.por ∨ s.clk.rcOk = false then .next s
  else
    let b := readBroken s broken
    let real := readBroken (s.onFlt fun f => { f with inj := [] }) broken
    let down := b.filter fun k => s.flt.seenBrk.contains k && !s.flt.broken.contains k
    let good := s.flt.broken.filter fun k => !b.contains k
    let back := good.filter fun k => s.flt.seenOk.contains k
    let q := s.flt.lineQ
    let s := s.onFlt fun f => { f with
      seenBrk := b
      seenOk := good.filter fun k => !back.contains k
      lineQ := [] }
    let s := down.foldl (fun s k => lineBreaks (real.contains k && !suppressed s k) k s) s
    let s := back.foldl (fun s k => lineRestored k s) s
    let s := q.foldl (scanRep b) s
    .next (s.onFlt fun f => { f with fresh := f.fresh.filter fun p => decide (s.clk.now ≤ p.2 + 2) })

/-- FIRMWARE_FAULT_REPORT (R445): a firmware source writes its report to the collector. -/
def execFirmwareFaultReport (s : State) : Host.Outcome State Fault Refusal :=
  match s.flt.fwQ with
  | r :: t => .next (collect r (s.onFlt fun f => { f with fwQ := t }))
  | [] => .next s

/-- FAULT_MERGE_FLUSH (R451): windows of 1 ms that have ended are written as one record each. -/
def execFaultMergeFlush (s : State) : Host.Outcome State Fault Refusal :=
  let due := s.flt.merges.filter fun m => decide (m.at_ + 1000 ≤ s.clk.now)
  let s := s.onFlt fun f => { f with
    merges := f.merges.filterMap fun m =>
      if m.at_ + 1000 ≤ s.clk.now then (if m.count = 0 then none else some { m with at_ := s.clk.now, count := 0 })
      else some m }
  .next (due.foldl (fun s m => flushMerge m s) s)

/-- NFAULT_PULSE_END (R453). -/
def execNfaultPulseEnd (s : State) : Host.Outcome State Fault Refusal :=
  match s.flt.pulse with
  | some t => if t ≤ s.clk.now then .next (s.onFlt fun f => { f with pulse := none }) else .next s
  | none => .next s

/-- INJECTION_WINDOW_END (R455, R456): windows whose time has come close. -/
def execInjectionWindowEnd (s : State) : Host.Outcome State Fault Refusal :=
  let due (j : Option Inj) : Bool := match j with
    | some j => decide (j.until_ ≤ s.clk.now)
    | none => false
  .next ((List.range 4).foldl (fun t i => if due (tget none s.flt.inj i) then closeInj i t else t) s)

/-- FLT_NFAULT_WRITE (R453, R460): a reserved PULSE_US leaves PULSE_US as it is; under FATAL, ASSERT has no effect. -/
def execFltNfaultWrite (value : BitVec 32) (s : State) : Host.Outcome State Fault Refusal :=
  let us := bitsOf value.toNat 29 16
  .next (s.onFlt fun f => { f with
    pulseUs := if 1 ≤ us ∧ us ≤ 10000 then us else f.pulseUs
    assert_ := if f.fatal then f.assert_ else value.getLsbD 0 })

/-! ### Registers (R460) -/

/-- FLT_STATUS. -/
def fltStatus (s : State) : BitVec 32 :=
  BitVec.ofNat 32 (2 ^ 31 * b2n s.flt.fatal + 2 ^ 30 * b2n (nfaultPin s) + 2 ^ 29 * b2n s.flt.pulse.isSome
    + 2 ^ 24 * s.flt.inj.length + 2 ^ 16 * min 255 s.flt.broken.length + s.flt.sticky.toNat)

/-- FLT_NFAULT. -/
def fltNfault (s : State) : BitVec 32 := BitVec.ofNat 32 (2 ^ 16 * s.flt.pulseUs + b2n s.flt.assert_)

/-- FLT_FATAL_REC, 32 bytes. -/
def fltFatalRec (s : State) : List Byte :=
  match s.flt.fatalRec with
  | some r => recBytes r
  | none => zeros 32

/-! ### Family 0x0A (R461 to R463) -/

/-- FLT_STATUS_READ takes no payload. -/
def fltStatusReadCheck (p : List Byte) (_ : State) : Option Fail := paramCheck [lenIs p 0]

/-- The response of FLT_STATUS_READ. -/
def fltStatusReadEffect (_ : Nat) (_ : List Byte) (s : State) : Effect :=
  (s, some (le 4 (fltStatus s).toNat ++ le 4 s.flt.notesT.toNat ++ le 4 s.flt.degT.toNat ++ le 4 s.flt.sevT.toNat
    ++ le 2 (min 0xFFFF s.flt.broken.length) ++ le 1 s.flt.inj.length ++ zeros 1 ++ le 8 s.flt.lastSev.toNat))

/-- FLT_STATUS_READ (R461). -/
def execFltStatusRead (kiosk : Fin 32) (s : State) : Host.Outcome State Fault Refusal :=
  .next (runKiosk 0x0A01 kiosk.val fwdNever fltStatusReadCheck fltStatusReadEffect s)

/-- The fields of FLT_SOURCE_READ (R462). -/
def fltSourceReadCheck (p : List Byte) (s : State) : Option Fail :=
  let n := (tget [] s.flt.list (fld p 0 2)).length
  paramCheck ([lenIs p 8, (0, (srcClass false (fld p 0 2)).isSome), (2, decide (fld p 2 2 < n ∨ fld p 2 2 = 0)),
    (4, decide (1 ≤ fld p 4 1 ∧ fld p 4 1 ≤ 16)), (5, decide (fld p 5 1 ≤ 1))] ++ zeroFrom p 6 2)

/-- CLASS of a source as FLT_SOURCE_READ shows it: a player source shows SEVERE when an instance of it is protected. -/
def shownClass (s : State) (c : Nat) : Nat :=
  (srcClass (c == 0x0101 && (List.range 64).any (playProt s)) c).getD 0

/-- The listed instances; CLEAR clears OCCURRENCES after they are returned. -/
def fltSourceReadEffect (_ : Nat) (p : List Byte) (s : State) : Effect :=
  let c := fld p 0 2
  let l := tget [] s.flt.list c
  let rows := (l.drop (fld p 2 2)).take (fld p 4 1)
  let r := le 2 c ++ le 2 l.length ++ le 1 (shownClass s c) ++ le 1 (b2n (srcLine c)) ++ zeros 2
    ++ rows.flatMap fun i => le 4 i.obj ++ le 1 (instState s c i.obj) ++ zeros 1 ++ le 2 i.occ.toNat ++ le 4 i.last.toNat
  (if byteAt p 5 = 1 then
    s.onFlt fun f => { f with list := tput [] f.list c (l.map fun i => if rows.contains i then { i with occ := 0 } else i) }
  else s, some r)

/-- FLT_SOURCE_READ (R461, R462). -/
def execFltSourceRead (kiosk : Fin 32) (s : State) : Host.Outcome State Fault Refusal :=
  .next (runKiosk 0x0A02 kiosk.val fwdNever fltSourceReadCheck fltSourceReadEffect s)

/-- WORK, district and slot of an OBJECT of subsystem 0x04 lie within their ranges (R458, 06 R214). -/
def workObjOk (obj : Nat) : Bool :=
  let kind := obj / 2 ^ 28
  let idx := obj / 65536 % 4096
  let d := obj / 256 % 256
  let t := obj % 256
  (if kind = 0 ∨ kind = 1 then decide (idx < 80) else if kind = 2 then decide (idx < 2)
    else (kind == 4 || kind == 5 || kind == 6) && decide (idx < 1024))
    && (decide (d < 52 ∧ t < 8) || (d == 0xFF && t == 0xFF))

/-- The source has the instance (R458, R462). -/
def objOk (c obj : Nat) : Bool :=
  if c = 0x0101 then decide (obj < 64)
  else if c = 0x0201 then decide (obj < 80)
  else if c = 0x0202 then decide (obj < 5242880)
  else if c = 0x0203 ∨ c = 0x0204 then decide (obj < 64)
  else if c = 0x0205 then decide (obj < 8)
  else if 0x0301 ≤ c ∧ c ≤ 0x0307 then decide (obj < 1024)
  else if c = 0x0401 then workObjOk obj
  else if c = 0x0506 then decide (obj < 32)
  else if 0x0507 ≤ c ∧ c ≤ 0x050B then decide (obj < 128)
  else if c = 0x0605 ∨ c = 0x0606 then decide (obj < 2 ^ 32 ∧ obj / 256 % 256 < 5 ∧ obj % 256 = 0xFF)
  else if c = 0x0801 then decide (obj < 2)
  else if c = 0x0907 ∨ c = 0x090C then decide (obj < 16)
  else if 0x0906 ≤ c ∧ c ≤ 0x090A then decide (obj < 6)
  else if 0x1001 ≤ c ∧ c ≤ 0x1003 then decide (obj < 8)
  else decide (obj = 0)

/-- An injection runs on the instance. -/
def injected (s : State) (c obj : Nat) : Bool := injOn s (srcKey c obj) != []

/-- The fields of FLT_INJECT and its refusals (R456, R461, R463). -/
def fltInjectCheck (p : List Byte) (s : State) : Option Fail :=
  let c := fld p 0 2
  let obj := fld p 4 4
  let us := fld p 8 4
  let cls := (srcClass (playProt s obj) c).getD 0
  orElse (paramCheck [lenIs p 12, (2, decide (fld p 2 1 ≤ 1)), (3, decide (fld p 3 1 ≤ 3))])
    (orElse (failIf (!(srcLine c && objOk c obj)) 0x0070)
      (orElse (failIf (decide (4 ≤ s.flt.inj.length)) 0x0071)
        (orElse (failIf (us == 0 || decide (10000000 < us) || (bitOf (fld p 3 1) 0 && decide (3 ≤ cls) && decide (100000 < us))
            || (cls == 4 && !bitOf (fld p 3 1) 1)) 0x0072)
          (failIf (injected s c obj) 0x0073))))

/-- The lowest injection ID that is free. -/
def injFree (s : State) : Nat := ((List.range 4).find? fun i => (tget none s.flt.inj i).isNone).getD 0

/-- The window opens: INJECTION is logged, and the forced report is on the pair (R455). An injection on a source of the
Security Module ends approved mode (15 R482). -/
def fltInjectEffect (_ : Nat) (p : List Byte) (s : State) : Effect :=
  let c := fld p 0 2
  let obj := fld p 4 4
  let brk := byteAt p 2 == 1
  let i := injFree s
  let r := le 1 i ++ zeros 7 ++ le 8 (sampleNow s).toNat
  let s := s.onFlt fun f => { f with
    inj := tput none f.inj i (some {
      src := c
      broken := brk
      flags := BitVec.ofNat 2 (fld p 3 1)
      obj := obj
      until_ := s.clk.now + fld p 8 4 })
    sticky := f.sticky ||| 16 }
  let s := instNote c obj 0 0 (putRep { src := 0x0A02 } s)
  let s := if brk then s else putRep { src := c, obj := obj, injected := true } s
  (if c / 256 = 0x0B then leaveApproved s else s, some r)

/-- FLT_INJECT (R455, R461, R462). -/
def execFltInject (kiosk : Fin 32) (s : State) : Host.Outcome State Fault Refusal :=
  .next (runKiosk 0x0A03 kiosk.val fwdNever fltInjectCheck fltInjectEffect s)

/-- INJECT_ID names an open injection, or all of them (R462). -/
def fltInjectCancelCheck (p : List Byte) (s : State) : Option Fail :=
  paramCheck ([lenIs p 4, (0, fld p 0 1 == 0xFF || (tget none s.flt.inj (fld p 0 1)).isSome)] ++ zeroFrom p 1 3)

/-- The injections close; END_SAMPLE is the wave in progress. -/
def fltInjectCancelEffect (_ : Nat) (p : List Byte) (s : State) : Effect :=
  let r := le 8 (sampleNow s).toNat
  (if fld p 0 1 = 0xFF then (List.range 4).foldl (fun s i => closeInj i s) s else closeInj (fld p 0 1) s, some r)

/-- FLT_INJECT_CANCEL (R461, R462). -/
def execFltInjectCancel (kiosk : Fin 32) (s : State) : Host.Outcome State Fault Refusal :=
  .next (runKiosk 0x0A04 kiosk.val fwdNever fltInjectCancelCheck fltInjectCancelEffect s)

/-- FLT_INJECT_STATUS takes no payload. -/
def fltInjectStatusCheck (p : List Byte) (_ : State) : Option Fail := paramCheck [lenIs p 0]

/-- One entry of FLT_INJECT_STATUS. -/
def injEntry (s : State) (i : Nat) : List Byte :=
  match tget none s.flt.inj i with
  | some j => le 2 j.src ++ le 1 (b2n j.broken) ++ le 1 (128 + j.flags.toNat) ++ le 4 j.obj ++ le 4 (j.until_ - s.clk.now) ++ zeros 4
  | none => zeros 16

/-- The response of FLT_INJECT_STATUS. -/
def fltInjectStatusEffect (_ : Nat) (_ : List Byte) (s : State) : Effect := (s, some ((List.range 4).flatMap (injEntry s)))

/-- FLT_INJECT_STATUS (R461). -/
def execFltInjectStatus (kiosk : Fin 32) (s : State) : Host.Outcome State Fault Refusal :=
  .next (runKiosk 0x0A05 kiosk.val fwdNever fltInjectStatusCheck fltInjectStatusEffect s)

end Sys2Proof.Machine
end

