-- ==== Sys2Proof/Machine/Rebase.lean ====
section
/-! DEFINITION. A step of the sample counter, or the restart of a counter domain (01 R35; 13 R408, R410, R440): what waits for a
number of waves waits for as many waves as before, and what waits for a stated counter value keeps it (02 R64; 05 R175;
06 R210; log entry 146). -/

namespace Sys2Proof.Machine

/-- The stamp `w` of the old counter in the new one: `old` and `new` number the same wave. -/
def shiftWave (old new w : BitVec 64) : BitVec 64 :=
  if old ≤ new then w + (new - old) else if old - new ≤ w then w - (old - new) else 0

/-- Every value of a table changed. -/
def tmap {α : Type} [DecidableEq α] (d : α) (f : α → α) (t : Tab α) : Tab α := tputs d [] (t.map fun p => (p.1, f p.2))

/-- The crosspoint's stamps: entries, transitions, levels, and commits accepted as soon as possible. -/
def rebaseXp (f : BitVec 64 → BitVec 64) (x : XpS) : XpS :=
  { x with
    queue := x.queue.map fun e => { e with wave := f e.wave }
    direct := x.direct.map fun e => { e with wave := f e.wave }
    trans := tmap none (·.map fun t => { t with start := f t.start }) x.trans
    lvlCmds := x.lvlCmds.map fun c => { c with wave := f c.wave }
    pri := tmap {} (fun p => { p with follows := p.follows.map f }) x.pri
    toLog := tmap {} (fun l => { l with last := l.last.map f }) x.toLog
    scheds := x.scheds.map fun c => if c.asap.isSome then { c with at64 := f c.at64 } else c }

/-- The plan's stamps: a load or a player armed for a stated sample keeps it. -/
def rebasePlan (f : BitVec 64 → BitVec 64) (p : PlanS) : PlanS :=
  { p with
    staged := p.staged.map fun q => if q.atSample = 0 then { q with effect := q.effect.map f } else q
    unload := p.unload.map f
    restart := p.restart.map f
    bypassDue := p.bypassDue.map fun b => (b.1, f b.2)
    swap := p.swap.map fun q => { q with p := f q.p }
    players := tmap {} (fun q => { q with
      startAt := if q.timed then q.startAt else f q.startAt
      stopAt := f q.stopAt }) p.players }

/-- The Dispatcher's stamps (06 R210). -/
def rebasePlace (f : BitVec 64 → BitVec 64) (p : PlaceS) : PlaceS :=
  { p with moving := p.moving.map fun m => { m with f := f m.f, j := m.j.map f } }

/-- What counts waves: `old` and `new` number the wave that launches. -/
def rebaseWaves (old new : BitVec 64) (s : State) : State :=
  let f := shiftWave old new
  let s := ((s.onXp (rebaseXp f)).onPlan (rebasePlan f)).onPlace (rebasePlace f)
  s.onClk fun c => { c with
    powDue := c.powDue.map fun d => (d.1, f d.2)
    rateDue := c.rateDue.map fun d => (d.1, f d.2.1, d.2.2) }

/-- One drive channel. -/
def rebaseChan (f : BitVec 64 → BitVec 64) (c : ChanS) : ChanS :=
  { c with
    muteDue := c.muteDue.map fun d => (d.1, f d.2)
    resume := c.resume.map f
    shortAt := if c.short = .none then c.shortAt else f c.shortAt
    pilAt := f c.pilAt }

/-- Twin operation: what is due, and what lies some waves back. -/
def rebaseTwin (f : BitVec 64 → BitVec 64) (t : TwinS) : TwinS :=
  { t with
    yieldAt := t.yieldAt.map f
    promAt := t.promAt.map fun p => (f p.1, p.2)
    stopAt := t.stopAt.map fun p => (f p.1, p.2)
    dropAt := t.dropAt.map f
    runInEnd := f t.runInEnd
    faultWaves := t.faultWaves.map f
    auditWaves := t.auditWaves.map f
    misAt := t.misAt.map f }

/-- What counts ticks: `old` and `new` number the same tick. -/
def rebaseTicks (old new : BitVec 64) (s : State) : State :=
  let f := shiftWave old new
  let s := (s.onDrv fun d => { d with chans := tmap {} (rebaseChan f) d.chans }).onTwin (rebaseTwin f)
  s.onNet fun n => { n with
    rx := tmap {} (fun q => { q with
      claimA := q.claimA.map fun c => (c.1, c.2.1, c.2.2.1, f c.2.2.2)
      claimB := q.claimB.map fun c => (c.1, c.2.1, c.2.2.1, f c.2.2.2)
      lastAt := f q.lastAt }) n.rx
    ports := tmap {} (fun q => { q with queue := q.queue.map fun p => { p with at64 := f p.at64 } }) n.ports }

end Sys2Proof.Machine
end

