-- ==== Sys2Proof/Machine/Clocks.lean ====
section
/-! DEFINITION. Clocks: the media DPLL, monitors, PLLs, gates, the measuring counter and the change of rate (13 R403 to R417,
R438 to R442). -/

namespace Sys2Proof.Machine

/-! ### Registers (R438) -/

/-- Code of POWER: 0 RUN, 1 HUSH, 2 waking. There is no host access in RETAIN. -/
def powerCode (s : State) : Nat :=
  match s.clk.power with
  | .run => 0
  | .hush => 1
  | _ => 2

/-- CLK_STATUS. -/
def clkStatus (s : State) : BitVec 32 :=
  BitVec.ofNat 32 (2 ^ 29 * s.clk.dpll.getD 7 + 2 ^ 24 * s.clk.vid + 2 ^ 22 * powerCode s + 2 ^ 16 * s.clk.monTrip.toNat
    + 2 ^ 10 * s.clk.monOk.toNat + 2 ^ 6 * s.clk.lock.toNat + 2 ^ 5 * b2n s.clk.onRc)

/-- RESET_CAUSE. -/
def resetCause (s : State) : BitVec 32 :=
  BitVec.ofNat 32 (2 ^ 26 * s.clk.bootCount.toNat + 2 ^ 22 * s.clk.bootCode.toNat + 2 ^ 9 * b2n s.flt.fatal + s.clk.causes.toNat)

/-- CLK_GATES. -/
def clkGates (s : State) : BitVec 32 := BitVec.ofNat 32 (2 ^ 16 * b2n s.clk.gateRef + s.clk.gates.toNat)

/-! ### The media DPLL (R407 to R410) -/

/-- A change of state of the DPLL. -/
def dpllSet (d : Nat) (s : State) : State := s.onClk fun c => { c with dpll := some d }

/-- Holdover ends (14 R517). -/
def holdoverEnds (s : State) : State := endCond 0x0903 0 (endCond 0x0901 0 s)

/-- The counter will step: the next tick carries `v` (01 R35). -/
def stepTo (v : BitVec 64) (s : State) : State := s.onWave fun w => { w with step := some v }

/-- A re-alignment is recorded (R439). -/
def noteRealign (v : BitVec 64) (s : State) : State :=
  let d := v - nextTick s
  s.onClk fun c => { c with
    lastReal := v
    lastStep := d
    realDue := false
    relock := false }

/-- PTP offers usable time, or none (13 R407). -/
def ptpUsable (usable : Bool) (s : State) : State := ptpEval (onPtp (fun p => { p with usable := usable }) s)

/-- PTP_TIME_AVAILABLE (R407): PTP offers usable time; a DPLL in free-run locks. While Nolut restarts the DPLL keeps its state
(R423), here and in the three events below. -/
def execPtpTimeAvailable (_ : Computed) (s : State) : Host.Outcome State Fault Refusal :=
  if s.clk.dpll = some 3 ∨ s.clk.restart = true then .next s
  else
    let s := ptpUsable true s
    .next (if s.clk.dpll = some 0 then dpllSet 1 s else s)

/-- Kiosks that wait for a re-alignment are refused. -/
def realignLost (s : State) : State :=
  (waitingKiosks s 0x0904 fun _ => true).foldl (fun s k => answerFail k { status := 0x0064 } s)
    (s.onClk fun c => { c with realDue := false })

/-- PTP_TIME_LOST (R407): free-run from Locking, holdover from Locked. -/
def execPtpTimeLost (_ : Computed) (s : State) : Host.Outcome State Fault Refusal :=
  let s := realignLost (ptpUsable false s)
  match s.clk.dpll with
  | some 1 => .next (dpllSet 0 s)
  | some 2 => .next (raise 0x0901 0 0 (dpllSet 3 (s.onClk fun c => { c with holdAt := c.now })))
  | _ => .next s

/-- HOLDOVER_LONG (R407). -/
def execHoldoverLong (s : State) : Host.Outcome State Fault Refusal :=
  if s.clk.dpll = some 3 ∧ s.clk.holdAt + s.clk.holdAlarm * 1000000 ≤ s.clk.now then .next (raise 0x0903 0 0 s)
  else .next s

/-- DPLL_LOCK (R408, R410): tick edges have lain within ±1 µs for 10 s. A counter that is not valid steps at the next tick
to `target`, the number of periods since the PTP epoch. -/
def execDpllLock (target : BitVec 64) (phase ppb : BitVec 32) (s : State) : Host.Outcome State Fault Refusal :=
  if s.clk.dpll = some 1 ∧ s.net.ptp.usable = true ∧ s.clk.restart = false then
    let s := dpllSet 2 (s.onClk fun c => { c with
      lastLock := sampleNow s
      phase := phase
      ppb := ppb })
    if s.wave.counterValid then .next s
    else .next (stepTo target (if s.clk.relock then noteRealign target s else s))
  else .next s

/-- PTP_TIME_RETURN (R409): in holdover, PTP time is usable again with the phase error `phase`, in ns. -/
def execPtpTimeReturn (_ : Computed) (phase : BitVec 32) (s : State) : Host.Outcome State Fault Refusal :=
  if s.clk.dpll = some 3 ∧ s.clk.restart = false then
    let was := s.net.ptp.usable
    let s := (ptpUsable true s).onClk fun c => { c with phase := phase }
    if phase.toInt.natAbs ≤ s.clk.stepLim * 1000 then
      .next (holdoverEnds (dpllSet 2 (s.onClk fun c => { c with lastLock := sampleNow s })))
    else
      let s := if was then s else raise 0x0902 0 0 s
      .next (if s.clk.realign then s.onClk fun c => { c with realDue := true } else s)
  else .next s

/-- REALIGN_STEP (R410): the slew is complete and the counter steps at the next tick to `target`. -/
def execRealignStep (target : BitVec 64) (s : State) : Host.Outcome State Fault Refusal :=
  if s.clk.realDue = true ∧ s.net.ptp.usable = true ∧ s.clk.dpll.isSome = true ∧ s.clk.restart = false then
    let s := noteRealign target s
    let r := le 8 target.toNat ++ le 8 s.clk.lastStep.toNat
    let s := holdoverEnds (dpllSet 2 (stepTo target (s.onClk fun c => { c with lastLock := target })))
    .next ((waitingKiosks s 0x0904 fun _ => true).foldl (fun s k => answerOk k r s) s)
  else .next s

/-- CLK_REALIGN takes no payload, and needs usable PTP time (R441). -/
def clkRealignCheck (p : List Byte) (s : State) : Option Fail :=
  orElse (paramCheck [lenIs p 0]) (failIf (!(s.net.ptp.usable && s.clk.dpll.isSome)) 0x0064)

/-- Effect of CLK_REALIGN: the Kiosk waits for the step. -/
def clkRealignEffect (_ : Nat) (_ : List Byte) (s : State) : Effect := (s.onClk fun c => { c with realDue := true }, none)

/-- CLK_REALIGN (R441). -/
def execClkRealign (kiosk : Fin 32) (s : State) : Host.Outcome State Fault Refusal :=
  .next (runKiosk 0x0904 kiosk.val fwdNever clkRealignCheck clkRealignEffect s)

/-- The fields of CLK_DPLL_CONFIG. -/
def clkDpllConfigCheck (p : List Byte) (_ : State) : Option Fail :=
  paramCheck ([(0, decide (fld p 0 1 ≤ 1))] ++ onOp p 0 [(1, 1, decide (fld p 1 1 ≤ 1)),
    (2, 2, decide (10 ≤ fld p 2 2 ∧ fld p 2 2 ≤ 200)), (4, 4, decide (1 ≤ fld p 4 4 ∧ fld p 4 4 ≤ 1000000)),
    (8, 2, decide (1 ≤ fld p 8 2 ∧ fld p 8 2 ≤ 3600))] ++ zeroFrom p 10 2 ++ [lenIs p 12])

/-- Effect of CLK_DPLL_CONFIG: the values in force before it are returned. -/
def clkDpllConfigEffect (_ : Nat) (p : List Byte) (s : State) : Effect :=
  let r := le 1 (fld p 0 1) ++ le 1 (b2n s.clk.realign) ++ le 2 s.clk.pull ++ le 4 s.clk.stepLim ++ le 2 s.clk.holdAlarm ++ zeros 2
  (if byteAt p 0 = 1 then
    s.onClk fun c => { c with
      realign := byteAt p 1 == 1
      pull := fld p 2 2
      stepLim := fld p 4 4
      holdAlarm := fld p 8 2 }
  else s, some r)

/-- CLK_DPLL_CONFIG (R439). -/
def execClkDpllConfig (kiosk : Fin 32) (s : State) : Host.Outcome State Fault Refusal :=
  .next (runKiosk 0x0903 kiosk.val fwdNever clkDpllConfigCheck clkDpllConfigEffect s)

/-- CLK_STATUS_READ takes no payload. -/
def clkStatusReadCheck (p : List Byte) (_ : State) : Option Fail := paramCheck [lenIs p 0]

/-- The response of CLK_STATUS_READ. -/
def clkStatusReadEffect (_ : Nat) (_ : List Byte) (s : State) : Effect :=
  (s, some (le 4 (clkStatus s).toNat ++ le 4 (resetCause s).toNat ++ le 4 (clkGates s).toNat ++ le 1 s.clk.vid ++ le 1 s.clk.floor
    ++ le 1 s.clk.ceil ++ le 1 (powerCode s) ++ le 4 s.clk.phase.toNat ++ le 4 s.clk.ppb.toNat ++ le 8 s.clk.lastLock.toNat
    ++ le 8 s.clk.lastReal.toNat ++ le 8 s.clk.lastStep.toNat))

/-- CLK_STATUS_READ (R439). -/
def execClkStatusRead (kiosk : Fin 32) (s : State) : Host.Outcome State Fault Refusal :=
  .next (runKiosk 0x0901 kiosk.val fwdNever clkStatusReadCheck clkStatusReadEffect s)

/-! ### Monitors and PLLs (R405, R411 to R413) -/

/-- Monitor `k` trips. -/
def monTripped (k : Nat) (s : State) : State := s.onClk fun c => { c with
  monTrip := c.monTrip ||| BitVec.ofNat 6 (2 ^ k)
  monOk := c.monOk &&& ~~~ BitVec.ofNat 6 (2 ^ k) }

/-- Monitor `k` finds its clock good. -/
def monGood (k : Nat) (s : State) : State := s.onClk fun c => { c with monOk := c.monOk ||| BitVec.ofNat 6 (2 ^ k) }

/-- The reaction of monitor 3. -/
def mediaTrips (s : State) : State := raise 0x0909 3 0 (mediaFail (monTripped 3 s))

/-- The reaction of monitor 4. -/
def ddrTrips (s : State) : State :=
  raise 0x1008 0 0 (ddrFail ((monTripped 4 s).onClk fun c => { c with lock := c.lock &&& 0xB }))

/-- A trip that would switch SYSPLL's domains to an RC that is not stable holds the engine in reset (R412). -/
def toRc (f : State → State) (s : State) : State := if s.clk.rcOk then sysFail (f s) else clockAbsent s

/-- CLOCK_MONITOR_TRIP (R411, R412). A monitor whose clock has been found good trips. -/
def execClockMonitorTrip (monitor : Fin 6) (s : State) : Host.Outcome State Fault Refusal :=
  if s.clk.por ∨ s.clk.monOk.getLsbD monitor.val = false then .next s
  else
    match monitor.val with
    | 0 => .next (clockAbsent s)
    | 1 => .next (toRc (fun s =>
        let s := raise 0x0908 1 0 ((monTripped 1 s).onClk fun c => { c with refOk := false })
        let s := if s.clk.monOk.getLsbD 3 then mediaTrips s else s
        if s.clk.monOk.getLsbD 4 then ddrTrips s else s) s)
    | 2 => .next (toRc (fun s => raise 0x0906 2 0 (monTripped 2 s)) s)
    | 3 => .next (mediaTrips s)
    | 4 => .next (ddrTrips s)
    | _ => .next (sdsFail (monTripped 5 s))

/-- CLOCK_MONITOR_RECOVER (R411, R413): the clock has been back in its window for 1 ms. -/
def execClockMonitorRecover (monitor : Fin 6) (s : State) : Host.Outcome State Fault Refusal :=
  if s.clk.por ∨ s.clk.rcOk = false ∨ s.clk.monOk.getLsbD monitor.val then .next s
  else
    let s := monGood monitor.val s
    match monitor.val with
    | 1 => .next (endCond 0x0908 1 (s.onClk fun c => { c with refOk := true }))
    | 2 => .next (endCond 0x0906 2 s)
    | 3 => .next (endCond 0x0909 3 s)
    | _ => .next s

/-- PLL_LOCK (R405, R413, R424 step 5): 0 SYSPLL, 1 MEDIAPLL, 2 DDRPLL, 3 the SerDes PLL. -/
def execPllLock (pll : Fin 4) (s : State) : Host.Outcome State Fault Refusal :=
  let ok := pll.val == 3 || s.clk.refOk
  if s.clk.por || !s.clk.rcOk || !ok || s.clk.lock.getLsbD pll.val || (s.clk.power == .retain) then .next s
  else
    let s := s.onClk fun c => { c with lock := c.lock ||| BitVec.ofNat 4 (2 ^ pll.val) }
    match pll.val with
    | 0 => .next ((monGood 2 s).onClk fun c => { c with
        clockGood := true
        onRc := false
        boot := if c.boot = 4 then 5 else c.boot })
    | 1 => .next (if s.wave.rate.isSome then dpllSet (if s.net.ptp.usable then 1 else 0) (monGood 3 s) else monGood 3 s)
    | 2 => .next (monGood 4 s)
    | _ => .next (monGood 5 s)

/-! ### The change of rate (R406, R440) -/

/-- The rate may be set: the reference is good and MEDIAPLL locked. -/
def pllOk (s : State) : Bool := s.clk.refOk && s.clk.lock.getLsbD 1

/-- A rate change has been accepted and its first tick has not come; one that a staged plan brings counts as accepted two
waves before the plan's wave (R440, 05 R175). -/
def rateBusy (s : State) : Bool :=
  match s.clk.rateDue with
  | some (_, last, _) => s.wave.rate.isNone || decide (last.toNat ≤ (sampleNow s).toNat + 1)
  | none => false

/-- Checks of CLK_RATE_SET. -/
def clkRateSetCheck (p : List Byte) (s : State) : Option Fail :=
  let same := s.wave.rate.isSome && s.wave.rate == rateOf (fld p 0 1)
  orElse (paramCheck (zeroFrom p 1 3 ++ [lenIs p 4]))
    (orElse (failIf (decide (2 < fld p 0 1)) 0x0022)
      (orElse (failIf (rateBusy s || (!same && (s.plan.run.isSome || s.plan.staged.isSome))) 0x0006)
        (failIf (!pllOk s) 0x0063)))

/-- Effect of CLK_RATE_SET; `newFirst` is the number of new-rate periods since the PTP epoch at the first tick, which
that tick carries while COUNTER_VALID is 1. -/
def clkRateSetEffect (newFirst : BitVec 64) (_ : Nat) (p : List Byte) (s : State) : Effect :=
  match rateOf (fld p 0 1) with
  | none => (s, some (le 8 0))
  | some r =>
    if s.wave.rate = some r then (s, some (le 8 (nextTick s).toNat))
    else
      let first : BitVec 64 := if s.wave.counterValid then newFirst else 0
      (openGate 6 (s.onClk fun c => { c with rateDue := some (r, sampleNow s + 1, first) }), some (le 8 first.toNat))

/-- CLK_RATE_SET (R440). -/
def execClkRateSet (kiosk : Fin 32) (newFirst : BitVec 64) (s : State) : Host.Outcome State Fault Refusal :=
  .next (runKiosk 0x0902 kiosk.val fwdNever clkRateSetCheck (clkRateSetEffect newFirst) s)

/-- RATE_CHANGE_FIRST_TICK (R440 steps 3 to 5): the idle is over and the dividers are set; the next tick is the first of the
new rate. -/
def execRateChangeFirstTick (s : State) : Host.Outcome State Fault Refusal :=
  match s.clk.rateDue with
  | some (r, _, first) =>
    if rateIdle s && pllOk s then
      let had := s.wave.rate.isSome
      let s := if had then streamsClose s else s
      let d := nextTick s
      let s := restartTimers first (rebaseTicks d first (rebaseWaves d first s))
      let s := s.onWave fun w => { w with
        rate := some r
        step := none
        firstTick := some first
        ticked := false }
      let s := s.onClk fun c => { c with
        rateDue := none
        dpll := if c.dpll.isSome then c.dpll else some (if s.net.ptp.usable then 1 else 0)
        lastReal := if had && s.wave.counterValid then first else c.lastReal
        lastStep := if had && s.wave.counterValid then first - d else c.lastStep }
      .next (compareAll (drivePin 3 (openGate 6 s)))
    else .next s
  | none => .next s

/-! ### Gates (R414 to R416, 12 R389) -/

/-- A child of the gate is open. -/
def childOpen (s : State) (g : Nat) : Bool := (List.range 16).any fun k => gateParent k == some g && gateOpen s k

/-- The function of the gate's block is in use (R415). -/
def gateUsed (s : State) (g : Nat) : Bool :=
  if 1 ≤ g ∧ g ≤ 4 then (tget {} s.lio.groups (g - 1)).flags.getLsbD 0
  else if g = 5 then (List.range 4).any fun k => tget 0 s.lio.mclk k != 0
  else if g = 6 then (List.range 32).any (audioOn s)
  else if 8 ≤ g ∧ g ≤ 12 then
    (portAt s (g - 8)).flags.getLsbD 0
      || s.net.rx.any (fun q => (pathPorts q.2.ports).contains (g - 8)) || s.net.tx.any (fun q => (pathPorts q.2.ports).contains (g - 8))
  else if g = 13 then
    s.plan.players.any (fun q => q.2.st != 0) || s.plan.setDelay.any fun q => decide (4800 < q.2)
  else if g = 14 then s.twin.pair
  else false

/-- The fields of CLK_GATE_SET and its refusals. -/
def clkGateSetCheck (p : List Byte) (s : State) : Option Fail :=
  let g := fld p 0 1
  let close := byteAt p 1 == 2 && gateOpen s g
  orElse (paramCheck [(0, decide (g < 16)), (1, decide (fld p 1 1 ≤ 2)), (2, decide (fld p 2 2 ≤ 1000)), lenIs p 4])
    (orElse (failIf (close && childOpen s g) 0x0060) (failIf (close && gateUsed s g) 0x0062))

/-- Effect of CLK_GATE_SET: a close waits for its port to be idle. -/
def clkGateSetEffect (k : Nat) (p : List Byte) (s : State) : Effect :=
  let g := fld p 0 1
  let us := fld p 2 2
  let s := if byteAt p 1 ≠ 0 ∧ us ≠ 0 then s.onClk fun c => { c with gateTo := us } else s
  if byteAt p 1 = 2 ∧ gateOpen s g then (s.onClk fun c => { c with closing := c.closing ++ [(g, k, c.now)] }, none)
  else
    let s := if byteAt p 1 = 1 then openGate g s else s
    (s, some (le 4 (clkGates s).toNat))

/-- A close has been refused: GATE_REFUSED (R438). -/
def gateRefused (s : State) : State := s.onClk fun c => { c with gateRef := true }

/-- CLK_GATE_SET (R415). A refusal leaves every gate as it was, and is marked. -/
def execClkGateSet (kiosk : Fin 32) (s : State) : Host.Outcome State Fault Refusal :=
  let bad := match heldReq 0x0906 kiosk.val s with
    | some r => epochOk r s && match clkGateSetCheck r.payload s with
      | some f => f.status == 0x0060 || f.status == 0x0062
      | none => false
    | none => false
  .next (runKiosk 0x0906 kiosk.val fwdNever clkGateSetCheck clkGateSetEffect (if bad then gateRefused s else s))

/-- Closes of a gate that wait, and those that remain. -/
def takeClosing (g : Nat) (s : State) : List (Nat × Nat × Nat) × State :=
  (s.clk.closing.filter fun q => q.1 == g, s.onClk fun c => { c with closing := c.closing.filter fun q => q.1 != g })

/-- GATE_CLOSE_ACK (12 R389): the port is idle; the matrix acknowledges and the gate closes. -/
def execGateCloseAck (gate : Fin 16) (s : State) : Host.Outcome State Fault Refusal :=
  let r := takeClosing gate.val s
  let l := r.1
  if l = [] ∨ (s.mat.out.any fun q => txGate q.tx gate.val) = true then .next s
  else
    let s := r.2.onClk fun c => { c with gates := c.gates &&& ~~~ BitVec.ofNat 16 (2 ^ gate.val) }
    .next (l.foldl (fun s q => answerOk q.2.1 (le 4 (clkGates s).toNat) s) s)

/-- GATE_CLOSE_TIMEOUT (R415, 12 R389): the port is not idle within GATE_TIMEOUT; the close is refused and grants resume. -/
def execGateCloseTimeout (gate : Fin 16) (s : State) : Host.Outcome State Fault Refusal :=
  if s.clk.closing.any fun q => q.1 == gate.val && decide (q.2.2 + s.clk.gateTo ≤ s.clk.now) then
    let r := takeClosing gate.val s
    let s := gateRefused (r.2.onMat fun m => { m with gateRef := true })
    .next (r.1.foldl (fun s q => answerFail q.2.1 { status := 0x0061 } s) s)
  else .next s

/-! ### The measuring counter (R417, R441) -/

/-- Nominal frequency of a measurable clock in Hz; 0 while the clock does not run. -/
def nominalHz (s : State) (c : Nat) : Nat :=
  let fs := match s.wave.rate with
    | some r => r.hz
    | none => 0
  match c with
  | 0 => 100000000
  | 1 => 25000000
  | 2 => 1000000000
  | 3 => 491520000
  | 4 => match s.mat.ddrRate with
    | 1 => 400000000
    | 2 => 533375000
    | 3 => 687500000
    | 4 => 800000000
    | _ => 0
  | 5 => 156250000
  | 6 => 100000000
  | 7 => fs
  | 8 =>
    let g := tget {} s.lio.groups 0
    if fs = 0 || !g.flags.getLsbD 0 then 0 else if g.fmt = 0 then 49152000 else 64 * fs
  | 9 => if mclkRuns s 0 = false then 0 else match tget 0 s.lio.mclk 0 with
    | 1 => 12288000
    | 2 => 24576000
    | 3 => 49152000
    | _ => 0
  | 10 => 2560 * fs
  | _ => 644530000

/-- The fields of CLK_MEASURE. -/
def clkMeasureCheck (p : List Byte) (s : State) : Option Fail :=
  let n := fld p 4 4
  orElse (paramCheck ([(0, decide (fld p 0 1 < 12 ∧ fld p 0 1 ≠ fld p 1 1)), (1, decide (fld p 1 1 < 12))] ++ zeroFrom p 2 2
      ++ [(4, decide (1 ≤ n ∧ n ≤ 16777216 ∧ n * 10 ≤ nominalHz s (fld p 1 1) * 4)), lenIs p 8]))
    (failIf s.clk.meas.isSome 0x0066)

/-- Effect of CLK_MEASURE: the Kiosk waits for the count. -/
def clkMeasureEffect (k : Nat) (p : List Byte) (s : State) : Effect :=
  (s.onClk fun c => { c with meas := some (fld p 0 1, fld p 1 1, fld p 4 4, k) }, none)

/-- CLK_MEASURE (R417). -/
def execClkMeasure (kiosk : Fin 32) (s : State) : Host.Outcome State Fault Refusal :=
  .next (runKiosk 0x0905 kiosk.val fwdNever clkMeasureCheck clkMeasureEffect s)

/-- CLK_MEASURE_COMPLETE (R417): `count` cycles of the target were counted; TARGET_MHZ is in mHz from the reference's
nominal. -/
def execClkMeasureComplete (count : BitVec 32) (s : State) : Host.Outcome State Fault Refusal :=
  match s.clk.meas with
  | none => .next s
  | some (_, ref, cycles, k) =>
    let mhz := count.toNat * nominalHz s ref * 1000 / cycles
    .next (answerOk k (le 4 count.toNat ++ zeros 4 ++ le 8 mhz) (s.onClk fun c => { c with
      meas := none
      measCnt := count }))

end Sys2Proof.Machine
end

