-- ==== Sys2Proof/Machine/Power.lean ====
section
/-! DEFINITION. Boot, resets, power states and VDD_CORE (13 R418 to R439). -/

namespace Sys2Proof.Machine

/-! ### Power-on and release (R404, R418, R424, 16 R491) -/

/-- POWER_ON_RESET (16 R491, R421): a monitored supply has stayed below its falling threshold for 1 µs. -/
def execPowerOnReset (s : State) : Host.Outcome State Fault Refusal := .next (powerOn s)

/-- POWER_ON_RESET_RELEASE (16 R491). -/
def execPowerOnResetRelease (s : State) : Host.Outcome State Fault Refusal := .next (s.onClk fun c => { c with por := false })

/-- RC_STABLE (R404, R412, R424 steps 1 and 2): the fuses are read, UNIT_ID is latched, and the pin reset fuse map applies. -/
def execRcStable (unit : Bool) (s : State) : Host.Outcome State Fault Refusal :=
  if s.clk.por ∨ s.clk.rcOk then .next s
  else
    let s := pinsFuse (monGood 0 (s.onClk fun c => { c with
      rcOk := true
      absent := false
      boot := 2 }))
    .next (s.onTwin fun t => { t with unit := unit })

/-- A count in its place in a rising list. -/
def sortIn (v : Nat) : List Nat → List Nat
  | [] => [v]
  | w :: t => if v ≤ w then v :: w :: t else w :: sortIn v t

/-- The fourth-lowest of eight counts (R418). -/
def bootMedian (l : List Nat) : Nat := (l.foldr sortIn []).getD 3 0

/-- BOOTCFG code of a median count (R418). -/
def bootCodeOf (n : Nat) : Nat :=
  (([1, 2, 4, 5, 7, 9, 12, 15, 19, 23, 28, 34, 41, 48, 57] : List Nat).filter fun k => decide (k ≤ n)).length

/-- BOOTCFG_MEASURE (R418, R424 step 3): the eight conversions. -/
def execBootcfgMeasure (counts : List (BitVec 6)) (s : State) : Host.Outcome State Fault Refusal :=
  if s.clk.boot = 2 ∧ counts.length = 8 then
    let n := bootMedian (counts.map (·.toNat))
    let c := bootCodeOf n
    .next ((s.onClk fun q => { q with
      bootCount := BitVec.ofNat 6 n
      bootCode := BitVec.ofNat 4 c
      boot := 3 }).onHost fun h => { h with bootSrc := c / 4 })
  else .next s

/-- CRYSTAL_DELAY_END (R424 steps 4 and 5): `refGood` is what monitor 1 reports. Without a good reference the engine goes on
with the RC. -/
def execCrystalDelayEnd (refGood : Bool) (s : State) : Host.Outcome State Fault Refusal :=
  if s.clk.boot = 3 then
    if refGood then .next (monGood 1 (s.onClk fun c => { c with
      xtal := true
      refOk := true
      boot := 4 }))
    else .next (s.onClk fun c => { c with
      xtal := true
      onRc := true
      boot := 5 })
  else .next s

/-- Nolut enters the boot ROM (R424 step 7, 11 R354); network boot opens gates 7 and 12 (R416). -/
def bootRom (s : State) : State :=
  let s := drivePin 10 (s.onClk fun c => { c with boot := 7 })
  match s.host.bootSrc with
  | 1 => s.onHost fun h => { h with fwState := 1 }
  | 2 => openGate 12 (s.onHost fun h => { h with fwState := 2 })
  | 3 => s.onHost fun h => { h with fwState := 8 }
  | _ => s.onHost fun h => { h with fwState := 2 }

/-- DDR_TRAINING_COMPLETE (12 R397, R424 step 8): the firmware has trained LPDDR5 of capacity code `cap` at rate code `rate`, or
failed; it also releases MGT_nPHYRST (R428). -/
def execDdrTrainingComplete (ok : Bool) (cap rate : Nat) (s : State) : Host.Outcome State Fault Refusal :=
  if s.host.fwState = 4 ∧ s.mat.ddrState ≤ 1 then
    let s := drivePin 9 (s.onMat fun m => { m with
      ddrCap := if 1 ≤ cap ∧ cap ≤ 5 then cap else 0
      ddrRate := if 1 ≤ rate ∧ rate ≤ 4 then rate else 0 })
    if ok ∧ 1 ≤ cap ∧ cap ≤ 5 ∧ 1 ≤ rate ∧ rate ≤ 4 then .next (s.onMat fun m => { m with
      ddrState := 2
      retrain := s.clk.now })
    else .next (raise 0x1008 0 0 (ddrFail s))
  else .next s

/-- DDR_RETRAIN (12 R397). -/
def execDdrRetrain (s : State) : Host.Outcome State Fault Refusal :=
  if s.mat.ddrState = 2 then .next (s.onMat fun m => { m with retrain := s.clk.now }) else .next s

/-- QUARTER_RELEASE (R425): all 13 routers of the next quarter have acknowledged. `failed` names tiles of it that fail their
power-on self-test, which start retired (06 R202). -/
def execQuarterRelease (failed : List (Fin 416)) (s : State) : Host.Outcome State Fault Refusal :=
  if s.host.fwState = 4 ∧ s.clk.quarters < 4 ∧ 2 ≤ s.mat.ddrState then
    let bad := failed.filter fun k => quarterOf (k.val / 8) == s.clk.quarters
    let s := s.onClk fun c => { c with
      quarters := c.quarters + 1
      boot := if c.quarters = 3 then 8 else c.boot }
    let s := s.onPlace fun p => { p with selfTest := p.selfTest || decide (4 ≤ s.clk.quarters) }
    .next (bad.foldl (fun s k => onTile k.val (fun q => { q with
      failed := true
      retired := true }) s) s)
  else .next s

/-- DISTRICT_FAIL (R425): a router that does not acknowledge within 50 ms has all its tiles retired. -/
def execDistrictFail (district : Fin 52) (s : State) : Host.Outcome State Fault Refusal :=
  let d := district.val
  if s.host.fwState = 4 ∧ quarterOf d = s.clk.quarters then
    .next (raise 0x040D (distObj d) 0 ((List.range 8).foldl (fun s t => retireTile d t s) s))
  else .next s

/-- Where the staging window lies in SRAM (12 R381). The boot ROM reads its images of boot sources 0 and 2 to the same
place (log entry 10). -/
def stagingAt : Nat := 0x10200000

/-- Root key, signature and digest of the image at a matrix address hold (15 R468). -/
def imageSigned (s : State) (a : Nat) : Bool :=
  let h := memRead s.mat.mem a 176
  let root := memRead s.mat.mem (a + (fld h 16 4 - 97)) 97
  let n := fld h 9 1
  sha384 root == s.sm.roots.getD n [] && !s.sm.revoked.getLsbD n && ecdsaVerify root (sha384 (h.take 80)) ((h.drop 80).take 96)
    && (h.drop 32).take 48 == sha384 (memRead s.mat.mem (a + 176) (fld h 12 4 - 176))

/-- BOOT_ERR of the image at a matrix address, 0 for a good one (15 R468): 3 length, 2 rollback, 1 anything else. -/
def imageErr (s : State) (a : Nat) : Nat :=
  let h := memRead s.mat.mem a 176
  let len := fld h 12 4
  if len < 176 ∨ 2097152 < len then 3
  else if imageSigned s a = false ∨ fld h 0 4 ≠ 0x4E4C4946 ∨ 1 < fld h 9 1 ∨ fld h 10 2 ≠ 0 ∨ 64 < fld h 8 1 then 1
  else if fld h 8 1 < s.sm.rollback then 2
  else 0

/-- Where the copy of the running image lies in the firmware region of LPDDR5 (R423, 12 R399; log entry 164). -/
def copyAt : Nat := ddrBase + 67108864

/-- The running image is copied to LPDDR5. -/
def copyImage (s : State) : State :=
  s.onMat fun m => { m with mem := memWrite m.mem copyAt (memRead m.mem stagingAt (min 2097152 (fld (memRead m.mem stagingAt 176) 12 4))) }

/-- The firmware raises STATE to READY (11 R355): the Kiosks are IDLE and the channels closed, BOOT is posted, nFAULT takes
ASSERT and nHOST_IRQ its owner's level (R428), and a census run starts (09 R300). -/
def fwReady (s : State) : State :=
  let s := s.onHost fun h => { h with
    fwState := 5
    kiosks := (List.range 32).foldl (fun t k => tmod {} t k fun q => { q with st := 0 }) h.kiosks
    dp := []
    served := s.clk.now }
  let s := s.onClk fun c => { c with
    boot := 9
    restart := false }
  runStart 1 (raise 0x0001 0 0 (drivePin 5 (drivePin 4 s)))

/-- FW_READY (11 R355, R424 step 9). -/
def execFwReady (s : State) : Host.Outcome State Fault Refusal :=
  if s.host.fwState = 4 ∧ s.clk.quarters = 4 ∧ s.clk.restart = false then .next (fwReady (copyImage s)) else .next s

/-! ### Resets (R419 to R423, R437) -/

/-- NRESET_LOW (R420): nRESET has been low for `ns` nanoseconds. From 850 ns to 1 µs either outcome may come; `taken` says
which. -/
def execNresetLow (ns : Nat) (taken : Bool) (s : State) : Host.Outcome State Fault Refusal :=
  if s.clk.por then .next s
  else if 1000 ≤ ns ∨ (850 ≤ ns ∧ taken) then .next (systemReset 1 s)
  else .next s

/-- A bit of RESET_CAUSE is set. -/
def setCause (bit : Nat) (s : State) : State := s.onClk fun c => { c with causes := c.causes ||| BitVec.ofNat 9 (2 ^ bit) }

/-- PCIE_PERST (R419, R421, R422): low resets the PCIe endpoint and link; high lets the link train. Under the FATAL latch
it resets the endpoint alone. -/
def execPciePerst (high : Bool) (s : State) : Host.Outcome State Fault Refusal :=
  if high then .next (s.onMat fun m => { m with pcie := true })
  else
    let s := setCause 7 (s.onMat fun m => { m with pcie := false })
    .next (if s.flt.fatal then s else hostLost s)

/-- FW_WATCHDOG (R419, R423): no service for 1.0 s while STATE is READY. -/
def execFwWatchdog (s : State) : Host.Outcome State Fault Refusal :=
  if s.host.fwState = 5 ∧ s.host.served + 1000000 ≤ s.clk.now then .next (nolutReset (setCause 4 (raise 0x090A 0 0 s)))
  else .next s

/-- FW_HEARTBEAT_INCREMENT (11 R353): once per ms while STATE is READY. A firmware that does so also services its watchdog. -/
def execFwHeartbeatIncrement (s : State) : Host.Outcome State Fault Refusal :=
  if s.host.fwState = 5 then .next (s.onHost fun h => { h with
    beat := h.beat + 1
    served := s.clk.now })
  else .next s

/-- NOLUT_RESTART_COMPLETE (R423): the copy of the image passes the checks of 15 R468 and STATE reaches READY, or FATAL
FW_RESTART; a copy that fails does not run (00 R2). -/
def execNolutRestartComplete (_ : Computed) (s : State) : Host.Outcome State Fault Refusal :=
  if s.clk.restart ∧ s.host.fwState = 4 then
    .next (if imageErr s copyAt = 0 then fwReady s else raise 0x090B 0 0 s)
  else .next s

/-- The fields of PWR_RESET (R441). -/
def pwrResetCheck (p : List Byte) (_ : State) : Option Fail :=
  paramCheck ([(0, decide (fld p 0 1 ≤ 1)), (1, fld p 1 1 == 0xA5)] ++ zeroFrom p 2 2 ++ [lenIs p 4])

/-- Effect of PWR_RESET: the response is written, and the reset follows 1 ms later (R437). -/
def pwrResetEffect (_ : Nat) (p : List Byte) (s : State) : Effect :=
  (s.onClk fun c => { c with resetDue := some (fld p 0 1, c.now) }, some [])

/-- PWR_RESET (R419). -/
def execPwrReset (kiosk : Fin 32) (s : State) : Host.Outcome State Fault Refusal :=
  .next (runKiosk 0x0909 kiosk.val fwdNever pwrResetCheck pwrResetEffect s)

/-- COMMANDED_RESET (R437): 1 ms after the response the reset takes effect. -/
def execCommandedReset (s : State) : Host.Outcome State Fault Refusal :=
  match s.clk.resetDue with
  | some (scope, t) =>
    if t + 1000 ≤ s.clk.now ∧ s.flt.fatal = false then
      .next (if scope = 0 then systemReset 3 s else nolutReset (setCause 5 s))
    else .next s
  | none => .next s

/-! ### Power states (R431 to R434) -/

/-- The transition that STATE asks for is allowed (R432). -/
def transitionOk (s : State) (st : Nat) : Bool :=
  s.clk.powDue.isNone && match s.clk.power with
    | .run => st == 1
    | .hush => st == 0 || st == 2
    | _ => false

/-- The fields of PWR_STATE_SET. -/
def pwrStateSetCheck (p : List Byte) (s : State) : Option Fail :=
  orElse (paramCheck ([(0, decide (fld p 0 1 ≤ 2)), (1, decide (fld p 1 1 ≤ 1))] ++ zeroFrom p 2 2
      ++ [(4, decide (fld p 4 4 ≤ 86400)), lenIs p 8]))
    (failIf (!transitionOk s (fld p 0 1)) 0x0062)

/-- Effect of PWR_STATE_SET (R433, R434). An active twin claimant yields on entry to HUSH or RETAIN (R432). -/
def pwrStateSetEffect (_ : Nat) (p : List Byte) (s : State) : Effect :=
  let a := sampleNow s
  let h := a + 2
  let s := s.onClk fun c => { c with
    priWake := bitOf (fld p 1 1) 0
    wakeS := fld p 4 4 }
  match (byteAt p 0).toNat with
  | 0 =>
    if s.wave.rate.isSome then (s.onClk fun c => { c with powDue := some (.run, h) }, some (le 8 h.toNat))
    else (s.onClk fun c => { c with power := .run }, some (le 8 a.toNat))
  | 1 =>
    if s.wave.rate.isSome then (s.onClk fun c => { c with powDue := some (.hush, h) }, some (le 8 h.toNat))
    else (yieldSoon false (s.onClk fun c => { c with power := .hush }), some (le 8 a.toNat))
  | _ => (yieldSoon false (s.onClk fun c => { c with powDue := some (.retain, a) }), some (le 8 a.toNat))

/-- PWR_STATE_SET (R432). -/
def execPwrStateSet (kiosk : Fin 32) (s : State) : Host.Outcome State Fault Refusal :=
  .next (runKiosk 0x0907 kiosk.val fwdNever pwrStateSetCheck pwrStateSetEffect s)

/-- RETAIN_ENTER (R434, R437, 12 R396): everything but the wake detector and the retained memories is off. -/
def execRetainEnter (s : State) : Host.Outcome State Fault Refusal :=
  if s.clk.power = .hush ∧ (match s.clk.powDue with
      | some (.retain, _) => true
      | _ => false) = true then
    let woken := s.clk.wakeSrc != 0
    let s := zeroVolatile (tdmStop (linksIdle (stopWaves (hostLost (sdsFail s)))))
    let s := (List.range 32).foldl (fun s l => linkOff l s) s
    let s := linkSet 4 false s
    let s := s.onWave fun w => { w with counterValid := false }
    let s := s.onNet fun n => { n with
      magic := n.magicNext
      pats := n.wakeNext
      ports := (List.range 5).foldl (fun t p => tmod {} t p fun q => { q with
        queue := []
        fwTx := []
        fwOut := none
        sending := none }) n.ports }
    let s := s.onMat fun m => { m with
      pcie := false
      out := []
      back := []
      ddrState := if m.ddrState = 2 then 3 else m.ddrState }
    .next (s.onClk fun c => { c with
      power := if woken then .waking else .retain
      powDue := none
      retAt := c.now
      dpll := none
      lock := 0
      monOk := 0
      clockGood := false
      relock := true })
  else .next s

/-- WAKE_COMPLETE (R434, R436): clocks and memories are back, the counter has advanced by the `periods` that passed, the
Kiosks and rings are at their reset values, and the engine enters HUSH. -/
def execWakeComplete (periods : BitVec 64) (s : State) : Host.Outcome State Fault Refusal :=
  if s.clk.power = .waking then
    let s := s.onClk fun c => { c with
      power := .hush
      wakeSrc := 0
      vid := 10
      lock := 0xF
      monOk := 0x3F
      clockGood := true
      onRc := false
      dpll := if s.wave.rate.isSome then some (if s.net.ptp.usable then 1 else 0) else none }
    let s := s.onWave fun w => { w with count := if w.rate.isSome then w.count + periods else w.count }
    let s := s.onMat fun m => { m with
      ddrState := if m.ddrState = 3 then 2 else m.ddrState
      retrain := s.clk.now
      scrubbed := s.clk.now }
    let s := s.onNet fun n => { n with rings := [] }
    let s := s.onHost fun h => { h with
      kiosks := (List.range 32).foldl (fun t k => tput {} t k { st := 0 }) []
      served := s.clk.now }
    .next (drivePin 8 (raise 0x0002 0 0 s))
  else .next s

/-! ### VDD_CORE and the pin map (R429, R436, R439) -/

/-- The fields of PWR_VCORE. -/
def pwrVcoreCheck (p : List Byte) (_ : State) : Option Fail :=
  paramCheck ([(0, decide (fld p 0 1 ≤ 1))] ++ onOp p 0 [(1, 1, decide (4 ≤ fld p 1 1 ∧ fld p 1 1 ≤ 12)),
    (2, 1, decide (fld p 1 1 ≤ fld p 2 1 ∧ fld p 2 1 ≤ 16))] ++ zeroFrom p 3 1 ++ [lenIs p 4])

/-- Effect of PWR_VCORE: the code stays between FLOOR and CEILING. -/
def pwrVcoreEffect (_ : Nat) (p : List Byte) (s : State) : Effect :=
  let r := le 1 s.clk.floor ++ le 1 s.clk.ceil ++ le 1 s.clk.vid ++ zeros 1
  (if byteAt p 0 = 1 then
    s.onClk fun c => { c with
      floor := fld p 1 1
      ceil := fld p 2 1
      vid := max (fld p 1 1) (min c.vid (fld p 2 1)) }
  else s, some r)

/-- PWR_VCORE (R436). -/
def execPwrVcore (kiosk : Fin 32) (s : State) : Host.Outcome State Fault Refusal :=
  .next (runKiosk 0x0908 kiosk.val fwdNever pwrVcoreCheck pwrVcoreEffect s)

/-- PROGRAMMED: a bit per group. -/
def pinsDone (s : State) : Nat := (List.range 11).foldl (fun m g => m + if tget 0 s.clk.pins g = 0 then 0 else 2 ^ g) 0

/-- PWR_PINMAP_READ takes no payload. -/
def pwrPinmapReadCheck (p : List Byte) (_ : State) : Option Fail := paramCheck [lenIs p 0]

/-- The response of PWR_PINMAP_READ. -/
def pwrPinmapReadEffect (_ : Nat) (_ : List Byte) (s : State) : Effect :=
  (s, some ((List.range 11).flatMap (fun g => le 1 (pinFuse s g)) ++ zeros 1 ++ le 2 (pinsDone s) ++ zeros 2))

/-- PWR_PINMAP_READ (R439). -/
def execPwrPinmapRead (kiosk : Fin 32) (s : State) : Host.Outcome State Fault Refusal :=
  .next (runKiosk 0x090A kiosk.val fwdNever pwrPinmapReadCheck pwrPinmapReadEffect s)

/-- The fields of PWR_PINMAP_PROGRAM (R429). -/
def pwrPinmapProgramCheck (p : List Byte) (s : State) : Option Fail :=
  let g := fld p 0 1
  orElse (paramCheck ([(0, decide (g < 11)), (1, (pinAllowed g).contains (fld p 1 1))] ++ zeroFrom p 2 2 ++ [lenIs p 4]))
    (failIf (tget 0 s.clk.pins g != 0) 0x0065)

/-- Effect of PWR_PINMAP_PROGRAM: the code takes effect at the next POR or SYSTEM reset. -/
def pwrPinmapProgramEffect (_ : Nat) (p : List Byte) (s : State) : Effect :=
  let s := s.onClk fun c => { c with pins := tput 0 c.pins (fld p 0 1) (fld p 1 1 + 1) }
  (s, some (le 2 (pinsDone s) ++ zeros 2))

/-- PWR_PINMAP_PROGRAM (R429). -/
def execPwrPinmapProgram (kiosk : Fin 32) (s : State) : Host.Outcome State Fault Refusal :=
  .next (runKiosk 0x090B kiosk.val fwdNever pwrPinmapProgramCheck pwrPinmapProgramEffect s)

end Sys2Proof.Machine
end

