-- ==== Sys2Proof/Machine/Security.lean ====
section
/-! DEFINITION. The Security Module: self-tests, sessions, keys, the signed library, glitch and tamper, approved mode, and
command family 0x0B (15 R464 to R488). -/

namespace Sys2Proof.Machine

/-! ### State and register -/

/-- A mask with bit `k` set where `f k` holds, for `k` below `n`. -/
def maskOf (n : Nat) (f : Nat → Bool) : Nat := (List.range n).foldl (fun v k => v + if f k then 2 ^ k else 0) 0

/-- OPERATORS: a bit per slot that holds an operator key. -/
def opersMask (s : State) : Nat := maskOf 8 fun k => (tget none s.sm.opers k).isSome

/-- LIB_KEYS: a bit per slot that holds a library key. -/
def libKeysMask (s : State) : Nat := maskOf 4 fun k => (tget none s.sm.libKeys k).isSome

/-- No operator key is enrolled (R471). -/
def commissioning (s : State) : Bool := opersMask s == 0

/-- Slots whose operator has the KEYS role. -/
def keysSlots (s : State) : List Nat := (List.range 8).filter fun k =>
  match tget none s.sm.opers k with
  | some o => o.roles.getLsbD 2
  | none => false

/-- SM_STATUS (R485). -/
def smStatus (s : State) : BitVec 32 :=
  let m := s.sm
  let roles := match m.session with
    | some q => q.roles.toNat
    | none => 0
  BitVec.ofNat 32 (m.state * 2 ^ 28 + b2n m.approved * 2 ^ 27 + b2n m.session.isSome * 2 ^ 26 + roles * 2 ^ 23
    + b2n m.debug * 2 ^ 22 + b2n (commissioning s) * 2 ^ 21 + m.rollback * 2 ^ 14 + b2n m.lost * 2 ^ 7 + b2n m.glitch * 2 ^ 6
    + b2n m.sealFail * 2 ^ 5 + b2n m.authFail * 2 ^ 4 + b2n m.libDenied * 2 ^ 3)

/-- A write of SM_STATUS: its sticky bits clear where a 1 is written (R485). -/
def smStatusWrite (v : BitVec 32) (s : State) : State := s.onSm fun m => { m with
  lost := m.lost && !v.getLsbD 7
  glitch := m.glitch && !v.getLsbD 6
  sealFail := m.sealFail && !v.getLsbD 5
  authFail := m.authFail && !v.getLsbD 4
  libDenied := m.libDenied && !v.getLsbD 3 }

/-- Only a module in READY serves (R467, R479). -/
def smUp (s : State) : Option Fail := failIf (s.sm.state != 1) 0x0057

/-- The command runs on Kiosk 31 alone (R486). -/
def only31 (k : Nat) : Option Fail := if k = 31 then none else some (badParam 0)

/-- The response is written first, sealed, and `f` follows (R487). -/
def answerThen (k : Nat) (p : List Byte) (f : State → State) (s : State) : Effect := (f (answerOk k p s), none)

/-! ### Approved mode (R481, R482) -/

/-- The conditions of approved mode (R481). -/
def approvable (s : State) : Bool :=
  s.sm.order == 2 && s.sm.state == 1 && keysSlots s != [] && !s.sm.debug
    && !((List.range 4).any fun i =>
      match tget none s.flt.inj i with
      | some j => j.src / 256 == 0x0B
      | none => false)

/-- Entry to approved mode zeroises the VOLATILE scope (R482). -/
def enterApproved (s : State) : State :=
  if s.sm.approved then s else zeroVolatile (s.onSm fun m => { m with approved := true })

/-! ### Self-tests and detectors (R467, R479) -/

/-- SM_SELFTEST_COMPLETE (R467, R424 steps 6 and 7): the module reaches READY, or TAMPERED with its fuse blown, re-enters
approved mode if that was requested (R481), and Nolut is released; or FATAL SM_SELFTEST. -/
def execSmSelftestComplete (ok : Bool) (s : State) : Host.Outcome State Fault Refusal :=
  if s.clk.boot = 5 ∧ s.sm.state = 0 then
    if ok then
      let s := s.onSm fun m => { m with state := if m.tampered then 3 else 1 }
      let s := if s.sm.request && approvable s then enterApproved s else s
      .next (bootRom s)
    else .next (raise 0x0B03 0 0 s)
  else .next s

/-- SM_CONDITIONAL_TEST_FAIL (R467): READY becomes ERROR. -/
def execSmConditionalTestFail (s : State) : Host.Outcome State Fault Refusal :=
  if s.sm.state = 1 then
    let s := smFail (leaveApproved s)
    .next (raise 0x0B01 0 0x10 (zeroVolatile (s.onSm fun m => { m with state := 2 })))
  else .next s

/-- The detectors run: not in RETAIN or without power, and again from the wake on (R479). -/
def detects (s : State) : Bool := !s.clk.por && !(s.clk.power == .retain)

/-- A tamper (R479): every key is zeroised, the fuse blown, and FATAL raised; a command in progress gets no response
(R484). -/
def tamper (s : State) : State :=
  let s := zeroTotal (leaveApproved (s.onSm fun m => { m with verifying := none }))
  raise 0x0B02 0 0 (s.onSm fun m => { m with
    tampered := true
    state := 3 })

/-- SM_GLITCH (R479): a supply glitch, or a clock glitch where the operand says so: both act alike. Four within one second are a tamper. -/
def execSmGlitch (_clock : Bool) (s : State) : Host.Outcome State Fault Refusal :=
  if detects s then
    let s := smFail (s.onSm fun m => { m with
      glitch := true
      glitches := s.clk.now :: m.glitches.filter fun t => decide (s.clk.now < t + 1000000) })
    let s := raise 0x0B01 0 0 s
    .next (if 4 ≤ s.sm.glitches.length then tamper s else s)
  else .next s

/-- SM_TAMPER (R479): shield, light or temperature. -/
def execSmTamper (_detector : Fin 3) (s : State) : Host.Outcome State Fault Refusal :=
  if detects s then .next (tamper s) else .next s

/-! ### Sessions (R471 to R474) -/

/-- Opens are refused: a session exists, or three authentications have failed within 60 s (R472, R474). -/
def opensRefused (s : State) : Bool :=
  s.sm.session.isSome || match s.sm.lockAt with
    | some t => decide (s.clk.now < t + 60000000)
    | none => false

/-- Checks of SEC_SESSION_OPEN. -/
def secSessionOpenCheck (k : Nat) (p : List Byte) (s : State) : Option Fail :=
  orElse (only31 k) (orElse (paramCheck ([(0, decide (fld p 0 1 < 8))] ++ zeroFrom p 1 3 ++ zeroFrom p 101 3 ++ [lenIs p 104]))
    (orElse (failIf (opensRefused s) 0x0052) (orElse (failIf ((tget none s.sm.opers (fld p 0 1)).isNone) 0x0054) (smUp s))))

/-- `n` random bytes of the module (R465): its CTR_DRBG, reseeded with what the entropy source gives. -/
def smRandom (entropy : List Byte) (n : Nat) (s : State) : List Byte × State :=
  let r := drbgGenerate (sized 32 s.sm.drbg.1, sized 16 s.sm.drbg.2) entropy n
  (r.1, s.onSm fun m => { m with drbg := r.2 })

/-- Effect of SEC_SESSION_OPEN (R472): a new ephemeral key pair and a nonce of 32 bytes. -/
def secSessionOpenEffect (entropy : List Byte) (_ : Nat) (p : List Byte) (s : State) : Effect :=
  let r := smRandom entropy 88 s
  let d := ecPrivate (r.1.take 56)
  let pub := ecPublic d
  let n := r.1.drop 56
  (r.2.onSm fun m => { m with opening := some {
      slot := fld p 0 1
      hostPub := (p.drop 4).take 97
      enginePub := pub
      nonce := n
      priv := d
      time := s.clk.now } }, some (pub ++ zeros 3 ++ n))

/-- SEC_SESSION_OPEN (0x0B03). -/
def execSecSessionOpen (kiosk : Fin 32) (entropy : List Byte) (_ : Computed) (s : State) :
    Host.Outcome State Fault Refusal :=
  .next (runKiosk 0x0B03 kiosk.val fwdNever (secSessionOpenCheck kiosk.val) (secSessionOpenEffect entropy) s)

/-- The operator of the open that waits, if its 10 s have not passed. -/
def openingOper (s : State) : Option (Opening × Oper) :=
  match s.sm.opening with
  | some o => if s.clk.now ≤ o.time + 10000000 then (tget none s.sm.opers o.slot).map fun q => (o, q) else none
  | none => none

/-- Checks of SEC_SESSION_AUTH: IDLE_S is 0 or 10 to 86,400. Whether the signature verifies is its effect. -/
def secSessionAuthCheck (k : Nat) (p : List Byte) (s : State) : Option Fail :=
  let idle := fld p 96 4
  orElse (only31 k) (orElse (paramCheck [(96, idle == 0 || decide (10 ≤ idle ∧ idle ≤ 86400)), lenIs p 100]) (smUp s))

/-- A failed authentication discards the open; the third within 60 s begins the refusal of opens (R472). -/
def authFailed (counted : Bool) (s : State) : State :=
  s.onSm fun m =>
    let f := if counted then s.clk.now :: m.fails.filter fun t => decide (s.clk.now < t + 60000000) else m.fails
    { m with
      authFail := true
      opening := none
      lockAt := if counted && decide (3 ≤ f.length) then some s.clk.now else m.lockAt
      fails := if counted && decide (3 ≤ f.length) then [] else f }

/-- The bytes of an ASCII text. -/
def asciiOf (t : String) : List Byte := t.toList.map fun c => BitVec.ofNat 8 c.toNat

/-- th of R472. -/
def sessionHash (s : State) (o : Opening) : List Byte :=
  sha384 (asciiOf "ZN1840 SESSION" ++ le 8 s.sm.uid.toNat ++ le 1 o.slot ++ o.hostPub ++ o.enginePub ++ o.nonce)

/-- okm of R472; none where HOST_PUB is no point of the curve. -/
def sessionKeys (s : State) (o : Opening) : Option (List Byte) :=
  (ecdh o.priv o.hostPub).map fun z => hkdf384 o.nonce z (sessionHash s o) 72

/-- Effect of SEC_SESSION_AUTH (R472): the host's signature over th verifies with the operator's key, or the open fails. The
answer is the identity key's signature over the hash of th and the host's signature. A HOST_PUB with which no key can be
agreed fails like a signature (log entry 163). -/
def secSessionAuthEffect (entropy : List Byte) (k : Nat) (p : List Byte) (s : State) : Effect :=
  match openingOper s with
  | none => (answerFail k { status := 0x0051 } (authFailed false s), none)
  | some (o, q) =>
    let th := sessionHash s o
    match ecdsaVerify q.pub th (p.take 96), sessionKeys s o with
    | true, some okm =>
      let r := smRandom entropy 56 s
      let devSig := ecdsaSign (s.sm.ident.getD 0) (ecPrivate r.1) (sha384 (th ++ p.take 96))
      let s := r.2
      let idle := if fld p 96 4 = 0 then 600 else fld p 96 4
      (s.onSm fun m => { m with
        opening := none
        session := some {
          slot := o.slot
          roles := q.roles
          idle := idle
          lastAt := s.clk.now
          okm := okm } }, some (devSig ++ le 1 q.roles.toNat ++ zeros 3 ++ le 4 idle))
    | _, _ => (answerFail k { status := 0x0051 } (authFailed true s), none)

/-- SEC_SESSION_AUTH (0x0B04). -/
def execSecSessionAuth (kiosk : Fin 32) (entropy : List Byte) (_ _ : Computed) (s : State) :
    Host.Outcome State Fault Refusal :=
  .next (runKiosk 0x0B04 kiosk.val fwdNever (secSessionAuthCheck kiosk.val) (secSessionAuthEffect entropy) s)

/-- SEC_SESSION_CLOSE: its sealed response is written, and the session ends. -/
def secSessionCloseEffect (k : Nat) (_ : List Byte) (s : State) : Effect := answerThen k [] sessionEnd s

/-- SEC_SESSION_CLOSE (0x0B05). -/
def execSecSessionClose (kiosk : Fin 32) (s : State) : Host.Outcome State Fault Refusal :=
  .next (runKiosk 0x0B05 kiosk.val fwdNever (fun p _ => paramCheck [lenIs p 0]) secSessionCloseEffect s)

/-- SESSION_IDLE_TIMEOUT (R474). -/
def execSessionIdleTimeout (s : State) : Host.Outcome State Fault Refusal :=
  match s.sm.session with
  | some q => if q.lastAt + q.idle * 1000000 ≤ s.clk.now then .next (sessionEnd s) else .next s
  | none => .next s

/-- SESSION_AUTH_TIMEOUT (R472). -/
def execSessionAuthTimeout (s : State) : Host.Outcome State Fault Refusal :=
  match s.sm.opening with
  | some o => if o.time + 10000000 ≤ s.clk.now then .next (s.onSm fun m => { m with opening := none }) else .next s
  | none => .next s

/-- SESSION_LOCKOUT_END (R472). -/
def execSessionLockoutEnd (s : State) : Host.Outcome State Fault Refusal :=
  match s.sm.lockAt with
  | some t => if t + 60000000 ≤ s.clk.now then .next (s.onSm fun m => { m with lockAt := none }) else .next s
  | none => .next s

/-! ### Status and identity -/

/-- The response of SEC_STATUS. -/
def secStatusEffect (_ : Nat) (_ : List Byte) (s : State) : Effect :=
  (s, some (le 4 (smStatus s).toNat ++ le 4 s.sm.version.toNat ++ le 1 (opersMask s) ++ le 1 (libKeysMask s) ++ zeros 2
    ++ le 8 (maskOf 64 fun h => (tget none s.sm.keys (0x0100 + h)).isSome) ++ le 2 s.sm.libMb ++ zeros 2
    ++ (List.range 128).flatMap fun b => le 1 (maskOf 8 fun i => libVerified s (8 * b + i))))

/-- SEC_STATUS (0x0B01). -/
def execSecStatus (kiosk : Fin 32) (s : State) : Host.Outcome State Fault Refusal :=
  .next (runKiosk 0x0B01 kiosk.val fwdNever (fun p _ => paramCheck [lenIs p 0]) secStatusEffect s)

/-- Checks of SEC_IDENTITY: a tampered part has no identity key. -/
def secIdentityCheck (p : List Byte) (s : State) : Option Fail := orElse (paramCheck [lenIs p 0]) (smUp s)

/-- The response of SEC_IDENTITY. -/
def secIdentityEffect (_ : Nat) (_ : List Byte) (s : State) : Effect :=
  (s, some ((match s.sm.ident with
    | some d => ecPublic d
    | none => zeros 97) ++ zeros 3 ++ le 8 s.sm.uid.toNat ++ sized 96 s.sm.identSig))

/-- SEC_IDENTITY (0x0B02). -/
def execSecIdentity (kiosk : Fin 32) (s : State) : Host.Outcome State Fault Refusal :=
  .next (runKiosk 0x0B02 kiosk.val fwdNever secIdentityCheck secIdentityEffect s)

/-! ### Operator and library keys -/

/-- Checks of SEC_ENROL (R471, R487): while commissioning it enrols slot 0; the last key with the KEYS role stays. -/
def secEnrolCheck (p : List Byte) (s : State) : Option Fail :=
  let slot := fld p 0 1
  let op := fld p 1 1
  orElse (paramCheck ([(0, decide (slot < 8)), (1, decide (op ≤ 2)), (2, decide (fld p 2 1 < 8))] ++ zeroFrom p 3 1
      ++ zeroFrom p 101 3 ++ [lenIs p 104]))
    (orElse (if op = 2 ∧ keysSlots s = [slot] then some (badParam 0) else none)
      (orElse (failIf (op == 1 && !commissioning s && (tget none s.sm.opers slot).isSome) 0x0055) (smUp s)))

/-- Effect of SEC_ENROL. -/
def secEnrolEffect (_ : Nat) (p : List Byte) (s : State) : Effect :=
  let pub := (p.drop 4).take 97
  let s := match fld p 1 1 with
    | 1 =>
      if commissioning s then s.onSm fun m => { m with opers := tput none m.opers 0 (some {
          roles := 7
          pub := pub }) }
      else s.onSm fun m => { m with opers := tput none m.opers (fld p 0 1) (some {
          roles := BitVec.ofNat 3 (fld p 2 1)
          pub := pub }) }
    | 2 => s.onSm fun m => { m with opers := tput none m.opers (fld p 0 1) none }
    | _ => s
  (s, some (le 1 (opersMask s) ++ zeros 3))

/-- SEC_ENROL (0x0B06). -/
def execSecEnrol (kiosk : Fin 32) (s : State) : Host.Outcome State Fault Refusal :=
  .next (runKiosk 0x0B06 kiosk.val fwdNever secEnrolCheck secEnrolEffect s)

/-- Checks of SEC_LIB_KEY_SET. -/
def secLibKeySetCheck (p : List Byte) (s : State) : Option Fail :=
  orElse (paramCheck ([(0, decide (fld p 0 1 < 4)), (1, decide (fld p 1 1 ≤ 2))] ++ zeroFrom p 2 2 ++ zeroFrom p 101 3
      ++ [lenIs p 104])) (smUp s)

/-- Effect of SEC_LIB_KEY_SET. -/
def secLibKeySetEffect (_ : Nat) (p : List Byte) (s : State) : Effect :=
  let v : Option (List Byte) := if byteAt p 1 = 1 then some ((p.drop 4).take 97) else none
  let s := if byteAt p 1 = 0 then s else s.onSm fun m => { m with libKeys := tput none m.libKeys (fld p 0 1) v }
  (s, some (le 1 (libKeysMask s) ++ zeros 3))

/-- SEC_LIB_KEY_SET (0x0B07). -/
def execSecLibKeySet (kiosk : Fin 32) (s : State) : Host.Outcome State Fault Refusal :=
  .next (runKiosk 0x0B07 kiosk.val fwdNever secLibKeySetCheck secLibKeySetEffect s)

/-! ### The signed library (R476, R477) -/

/-- Checks of SEC_LIB_CONFIG: a write while a plan runs is BUSY. -/
def secLibConfigCheck (p : List Byte) (s : State) : Option Fail :=
  orElse (paramCheck ([(0, decide (fld p 0 1 ≤ 1))] ++ zeroFrom p 1 1
      ++ onOp p 0 [(2, 2, decide (1 ≤ fld p 2 2 ∧ fld p 2 2 ≤ 4096))] ++ [lenIs p 4]))
    (orElse (failIf (byteAt p 0 == 1 && s.plan.run.isSome) 0x0006) (smUp s))

/-- Effect of SEC_LIB_CONFIG: a size change clears every VERIFIED bit. -/
def secLibConfigEffect (_ : Nat) (p : List Byte) (s : State) : Effect :=
  (if byteAt p 0 = 1 then s.onSm fun m => { m with
      libMb := fld p 2 2
      verified := if fld p 2 2 = m.libMb then m.verified else [] }
  else s, some (le 2 s.sm.libMb ++ zeros 2))

/-- SEC_LIB_CONFIG (0x0B08). -/
def execSecLibConfig (kiosk : Fin 32) (s : State) : Host.Outcome State Fault Refusal :=
  .next (runKiosk 0x0B08 kiosk.val fwdNever secLibConfigCheck secLibConfigEffect s)

/-- Checks of SEC_LIB_VERIFY. -/
def secLibVerifyCheck (p : List Byte) (s : State) : Option Fail :=
  orElse (paramCheck ([(0, decide (fld p 0 2 < 1024))] ++ zeroFrom p 2 2 ++ [lenIs p 4]))
    (orElse (failIf s.sm.verifying.isSome 0x0006) (smUp s))

/-- Effect of SEC_LIB_VERIFY: the module hashes the samples; the Kiosk waits. -/
def secLibVerifyEffect (k : Nat) (p : List Byte) (s : State) : Effect :=
  (s.onSm fun m => { m with verifying := some (fld p 0 2, k) }, none)

/-- SEC_LIB_VERIFY (0x0B09). -/
def execSecLibVerify (kiosk : Fin 32) (s : State) : Host.Outcome State Fault Refusal :=
  .next (runKiosk 0x0B09 kiosk.val fwdNever secLibVerifyCheck secLibVerifyEffect s)

/-- The record of an entry is one that a signer may have made (R476). -/
def libRecordOk (s : State) (e : Nat) : Bool :=
  let r := libRecord s e
  let off := fld r 0 4
  let n := fld r 4 4
  decide (128 * e + 128 ≤ libSize s ∧ off % 64 = 0 ∧ 131072 ≤ off ∧ 1 ≤ n ∧ off + 3 * n ≤ libSize s ∧ fld r 8 1 ≤ 2
    ∧ fld r 10 2 = 1) && (tget none s.sm.libKeys (fld r 9 1)).isSome

/-- SIG of an entry verifies with the key in KEY_SLOT (R476). -/
def libSigned (s : State) (e : Nat) : Bool :=
  let r := libRecord s e
  let samples := memRead s.mat.mem (libBase s + fld r 0 4) (3 * fld r 4 4)
  match tget none s.sm.libKeys (fld r 9 1) with
  | some pub => ecdsaVerify pub (sha384 (le 2 e ++ r.take 32 ++ sha384 samples)) ((r.drop 32).take 96)
  | none => false

/-- SEC_LIB_VERIFY_COMPLETE (R477): the signature verifies or not. -/
def execSecLibVerifyComplete (_ : Computed) (s : State) : Host.Outcome State Fault Refusal :=
  match s.sm.verifying with
  | some (e, k) =>
    let s := s.onSm fun m => { m with verifying := none }
    if libRecordOk s e && libSigned s e then
      let s := s.onSm fun m => { m with verified := if m.verified.contains e then m.verified else m.verified ++ [e] }
      .next (answerOk k (le 1 1 ++ zeros 3 ++ le 4 (fld (libRecord s e) 12 4)) s)
    else .next (answerFail k { status := 0x0056 } (s.onSm fun m => { m with verified := m.verified.filter (· != e) }))
  | none => .next s

/-! ### MACsec keys (R478) -/

/-- A handle of the key store. -/
def handleOk (h : Nat) : Bool := decide (0x0100 ≤ h ∧ h ≤ 0x013F)

/-- Checks of SEC_KEY_LOAD. -/
def secKeyLoadCheck (p : List Byte) (s : State) : Option Fail :=
  orElse (paramCheck ([(0, handleOk (fld p 0 2))] ++ zeroFrom p 2 2 ++ [lenIs p 48])) (smUp s)

/-- Effect of SEC_KEY_LOAD: the check value is the first 3 bytes of AES-256 of a zero block under the key. -/
def secKeyLoadEffect (_ : Nat) (p : List Byte) (s : State) : Effect :=
  (s.onSm fun m => { m with keys := tput none m.keys (fld p 0 2) (some ((p.drop 4).take 44)) },
   some ((aesBlock (aesKeys ((p.drop 4).take 32)) (zeros 16)).take 3 ++ zeros 1))

/-- SEC_KEY_LOAD (0x0B0A). -/
def execSecKeyLoad (kiosk : Fin 32) (_ : Computed) (s : State) : Host.Outcome State Fault Refusal :=
  .next (runKiosk 0x0B0A kiosk.val fwdNever secKeyLoadCheck secKeyLoadEffect s)

/-- The handles that HANDLE names. -/
def handlesOf (h : Nat) : List Nat := if h = 0xFFFF then (List.range 64).map (0x0100 + ·) else [h]

/-- An active SA uses a handle. -/
def handleUsed (s : State) (h : Nat) : Bool :=
  (List.range 4).any fun p => (List.range 68).any fun k =>
    let a := tget {} (portAt s p).sa k
    a.active && a.handle == h

/-- Checks of SEC_KEY_ERASE: a handle in use is BUSY unless FORCE is set. -/
def secKeyEraseCheck (p : List Byte) (s : State) : Option Fail :=
  let h := fld p 0 2
  orElse (paramCheck ([(0, handleOk h || h == 0xFFFF), (2, decide (fld p 2 1 < 2))] ++ zeroFrom p 3 1 ++ [lenIs p 4]))
    (orElse (failIf (byteAt p 2 == 0 && (handlesOf h).any (handleUsed s)) 0x0006) (smUp s))

/-- Effect of SEC_KEY_ERASE: a forced erase stops the SAs that use the key. -/
def secKeyEraseEffect (_ : Nat) (p : List Byte) (s : State) : Effect :=
  let hs := handlesOf (fld p 0 2)
  (stopSas (fun a => hs.contains a.handle) (s.onSm fun m => { m with
    keys := hs.foldl (fun t h => tput none t h none) m.keys }), some [])

/-- SEC_KEY_ERASE (0x0B0B). -/
def execSecKeyErase (kiosk : Fin 32) (s : State) : Host.Outcome State Fault Refusal :=
  .next (runKiosk 0x0B0B kiosk.val fwdNever secKeyEraseCheck secKeyEraseEffect s)

/-! ### Rollback, approved mode, zeroisation, debug -/

/-- Checks of SEC_ROLLBACK_COMMIT (R487). -/
def secRollbackCommitCheck (p : List Byte) (s : State) : Option Fail :=
  orElse (paramCheck (zeroFrom p 1 3 ++ [lenIs p 4]))
    (orElse (smUp s) (failIf (!(fld p 0 1 == s.host.fwIndex && decide (s.sm.rollback < fld p 0 1))) 0x0059))

/-- Effect of SEC_ROLLBACK_COMMIT. -/
def secRollbackCommitEffect (_ : Nat) (p : List Byte) (s : State) : Effect :=
  (s.onSm fun m => { m with rollback := fld p 0 1 }, some (le 1 (fld p 0 1) ++ zeros 3))

/-- SEC_ROLLBACK_COMMIT (0x0B0C). -/
def execSecRollbackCommit (kiosk : Fin 32) (s : State) : Host.Outcome State Fault Refusal :=
  .next (runKiosk 0x0B0C kiosk.val fwdNever secRollbackCommitCheck secRollbackCommitEffect s)

/-- Checks of SEC_APPROVED. -/
def secApprovedCheck (p : List Byte) (s : State) : Option Fail :=
  orElse (paramCheck ([(0, decide (fld p 0 1 ≤ 2))] ++ zeroFrom p 1 3 ++ [lenIs p 4]))
    (orElse (smUp s) (failIf (byteAt p 0 == 1 && !approvable s) 0x0058))

/-- Effect of SEC_APPROVED: the sealed response first, then the change, which ends the session (R474, R487). -/
def secApprovedEffect (k : Nat) (p : List Byte) (s : State) : Effect :=
  match fld p 0 1 with
  | 1 => answerThen k (le 1 1 ++ zeros 3) enterApproved (s.onSm fun m => { m with request := true })
  | 2 => answerThen k (zeros 4) leaveApproved (s.onSm fun m => { m with request := false })
  | _ => (s, some (le 1 (b2n s.sm.approved) ++ zeros 3))

/-- SEC_APPROVED (0x0B0D). -/
def execSecApproved (kiosk : Fin 32) (s : State) : Host.Outcome State Fault Refusal :=
  .next (runKiosk 0x0B0D kiosk.val fwdNever secApprovedCheck secApprovedEffect s)

/-- Checks of SEC_ZEROISE. -/
def secZeroiseCheck (p : List Byte) (s : State) : Option Fail :=
  orElse (paramCheck ([(0, decide (fld p 0 1 ≤ 1)), (1, fld p 1 1 == 0x5A)] ++ zeroFrom p 2 2 ++ [lenIs p 4])) (smUp s)

/-- Effect of SEC_ZEROISE: the sealed response first, then the zeroisation, which ends the session. -/
def secZeroiseEffect (k : Nat) (p : List Byte) (s : State) : Effect :=
  answerThen k [] (if byteAt p 0 = 1 then zeroStore else zeroVolatile) s

/-- SEC_ZEROISE (0x0B0E). -/
def execSecZeroise (kiosk : Fin 32) (s : State) : Host.Outcome State Fault Refusal :=
  .next (runKiosk 0x0B0E kiosk.val fwdNever secZeroiseCheck secZeroiseEffect s)

/-- Checks of SEC_DEBUG_UNLOCK. -/
def secDebugUnlockCheck (p : List Byte) (s : State) : Option Fail :=
  orElse (paramCheck ([(0, fld p 0 1 == 0xC3)] ++ zeroFrom p 1 3 ++ [lenIs p 4])) (smUp s)

/-- Effect of SEC_DEBUG_UNLOCK: debug is open until the next SYSTEM reset, gate 15 opens (13 R416), and approved mode is
left (R482). -/
def secDebugUnlockEffect (k : Nat) (_ : List Byte) (s : State) : Effect :=
  answerThen k [] (fun s => leaveApproved (openGate 15 (s.onSm fun m => { m with debug := true }))) s

/-- SEC_DEBUG_UNLOCK (0x0B0F). -/
def execSecDebugUnlock (kiosk : Fin 32) (s : State) : Host.Outcome State Fault Refusal :=
  .next (runKiosk 0x0B0F kiosk.val fwdNever secDebugUnlockCheck secDebugUnlockEffect s)

end Sys2Proof.Machine
end

