-- ==== Sys2Proof/Machine/TwinCmd.lean ====
section
/-! DEFINITION. Command family 0x08 (10 R341 to R348). None of these commands is forwarded. -/

namespace Sys2Proof.Machine

/-- Effect of TWIN_STATUS_READ. -/
def twinStatusReadEffect (_ : Nat) (_ : List Byte) (s : State) : Effect :=
  let t := s.twin
  (s, some (le 4 (twinStatus s).toNat ++ le 2 t.peer.claim.toNat ++ le 1 t.peer.flags.toNat ++ le 1 t.outcome
    ++ le 8 t.stateAt.toNat ++ le 4 t.matchRun.toNat ++ le 4 t.promotions.toNat ++ le 4 t.octLosses.toNat
    ++ le 4 (aclLinks s).toNat ++ le 8 t.lastProm.toNat))

/-- TWIN_STATUS_READ (R342). -/
def execTwinStatusRead (k : Fin 32) (s : State) : Host.Outcome State Fault Refusal :=
  .next (runKiosk 0x0801 k.val fwdNever emptyReq twinStatusReadEffect s)

/-- Checks of TWIN_POLICY: the mode changes only while no plan runs (R309). -/
def twinPolicyCheck (p : List Byte) (s : State) : Option Fail :=
  orElse (paramCheck ([(0, decide (fld p 0 1 ≤ 1))]
      ++ onOp p 0 [(1, 1, decide (fld p 1 1 ≤ 1)), (2, 1, decide (fld p 2 1 < 4)), (3, 1, decide (fld p 3 1 ≤ 32)),
        (4, 2, decide (5 ≤ fld p 4 2 ∧ fld p 4 2 ≤ 300)), (6, 2, decide (10 ≤ fld p 6 2 ∧ fld p 6 2 ≤ 600))] ++ [lenIs p 8]))
    (failIf (byteAt p 0 == 1 && (byteAt p 1 == 1) != s.twin.pair && s.plan.run.isSome) 0x0006)

/-- The mode changes (R309, R314): a unit enters PAIR mode ALONE and holding no claim, and leaves it as the claimant. MODE PAIR
opens gate 14 (13 R416). -/
def setPair (on : Bool) (s : State) : State :=
  let s := if on then openGate 14 s else s
  if on == s.twin.pair then s
  else setTwin (if on then 1 else 0) (s.onTwin fun t => { t with
    pair := on
    active := false
    claim := 0
    invalid := false
    linkUp := false
    laneUp := 0
    laneGood := []
    laneBad := []
    heardAt := none
    peer := {}
    joinFrom := none
    stay := false
    failed := false
    promAt := none
    stopAt := none
    dropAt := none
    decide := none
    yieldAt := none
    fwdOut := []
    fwdIn := []
    fwdSeqIn := none
    seedLeft := []
    ahead := false })

/-- Effect of TWIN_POLICY. -/
def twinPolicyEffect (_ : Nat) (p : List Byte) (s : State) : Effect :=
  let t := s.twin
  let r := le 1 (fld p 0 1) ++ le 1 (b2n t.pair) ++ le 1 (b2n t.autoRejoin + 2 * b2n t.promUnready) ++ le 1 t.quorum
    ++ le 2 t.startWait ++ le 2 t.joinLimit
  if byteAt p 0 = 1 then
    (setPair (byteAt p 1 == 1) (s.onTwin fun t => { t with
      autoRejoin := (byteAt p 2).getLsbD 0
      promUnready := (byteAt p 2).getLsbD 1
      quorum := fld p 3 1
      startWait := fld p 4 2
      joinLimit := fld p 6 2 }), some r)
  else (s, some r)

/-- TWIN_POLICY (R343). -/
def execTwinPolicy (k : Fin 32) (s : State) : Host.Outcome State Fault Refusal :=
  .next (runKiosk 0x0802 k.val fwdNever twinPolicyCheck twinPolicyEffect s)

/-- Checks of TWIN_JOIN. -/
def twinJoinCheck (p : List Byte) (s : State) : Option Fail :=
  orElse (paramCheck ([(0, decide (fld p 0 1 ≤ 1))] ++ zeroFrom p 1 3 ++ [lenIs p 4]))
    (if !s.twin.pair || s.twin.active then some (badParam 0) else none)

/-- Effect of TWIN_JOIN: a join starts again, or is abandoned. -/
def twinJoinEffect (_ : Nat) (p : List Byte) (s : State) : Effect :=
  let s := if byteAt p 0 = 0 then startJoin s
    else setTwin 1 (s.onTwin fun t => { t with
      joinFrom := none
      failed := false
      skewed := false
      seedLeft := [] })
  (s, some (le 1 s.twin.state ++ zeros 3 ++ le 8 s.twin.stateAt.toNat))

/-- TWIN_JOIN (R344). -/
def execTwinJoin (k : Fin 32) (s : State) : Host.Outcome State Fault Refusal :=
  .next (runKiosk 0x0803 k.val fwdNever twinJoinCheck twinJoinEffect s)

/-- Checks of TWIN_PROMOTE. -/
def twinPromoteCheck (p : List Byte) (s : State) : Option Fail :=
  orElse (paramCheck ([(0, decide (fld p 0 1 ≤ 1))] ++ zeroFrom p 1 3 ++ [lenIs p 4]))
  (orElse (if !s.twin.pair || s.twin.active then some (badParam 0) else none)
    (failIf (!(byteAt p 0).getLsbD 0 && !(s.twin.state == 6 && s.twin.linkUp)) 0x000B))

/-- Effect of TWIN_PROMOTE: a promotion in wave acceptance + 2; a forced one takes the successor of the highest claim
seen. -/
def twinPromoteEffect (_ : Nat) (p : List Byte) (s : State) : Effect :=
  let own := if s.twin.state = 6 then claimSucc s.twin.claim else 0
  let top := if (byteAt p 0).getLsbD 0 then claimMax own (claimMax s.twin.peer.claim s.twin.highAcc) else claimantClaim s
  let c : BitVec 16 := if top = 0 then 1 else claimSucc top
  let w := sampleNow s + 2
  (s.onTwin fun t => { t with promAt := some (w, c, true) }, some (le 2 c.toNat ++ zeros 2 ++ le 8 w.toNat))

/-- TWIN_PROMOTE (R345). -/
def execTwinPromote (k : Fin 32) (s : State) : Host.Outcome State Fault Refusal :=
  .next (runKiosk 0x0804 k.val fwdNever twinPromoteCheck twinPromoteEffect s)

/-- Checks of TWIN_YIELD. -/
def twinYieldCheck (p : List Byte) (s : State) : Option Fail :=
  orElse (paramCheck (zeroFrom p 0 4 ++ [lenIs p 4]))
  (orElse (if !(s.twin.pair && s.twin.active) then some (badParam 0) else none)
    (failIf (!(s.twin.linkUp && s.twin.peer.state == 6)) 0x000C))

/-- Effect of TWIN_YIELD: YIELD in the frame of acceptance + 1, so that p is acceptance + 2. -/
def twinYieldEffect (_ : Nat) (_ : List Byte) (s : State) : Effect :=
  (yieldSoon true s,
    some (le 2 (claimSucc s.twin.claim).toNat ++ zeros 2 ++ le 8 (sampleNow s + 2).toNat))

/-- TWIN_YIELD (R345). -/
def execTwinYield (k : Fin 32) (s : State) : Host.Outcome State Fault Refusal :=
  .next (runKiosk 0x0805 k.val fwdNever twinYieldCheck twinYieldEffect s)

/-- Checks of TWIN_RESOLVE. -/
def twinResolveCheck (p : List Byte) (s : State) : Option Fail :=
  orElse (paramCheck ([(0, decide (fld p 0 1 ≤ 2))] ++ zeroFrom p 1 3 ++ [lenIs p 4]))
  (orElse (if !s.twin.unresolved then some (badParam 0) else none) (failIf (!s.twin.linkUp) 0x000D))

/-- Effect of TWIN_RESOLVE: it reaches both units with the frame of acceptance + 1 and acts on both in wave
acceptance + 2 (log entry 33). -/
def twinResolveEffect (_ : Nat) (p : List Byte) (s : State) : Effect :=
  let w := sampleNow s + 2
  let r : FwdRec := { type := 1, code := 0x0806, wave := w, bytes := p }
  (s.onTwin fun t => { t with
    fwdOut := t.fwdOut ++ [r]
    fwdIn := t.fwdIn ++ [r] }, some ([byteAt p 0] ++ zeros 7 ++ le 8 w.toNat))

/-- TWIN_RESOLVE (R346). -/
def execTwinResolve (k : Fin 32) (s : State) : Host.Outcome State Fault Refusal :=
  .next (runKiosk 0x0806 k.val fwdNever twinResolveCheck twinResolveEffect s)

/-- A resolution acts on this unit in wave `w` (R346): 0, the standby rejoins at RUN_IN; 1, the standby is promoted and the old claimant
rejoins (log entry 34); 2,
decisions resume. -/
def resolveAct (action : Nat) (w : BitVec 64) (s : State) : State :=
  if s.twin.unresolved then
    let s := endCond 0x0809 0 (s.onTwin fun t => { t with unresolved := false })
    if action = 0 then
      if !s.twin.active && s.twin.state == 6 then
        enterRunIn (s.onTwin fun t => { t with fwdSeqIn := none })
      else s
    else if action = 1 then
      s.onTwin fun t => { t with promAt := some (w, claimSucc (if t.active then t.claim else claimantClaim s), false) }
    else s
  else s

/-- Checks of TWIN_MISMATCH_READ. -/
def twinMismatchReadCheck (p : List Byte) (s : State) : Option Fail :=
  paramCheck ([(0, decide (fld p 0 1 < 8 ∧ fld p 0 1 < s.twin.records.length))] ++ zeroFrom p 1 3 ++ [lenIs p 4])

/-- A decision record (R347). -/
def decisionBytes (d : Decision) : List Byte :=
  le 8 d.sample.toNat ++ le 8 (d.sample + 8).toNat ++ le 8 d.groups.toNat ++ le 1 d.outcome ++ le 1 d.step
    ++ le 1 d.own.toNat ++ le 1 d.peer.toNat ++ le 4 d.ownDig.toNat ++ le 4 d.peerDig.toNat ++ le 4 d.agOwn.toNat
    ++ le 4 d.agPeer.toNat ++ zeros 4

/-- Effect of TWIN_MISMATCH_READ. -/
def twinMismatchReadEffect (_ : Nat) (p : List Byte) (s : State) : Effect :=
  (s, some (decisionBytes (s.twin.records.getD (fld p 0 1) {})))

/-- TWIN_MISMATCH_READ (R347). -/
def execTwinMismatchRead (k : Fin 32) (s : State) : Host.Outcome State Fault Refusal :=
  .next (runKiosk 0x0807 k.val fwdNever twinMismatchReadCheck twinMismatchReadEffect s)

/-- Checks of TWIN_ADDRESS. -/
def twinAddressCheck (p : List Byte) (_ : State) : Option Fail :=
  paramCheck ([(0, decide (fld p 0 1 < 4)), (1, decide (fld p 1 1 ≤ 1))] ++ zeroFrom p 2 2 ++ zeroFrom p 14 2 ++ [lenIs p 16])

/-- Effect of TWIN_ADDRESS: the claimant address of a port. -/
def twinAddressEffect (_ : Nat) (p : List Byte) (s : State) : Effect :=
  let n := fld p 0 1
  let q := portAt s n
  let r := le 1 n ++ le 1 (fld p 1 1) ++ zeros 2 ++ le 4 q.twinIp.toNat ++ le 6 q.twinMac.toNat ++ zeros 2
  if byteAt p 1 = 1 then
    (onPort n (fun q => { q with
      twinIp := BitVec.ofNat 32 (fld p 4 4)
      twinMac := BitVec.ofNat 48 (fld p 8 6) }) s, some r)
  else (s, some r)

/-- TWIN_ADDRESS (R348). -/
def execTwinAddress (k : Fin 32) (s : State) : Host.Outcome State Fault Refusal :=
  .next (runKiosk 0x0808 k.val fwdNever twinAddressCheck twinAddressEffect s)

end Sys2Proof.Machine
end

