-- ==== Sys2Proof/Machine/View.lean ====
section
/-! DEFINITION. The ZN640 view: command family 0x0D (11 R373 to R376). -/

namespace Sys2Proof.Machine

/-- The view is off (R374). -/
def viewOff (s : State) : Option Fail := failIf (!s.host.view) 0x0009

/-- A strip and a bus lie within the view. -/
def viewHas (s : State) (strip bus : Nat) : Bool := decide (strip < s.host.strips ∧ bus < s.host.buses)

/-- The gain-space index of a view node (R373). -/
def viewIdx (s : State) (strip bus : Nat) : Nat := (s.host.rowBase + strip) * 2048 + (s.host.colBase + bus)

/-- Indices within the view and the rate. -/
def viewCheck (s : State) (l : List (Nat × Nat)) : Option Fail :=
  orElse (viewOff s) (orElse (failIf (!l.all fun e => viewHas s e.1 e.2) 0x0004) (indexCheck s (l.map fun e => viewIdx s e.1 e.2)))

/-- A node word of gain G, MUTE, INV and STEP. -/
def mkWord (step g : Nat) (mute inv : Bool) : BitVec 32 :=
  BitVec.ofNat 32 (step * 2 ^ 26 + b2n mute * 2 ^ 25 + b2n inv * 2 ^ 24 + g)

/-! ### Information and set-up -/

/-- The response of Z640_INFO. -/
def z640InfoEffect (_ : Nat) (_ : List Byte) (s : State) : Effect :=
  (s, some (le 2 s.host.strips ++ le 2 s.host.buses ++ le 1 (rateCode s) ++ le 1 (b2n s.host.view) ++ le 2 0x0203))

/-- Z640_INFO (R376). -/
def execZ640Info (kiosk : Fin 32) (s : State) : Host.Outcome State Fault Refusal :=
  .next (runKiosk 0x0D01 kiosk.val fwdNever emptyCheck z640InfoEffect s)

/-- The fields of Z640_VIEW_SET: the view lies within the rows and columns of the rate. -/
def z640ViewSetCheck (p : List Byte) (s : State) : Option Fail :=
  paramCheck ([(0, decide (fld p 0 1 ≤ 1))] ++ onOp p 0 [(1, 1, decide (fld p 1 1 ≤ 1))] ++ zeroFrom p 2 2 ++ onOp p 0 [
    (4, 2, decide (fld p 4 2 + fld p 6 2 ≤ 10 * sqRows s)), (6, 2, decide (1 ≤ fld p 6 2 ∧ fld p 6 2 ≤ 640)),
    (8, 2, decide (fld p 8 2 + fld p 10 2 ≤ 256 * sqCols s)), (10, 2, decide (1 ≤ fld p 10 2 ∧ fld p 10 2 ≤ 256))] ++ [lenIs p 12])

/-- Effect of Z640_VIEW_SET: the values in force before it are returned. -/
def z640ViewSetEffect (_ : Nat) (p : List Byte) (s : State) : Effect :=
  let h := s.host
  let r := le 1 (fld p 0 1) ++ le 1 (b2n h.view) ++ zeros 2 ++ le 2 h.rowBase ++ le 2 h.strips ++ le 2 h.colBase ++ le 2 h.buses
  (if byteAt p 0 = 1 then
    s.onHost fun h => { h with
      view := byteAt p 1 == 1
      rowBase := fld p 4 2
      strips := fld p 6 2
      colBase := fld p 8 2
      buses := fld p 10 2 }
  else s, some r)

/-- Z640_VIEW_SET (R376). -/
def execZ640ViewSet (kiosk : Fin 32) (s : State) : Host.Outcome State Fault Refusal :=
  .next (runKiosk 0x0D02 kiosk.val fwdNever z640ViewSetCheck z640ViewSetEffect s)

/-! ### Node writes and reads (R373 to R375) -/

/-- Strip and bus of the entries of Z640_XP_WRITE. -/
def viewWriteNodes (p : List Byte) : List (Nat × Nat) :=
  (List.range (fld p 0 1)).map fun k => (fld p (4 + 6 * k) 2, fld p (6 + 6 * k) 1)

/-- The equivalent entries of XP_NODE_WRITE (R374). -/
def viewWords (s : State) (p : List Byte) : List (Nat × BitVec 32) :=
  let step := if byteAt p 1 = 1 then 2 else 0
  (List.range (fld p 0 1)).map fun k =>
    (viewIdx s (fld p (4 + 6 * k) 2) (fld p (6 + 6 * k) 1),
     mkWord step (fld p (7 + 6 * k) 2 * 64) (bitOf (fld p (9 + 6 * k) 1) 0) (bitOf (fld p (9 + 6 * k) 1) 1))

/-- Checks of Z640_XP_WRITE. -/
def z640XpWriteCheck (p : List Byte) (s : State) : Option Fail :=
  let n := fld p 0 1
  orElse (paramCheck ([(0, decide (1 ≤ n ∧ n ≤ 39)), (1, decide (fld p 1 1 ≤ 1))] ++ zeroFrom p 2 2
      ++ ((List.range (min n 39)).map fun k => (9 + 6 * k, decide ((byteAt p (9 + 6 * k)).toNat < 4))) ++ [lenIs p (4 + 6 * n)]))
    (orElse (viewCheck s (viewWriteNodes p)) (orElse (alleyCheck s (viewWords s p)) (queueCheck s 254 (viewWords s p))))

/-- Effect of Z640_XP_WRITE. -/
def z640XpWriteEffect (_ : Nat) (p : List Byte) (s : State) : Effect :=
  (enterWords 254 (viewWords s p) s, some (le 8 (entryWave s).toNat))

/-- Z640_XP_WRITE (R376). -/
def execZ640XpWrite (kiosk : Fin 32) (s : State) : Host.Outcome State Fault Refusal :=
  .next (runKiosk 0x0D03 kiosk.val fwdAlways z640XpWriteCheck z640XpWriteEffect s)

/-- Strip and bus of the entries of Z640_XP_READ. -/
def viewReadNodes (p : List Byte) : List (Nat × Nat) :=
  (List.range (fld p 0 1)).map fun k => (fld p (4 + 4 * k) 2, fld p (6 + 4 * k) 1)

/-- Checks of Z640_XP_READ. -/
def z640XpReadCheck (p : List Byte) (s : State) : Option Fail :=
  let n := fld p 0 1
  orElse (paramCheck ([(0, decide (1 ≤ n ∧ n ≤ 39))] ++ zeroFrom p 1 3
      ++ ((List.range (min n 39)).map fun k => (7 + 4 * k, byteAt p (7 + 4 * k) == 0)) ++ [lenIs p (4 + 4 * n)]))
    (viewCheck s (viewReadNodes p))

/-- The ZN640 gain code of a node gain (R375). -/
def viewGain (g : Nat) : Nat := min 0xFFFF (roundEven g 64).toNat

/-- The 4 bytes of a node in Z640_XP_READ. -/
def viewReadBytes (x : XpS) (i : Nat) : List Byte :=
  let w := baseWord x i
  let g := viewGain (wG w)
  le 2 g ++ le 1 (b2n (wMute w) + 2 * b2n (wInv w) + 4 * b2n (g * 64 != wG w) + 8 * b2n (effIsOvr x i)) ++ zeros 1

/-- The response of Z640_XP_READ. -/
def z640XpReadEffect (_ : Nat) (p : List Byte) (s : State) : Effect :=
  (s, some ((viewReadNodes p).flatMap fun e => viewReadBytes s.xp (viewIdx s e.1 e.2)))

/-- Z640_XP_READ (R375, R376). -/
def execZ640XpRead (kiosk : Fin 32) (s : State) : Host.Outcome State Fault Refusal :=
  .next (runKiosk 0x0D04 kiosk.val fwdNever z640XpReadCheck z640XpReadEffect s)

/-- The words of Z640_STRIP_MUTE: every view node of the row, with its base word's G and INV. -/
def muteWords (s : State) (p : List Byte) : List (Nat × BitVec 32) :=
  (List.range s.host.buses).map fun j =>
    let i := viewIdx s (fld p 0 2) j
    (i, mkWord 0 (wG (baseWord s.xp i)) (byteAt p 2 == 1) (wInv (baseWord s.xp i)))

/-- Checks of Z640_STRIP_MUTE. -/
def z640StripMuteCheck (p : List Byte) (s : State) : Option Fail :=
  orElse (paramCheck ([(2, decide (fld p 2 1 ≤ 1))] ++ zeroFrom p 3 1 ++ [lenIs p 4]))
    (orElse (viewCheck s [(fld p 0 2, 0), (fld p 0 2, s.host.buses - 1)])
      (orElse (alleyCheck s (muteWords s p)) (queueCheck s 254 (muteWords s p))))

/-- Effect of Z640_STRIP_MUTE. -/
def z640StripMuteEffect (_ : Nat) (p : List Byte) (s : State) : Effect :=
  (enterWords 254 (muteWords s p) s, some (le 8 (entryWave s).toNat))

/-- Z640_STRIP_MUTE (R376). -/
def execZ640StripMute (kiosk : Fin 32) (s : State) : Host.Outcome State Fault Refusal :=
  .next (runKiosk 0x0D05 kiosk.val fwdAlways z640StripMuteCheck z640StripMuteEffect s)

/-! ### Recall and status -/

/-- Checks of Z640_RECALL: those of the scene commands on tag 254. -/
def z640RecallCheck (p : List Byte) (s : State) : Option Fail :=
  orElse (paramCheck ([(0, decide (fld p 0 1 ≤ 2))] ++ zeroFrom p 1 3 ++ [lenIs p 4]))
    (orElse (viewOff s) (if byteAt p 0 = 2 then none else commitCheck 0 254 0 s))

/-- Effect of Z640_RECALL; COMMIT_SAMPLE of a discard, which commits nothing, is a free value (log entry 13). -/
def z640RecallEffect (k : Nat) (p : List Byte) (s : State) : Effect :=
  if byteAt p 0 = 2 then
    ((sceneDiscard 254 s).onFree fun n => n + 1, some (le 8 (Config.free s.free) ++ le 4 (heldOf s.xp 254)))
  else commitAccept k 254 (byteAt p 0 == 1) 0 s

/-- Z640_RECALL (R376). -/
def execZ640Recall (kiosk : Fin 32) (s : State) : Host.Outcome State Fault Refusal :=
  .next (runKiosk 0x0D06 kiosk.val fwdAlways z640RecallCheck z640RecallEffect s)

/-- Checks of Z640_STATUS. -/
def z640StatusCheck (p : List Byte) (s : State) : Option Fail := orElse (paramCheck [lenIs p 0]) (viewOff s)

/-- SAT of Z640_STATUS: bit j for view bus j. -/
def viewSat (s : State) : List Byte :=
  (List.range 32).map fun b => BitVec.ofNat 8 ((List.range 8).foldl (fun v k =>
    v + if 8 * b + k < s.host.buses ∧ s.xp.sat.contains (s.host.colBase + 8 * b + k) then 2 ^ k else 0) 0)

/-- The response of Z640_STATUS. -/
def z640StatusEffect (_ : Nat) (_ : List Byte) (s : State) : Effect :=
  (s, some (le 1 (b2n s.wave.running + 2 * b2n (nfaultPin s)) ++ zeros 3 ++ viewSat s))

/-- Z640_STATUS (R376). -/
def execZ640Status (kiosk : Fin 32) (s : State) : Host.Outcome State Fault Refusal :=
  .next (runKiosk 0x0D07 kiosk.val fwdNever z640StatusCheck z640StatusEffect s)

end Sys2Proof.Machine
end

