-- ==== Sys2Proof/Machine/Kiosk.lean ====
section
/-! DEFINITION. The doorbell of a Kiosk: what the engine checks before a command's own checks (11 R357 to R359, 15 R473,
R475), and command family 0x00 (11 R366). -/

namespace Sys2Proof.Machine

/-! ### What a code stands for (R359, R361) -/

/-- Every command code. -/
def codeKnown (c : Nat) : Bool := decide (
  (0x0001 ≤ c ∧ c ≤ 0x0006) ∨ (0x0101 ≤ c ∧ c ≤ 0x0108) ∨ (0x0201 ≤ c ∧ c ≤ 0x0207) ∨ (0x0210 ≤ c ∧ c ≤ 0x0214)
  ∨ c = 0x0218 ∨ (0x0301 ≤ c ∧ c ≤ 0x0305) ∨ (0x0310 ≤ c ∧ c ≤ 0x0313) ∨ (0x0401 ≤ c ∧ c ≤ 0x0407)
  ∨ (0x0501 ≤ c ∧ c ≤ 0x050B) ∨ (0x0601 ≤ c ∧ c ≤ 0x060D) ∨ (0x0701 ≤ c ∧ c ≤ 0x0706) ∨ (0x0801 ≤ c ∧ c ≤ 0x0808)
  ∨ (0x0901 ≤ c ∧ c ≤ 0x090B) ∨ (0x0A01 ≤ c ∧ c ≤ 0x0A05) ∨ (0x0B01 ≤ c ∧ c ≤ 0x0B0F) ∨ (0x0C01 ≤ c ∧ c ≤ 0x0C05)
  ∨ (0x0D01 ≤ c ∧ c ≤ 0x0D07))

/-- The request is one that a claimant forwards, and that a standby therefore turns away (10 R319). -/
def isForwarded (c : Nat) (p : List Byte) : Bool :=
  if c = 0x0203 then byteAt p 0 != 0
  else if c = 0x0501 then fwdWrites p
  else if c = 0x0505 ∨ c = 0x0506 ∨ c = 0x0507 ∨ c = 0x0508 ∨ c = 0x050B then fwdOp1 p
  else decide (c = 0x0101 ∨ (0x0105 ≤ c ∧ c ≤ 0x0108) ∨ c = 0x0201 ∨ c = 0x0205 ∨ c = 0x0206 ∨ (0x0210 ≤ c ∧ c ≤ 0x0213)
    ∨ c = 0x0301 ∨ c = 0x0303 ∨ c = 0x0304 ∨ c = 0x0310 ∨ c = 0x0311 ∨ c = 0x0313 ∨ c = 0x050A
    ∨ c = 0x0D03 ∨ c = 0x0D05 ∨ c = 0x0D06)

/-! ### Protected commands (00 R6, 05 R174, 07 R252, 15 R475) -/

/-- The running plan declares an Alley bus. -/
def planAlley (s : State) : Bool :=
  match s.plan.run with
  | some i => i.buses.any fun b => b.alley.isSome
  | none => false

/-- The OVERLAYS bit of the image that PLAN_LOAD names, as it stands in the plan image space (05 R174). -/
def imageOvl (s : State) (o : Nat) : Bool :=
  decide (o + 8 ≤ 67108864) && (memByte s.mat.mem (ddrBase + o + 6)).getLsbD 0

/-- DRV_LINK_CONFIG clears AUDIO_ENABLE of a link with an Alley-fed channel. -/
def clearsAlley (s : State) (p : List Byte) : Bool :=
  let v := BitVec.ofNat 32 (fld p 4 4)
  fwdWrites p && (List.range 128).any fun c => s.drv.audio.getLsbD (c / 4) && !v.getLsbD (c / 4) && alleyFed s c

/-- The role bit that a protected request needs: 0 ALARM, 1 SYSTEM, 2 KEYS; 3 is any role. None: the request is not
protected. -/
def roleOf (k c : Nat) (p : List Byte) (s : State) : Option Nat :=
  let need (b : Bool) (r : Nat) : Option Nat := if b then some r else none
  let ch := (byteAt p 0).toNat
  match c with
  | 0x0101 => need (imageOvl s (fld p 0 4) || planAlley s) 0
  | 0x0108 => need (planAlley s) 0
  | 0x0210 => some 0
  | 0x0211 => some 0
  | 0x0212 => some 0
  | 0x0213 => some 0
  | 0x0310 => need (playProt s ch) 0
  | 0x0311 => need (playProt s ch) 0
  | 0x0313 => some 0
  | 0x0501 => need (clearsAlley s p) 0
  | 0x0505 => need (fwdOp1 p && alleyFed s ch) 0
  | 0x0507 => need (fwdOp1 p && alleyFed s ch) 0
  | 0x0508 => need (fwdOp1 p && alleyFed s ch) 0
  | 0x050A => need (byteAt p 1 == 1 && alleyFed s ch) 0
  | 0x0C01 => need (byteAt p 1 == 4) 0
  | 0x0B08 => some 0
  | 0x0B09 => some 0
  | 0x0802 => need (byteAt p 0 == 1) 1
  | 0x0808 => need (byteAt p 0 == 1) 1
  | 0x0804 => some 1
  | 0x0805 => some 1
  | 0x0806 => some 1
  | 0x0907 => need (byteAt p 0 == 1 || byteAt p 0 == 2) 1
  | 0x0909 => some 1
  | 0x090B => some 1
  | 0x0A03 => some 1
  | 0x0A04 => some 1
  | 0x0B0C => some 1
  | 0x0B0D => some 1
  | 0x0B0F => some 1
  | 0x060D => some 2
  | 0x0B06 => need (!(commissioning s && k == 31)) 2
  | 0x0B07 => some 2
  | 0x0B0A => some 2
  | 0x0B0B => some 2
  | 0x0B0E => some 2
  | 0x0B05 => some 3
  | _ => none

/-- Step 4 of R359, and the role that follows it (15 R473). -/
def roleCheck (k c : Nat) (p : List Byte) (s : State) : Option Fail :=
  match roleOf k c p s with
  | none => none
  | some r =>
    match s.sm.session with
    | some q => if k ≠ 31 then some { status := 0x0007 } else failIf (r != 3 && !q.roles.getLsbD r) 0x0053
    | none => some { status := 0x0007 }

/-! ### The doorbell (R355, R357, R359) -/

/-- The request in a Kiosk's buffer. -/
def bufRequest (q : KioskS) : Req :=
  let b := bufBytes q.reqBuf 256
  { code := fld b 0 2
    tag := BitVec.ofNat 16 (fld b 2 2)
    flags := BitVec.ofNat 16 (fld b 6 2)
    epoch := BitVec.ofNat 32 (fld b 8 4)
    payload := (b.drop 16).take (fld b 4 2) }

/-- A failed seal ends the session (15 R473, R474). -/
def sealFailed (s : State) : State := sessionEnd (s.onSm fun m => { m with sealFail := true })

/-- Unsealing (15 R473): the request of a header as the engine goes on with it, or none for SEAL_FAIL: the payload is opened
with the session's key and counter and the header as sent. -/
def openSeal (k : Nat) (header : List Byte) (r : Req) (s : State) : Option Req × State :=
  let isSealed := r.flags.getLsbD 1
  if k ≠ 31 then (some r, s)
  else
    match s.sm.session, isSealed with
    | none, false => (some r, s)
    | none, true => (none, s)
    | some q, true =>
      let key := sealKeys q.okm 0 q.ctrIn
      match gcmOpen key.1 key.2 header r.payload with
      | some b =>
        (some { r with
          payload := b
          sealed := true }, s.onSm fun m => { m with session := some { q with
            ctrIn := q.ctrIn + 1
            lastAt := s.clk.now } })
      | none => (none, s)
    | some _, false => if r.code = 0x0B03 ∨ r.code = 0x0B04 then (some r, s) else (none, s)

/-- Steps 2 to 5 of R359. -/
def earlyCheck (k : Nat) (r : Req) (s : State) : Option Fail :=
  orElse (failIf (!codeKnown r.code) 0x0001)
    (orElse (if r.flags >>> 2 ≠ 0 ∨ (k ≠ 31 ∧ r.flags.getLsbD 1 = true) then some (badParam 0) else none)
      (orElse (roleCheck k r.code r.payload s)
        (failIf (isForwarded r.code r.payload && isStandby s) 0x000A)))

/-- RING = 1 on Kiosk 1 to 31: the Kiosk becomes BUSY with a copy of its buffer, and the checks that precede the command's
own are made. A Kiosk whose command is still in progress ignores the doorbell (R357). -/
def ringKiosk (k : Nat) (s : State) : State :=
  let q := tget {} s.host.kiosks k
  if s.host.fwState ≠ 5 ∨ q.st = 7 then s
  else if q.st = 1 ∨ q.req.isSome = true then
    onKiosk k (fun q => { q with dbErr := true }) (s.onHost fun h => { h with dbErrors := satAdd h.dbErrors 1 })
  else
    let r := bufRequest q
    let busy (r : Req) (s : State) : State := onKiosk k (fun q => { q with
      st := 1
      req := some r }) s
    if 240 < fld (bufBytes q.reqBuf 256) 4 2 then answerFail k { status := 0x0002 } (busy { r with payload := [] } s)
    else
      let q := openSeal k (bufBytes q.reqBuf 16) r s
      match q.1 with
      | none => answerFail k { status := 0x0050 } (busy r (sealFailed q.2))
      | some r =>
        let s := busy r q.2
        match earlyCheck k r s with
        | some f => answerFail k f s
        | none => s

/-- RING = 1 on Kiosk 0 (R362): the posted message is acknowledged, or WRONG_KIOSK is answered. -/
def ringZero (s : State) : State :=
  match execKiosk0Ack s with
  | .next t => t
  | _ => s

/-- The engine answers its host: not in RETAIN, nor while it wakes (13 R434). -/
def hostUp (s : State) : Bool := !s.clk.por && (s.clk.power == .run || s.clk.power == .hush)

/-- RING = 1 on any Kiosk. -/
def doorbell (k : Nat) (s : State) : State := if k = 0 then ringZero s else ringKiosk k s

/-- KIOSK_DOORBELL (R357). -/
def execKioskDoorbell (kiosk : Fin 32) (_ : Computed) (s : State) : Host.Outcome State Fault Refusal :=
  if hostUp s then .next (doorbell kiosk.val s) else .next s

/-! ### Family 0x00 (R366) -/

/-- SYS_VERSION. -/
def sysVersionEffect (_ : Nat) (_ : List Byte) (s : State) : Effect :=
  (s, some (le 2 0x1840 ++ le 1 0xB0 ++ le 1 s.sm.order.toNat ++ le 1 (s.host.fwVer.toNat / 2 ^ 24)
    ++ le 1 (s.host.fwVer.toNat / 2 ^ 16) ++ le 2 s.host.fwVer.toNat ++ le 8 s.host.fwBuild.toNat ++ le 4 s.sm.version.toNat
    ++ le 1 s.sm.rollback ++ zeros 3 ++ le 8 s.sm.uid.toNat ++ le 2 0x0203 ++ zeros 14))

/-- SYS_VERSION (0x0001). -/
def execSysVersion (kiosk : Fin 32) (s : State) : Host.Outcome State Fault Refusal :=
  .next (runKiosk 0x0001 kiosk.val fwdNever emptyCheck sysVersionEffect s)

/-- SYS_ECHO returns its payload. -/
def sysEchoEffect (_ : Nat) (p : List Byte) (s : State) : Effect := (s, some p)

/-- SYS_ECHO (0x0002). -/
def execSysEcho (kiosk : Fin 32) (s : State) : Host.Outcome State Fault Refusal :=
  .next (runKiosk 0x0002 kiosk.val fwdNever (fun _ _ => none) sysEchoEffect s)

/-- Checks of SYS_EVENT_CONFIG. -/
def sysEventConfigCheck (p : List Byte) (_ : State) : Option Fail :=
  paramCheck ([(0, decide (fld p 0 1 < 2)), (1, decide (fld p 1 1 < 32))] ++ zeroFrom p 2 2 ++ [lenIs p 4])

/-- Effect of SYS_EVENT_CONFIG. -/
def sysEventConfigEffect (_ : Nat) (p : List Byte) (s : State) : Effect :=
  (if byteAt p 0 = 1 then s.onHost fun h => { h with classes := BitVec.ofNat 5 (fld p 1 1) } else s,
   some ([byteAt p 0] ++ le 1 s.host.classes.toNat ++ zeros 2))

/-- SYS_EVENT_CONFIG (0x0003). -/
def execSysEventConfig (kiosk : Fin 32) (s : State) : Host.Outcome State Fault Refusal :=
  .next (runKiosk 0x0003 kiosk.val fwdNever sysEventConfigCheck sysEventConfigEffect s)

/-- Sequence number of the oldest valid record (R364). -/
def logOldest (s : State) : BitVec 32 :=
  if (tget none s.host.log (s.host.head.toNat % 4096)).isSome then s.host.head - 4096 else 0

/-- SYS_LOG_STATUS. -/
def sysLogStatusEffect (_ : Nat) (_ : List Byte) (s : State) : Effect :=
  (s, some (le 4 s.host.head.toNat ++ le 4 s.host.mark.toNat ++ le 4 (logOldest s).toNat ++ le 4 s.host.lostTotal.toNat
    ++ le 4 s.host.k0drops.toNat ++ zeros 4 ++ le 8 (sampleNow s).toNat))

/-- SYS_LOG_STATUS (0x0004). -/
def execSysLogStatus (kiosk : Fin 32) (s : State) : Host.Outcome State Fault Refusal :=
  .next (runKiosk 0x0004 kiosk.val fwdNever emptyCheck sysLogStatusEffect s)

/-- PTP time at the last tick, in seconds and ns: a valid counter holds it in sample periods (01 R35); else `secs` and `ns`, what
the media clock holds. -/
def ptpTime (secs : BitVec 48) (ns : BitVec 32) (s : State) : Nat × Nat :=
  let n := s.wave.count.toNat
  if s.wave.counterValid ∧ hz s ≠ 0 then (n / hz s, (roundFree ((n % hz s * 1000000000 : Nat) : Int) (hz s)).toNat)
  else (secs.toNat, ns.toNat)

/-- SYS_TIME. -/
def sysTimeEffect (secs : BitVec 48) (ns : BitVec 32) (_ : Nat) (_ : List Byte) (s : State) : Effect :=
  let t := ptpTime secs ns s
  (s, some (le 8 s.wave.count.toNat ++ le 6 t.1 ++ zeros 2 ++ le 4 t.2
    ++ le 1 (b2n s.wave.counterValid + 2 * b2n (s.clk.dpll == some 2)) ++ zeros 3))

/-- SYS_TIME (0x0005). -/
def execSysTime (kiosk : Fin 32) (secs : BitVec 48) (ns : BitVec 32) (s : State) : Host.Outcome State Fault Refusal :=
  .next (runKiosk 0x0005 kiosk.val fwdNever emptyCheck (sysTimeEffect secs ns) s)

/-- SYS_KIOSK_STATUS. -/
def sysKioskStatusEffect (_ : Nat) (_ : List Byte) (s : State) : Effect :=
  (s, some ((List.range 32).flatMap (fun k => le 1 (tget {} s.host.kiosks k).st.toNat) ++ le 4 s.host.accepted.toNat
    ++ le 4 s.host.rejected.toNat ++ le 4 s.host.dbErrors.toNat))

/-- SYS_KIOSK_STATUS (0x0006). -/
def execSysKioskStatus (kiosk : Fin 32) (s : State) : Host.Outcome State Fault Refusal :=
  .next (runKiosk 0x0006 kiosk.val fwdNever emptyCheck sysKioskStatusEffect s)

end Sys2Proof.Machine
end

