-- ==== Sys2Proof/Machine/Boot.lean ====
section
/-! DEFINITION. How a firmware image comes to run (11 R353 to R355, 15 R468). -/

namespace Sys2Proof.Machine

/-- A write of FW_LOAD (R354): in WAIT_IMAGE an attempt begins; a length out of range, or a module in ERROR (15 R484), fails
it at once. -/
def fwLoad (v : BitVec 32) (s : State) : State :=
  if s.host.fwState ≠ 1 then s
  else if v.toNat = 0 ∨ 2097152 < v.toNat then s.onHost fun h => { h with bootErr := 3 }
  else if s.sm.state = 2 then s.onHost fun h => { h with bootErr := 1 }
  else s.onHost fun h => { h with
    bootErr := 0
    loadLen := v.toNat
    fwState := 3 }

/-- FW_LOAD_WRITE (R354). -/
def execFwLoadWrite (value : BitVec 32) (s : State) : Host.Outcome State Fault Refusal :=
  if hostUp s then .next (fwLoad value s) else .next s

/-- One byte of the staging window. -/
def stagingByte (o : Nat) (d : List (Option Byte)) (m : List Host.Cell) (i : Nat) : List Host.Cell :=
  match d.getD i none with
  | some b => if o + i < 2097152 then memPut m (stagingAt + o + i) b else m
  | none => m

/-- Bytes written to the staging window; a write outside it, or in another state, is discarded. -/
def stagingWrite (o : Nat) (d : List (Option Byte)) (s : State) : State :=
  if s.host.fwState ≠ 1 then s
  else s.onMat fun m => { m with mem := (List.range d.length).foldl (stagingByte o d) m.mem }

/-- STAGING_WINDOW_WRITE (R354, 12 R381). -/
def execStagingWindowWrite (offset : BitVec 26) (data : List (Option Byte)) (s : State) : Host.Outcome State Fault Refusal :=
  if hostUp s then .next (stagingWrite offset.toNat data s) else .next s

/-- BOOT_IMAGE_LOADED (R354): the ROM has read the image of boot source 0 or 2, or the flash read has failed. -/
def execBootImageLoaded (image : Option (List Byte)) (s : State) : Host.Outcome State Fault Refusal :=
  if s.host.fwState = 2 then
    match image with
    | some b => .next ((s.onMat fun m => { m with mem := memWrite m.mem stagingAt (b.take 2097152) }).onHost fun h => { h with
        bootErr := 0
        fwState := 3 })
    | none => if s.host.bootSrc = 0 then .next (s.onHost fun h => { h with
        bootErr := 4
        fwState := 6 }) else .next s
  else .next s

/-- NETWORK_BOOT_TIMEOUT (R353, R354). -/
def execNetworkBootTimeout (s : State) : Host.Outcome State Fault Refusal :=
  if s.host.fwState = 2 ∧ s.host.bootSrc = 2 then .next (s.onHost fun h => { h with
    bootErr := 5
    fwState := 6 })
  else .next s

/-- FW_VERIFY_COMPLETE (R354, 15 R468): a good image starts, and LPDDR5 training with it; a bad one returns STATE to WAIT_IMAGE
or ends in BOOT_FAILED. `build` and `smVersion` are what the image says of itself. -/
def execFwVerifyComplete (_ : Computed) (build : BitVec 64) (smVersion : BitVec 32) (s : State) :
    Host.Outcome State Fault Refusal :=
  if s.host.fwState = 3 then
    let e := imageErr s stagingAt
    let h := memRead s.mat.mem stagingAt 176
    if e = 0 then
      .next (((s.onHost fun q => { q with
        fwState := 4
        fwVer := BitVec.ofNat 32 (fld h 4 4)
        fwIndex := fld h 8 1
        fwBuild := build }).onSm fun m => { m with version := smVersion }).onMat fun m => { m with
          ddrState := if m.ddrState = 0 then 1 else m.ddrState })
    else .next (s.onHost fun q => { q with
      bootErr := e
      fwState := if q.bootSrc = 1 then 1 else 6 })
  else .next s

end Sys2Proof.Machine
end

