-- ==== Sys2Proof/Machine/DataPort.lean ====
section
/-! DEFINITION. The Data Port and command family 0x0C (11 R367 to R372; 02 R51; 03 R87; 10 R319). -/

namespace Sys2Proof.Machine

/-! ### Spaces (R368) -/

/-- W: the word size of a space in bytes. -/
def spaceW (space : Nat) : Nat :=
  match space with
  | 1 => 4
  | 2 => 8
  | 3 => 8
  | 6 => 32
  | 7 => 16
  | _ => 1

/-- The space addresses bytes. -/
def byteSpace (space : Nat) : Bool := space == 4 || space == 5

/-- Matrix address of a byte of the message library or the plan image space. -/
def spaceAddr (s : State) (space a : Nat) : Nat := if space = 4 then libBase s + a else ddrBase + a

/-- The block that an address names. -/
def spaceBlock (space a : Nat) : Nat := if space = 2 then a / 16384 else if space = 3 then a / 4096 else a / 64

/-- Why a word of a space is out of reach (R368), if it is. -/
def spaceStop (s : State) (space a : Nat) : Option Nat :=
  match space with
  | 1 => if idxOk s a then none else some 0x0004
  | 2 =>
    let w := a % 16384
    match runBlock s (spaceBlock 2 a) with
    | none => some 0x0026
    | some b => if b.type = 6 then (if w < 256 then none else some 0x0004)
      else if !laneRuns s b.id then some 0x0026
      else if w < 11648 then none else some 0x0004
  | 3 => if laneRuns s (spaceBlock 3 a) then none else some 0x0026
  | 4 => if a < libSize s ∧ inDdr s (libBase s + a) 1 then none else some 0x0004
  | 5 => if a < 67108864 ∧ inDdr s (ddrBase + a) 1 then none else some 0x0004
  | 6 => if a < 4096 then none else some 0x0004
  | 7 =>
    match runBlock s (spaceBlock 7 a) with
    | none => some 0x0026
    | some b => if b.type = 5 ∧ a % 64 < b.chIn then none else some 0x0004
  | _ => some 0x0004

/-- A word as a read returns it; a meter's PEAK and RMS are free values, since no rule states their arithmetic (log entry 13). -/
def spaceRead (space a : Nat) (s : State) : List Byte × State :=
  match space with
  | 1 => (le 4 (baseWord s.xp a).toNat, s)
  | 2 =>
    let l := (laneAt s (0x4000 + spaceBlock 2 a)).cmt
    let w := a % 16384
    (le 8 (if w < 8192 then tget 0 l.y w else getSec (tget {} l.sec ((w - 8192) / 9)) ((w - 8192) % 9)).toNat, s)
  | 3 => (le 8 (tget 0 (laneAt s (0x4000 + spaceBlock 3 a)).cmt.p (a % 4096)).toNat, s)
  | 6 => (match tget none s.host.log a with
      | some r => recBytes r
      | none => zeros 32, s)
  | 7 =>
    (le 8 (Config.free s.free % 2 ^ 36) ++ le 8 (Config.free (s.free + 1) % 2 ^ 36), s.onFree fun n => n + 2)
  | _ => ([memByte s.mat.mem (spaceAddr s space a)], s)

/-- Words `a`, `a + d`, … of a space in order, up to the first that is out of reach: that word's status and address. -/
def spaceReads (space : Nat) (d : Int) : Nat → Int → List Byte × State → List Byte × State × Option (Nat × Nat)
  | 0, _, p => (p.1, p.2, none)
  | n + 1, a, p =>
    match if a < 0 then some 0x0004 else spaceStop p.2 space a.toNat with
    | some st => (p.1, p.2, some (st, (BitVec.ofInt 32 a).toNat))
    | none =>
      let q := spaceRead space a.toNat p.2
      spaceReads space d n (a + d) (p.1 ++ q.1, q.2)

/-- The space takes writes that a claimant forwards and a standby refuses (R370, 10 R319). -/
def spaceForwarded (space : Nat) : Bool := decide (1 ≤ space ∧ space ≤ 5)

/-- Why a word cannot be written, if it cannot. -/
def writeStop (s : State) (space a : Nat) (b : List Byte) : Option Nat :=
  if isStandby s && spaceForwarded space then some 0x000A
  else
    match spaceStop s space a with
    | some st => some st
    | none =>
      let high := decide (2 ^ 36 ≤ leNat b)
      match space with
      | 1 =>
        let w := BitVec.ofNat 32 (leNat b)
        if 12 ≤ (byteAt b 3).toNat then some 0x0003 else if alleyBad s a w then some 0x0011 else none
      | 2 => if high || (decide (8192 ≤ a % 16384 ∧ 5 ≤ (a % 16384 - 8192) % 9) && sosFades s (spaceBlock 2 a)) then some 0x0003
        else none
      | 3 => if (laneAt s (0x4000 + spaceBlock 3 a)).st != 3 then some 0x002A else if high then some 0x0003 else none
      | 5 => match s.plan.staged with
        | some q => if q.effect.isNone then some 0x0006 else none
        | none => none
      | 6 => some 0x0040
      | 7 => some 0x0040
      | _ => none

/-! ### Applying words (R369, R370) -/

/-- Words of the gain space, in order, as one-entry node writes with tag 255 (02 R51): how many were taken, and the one that
its queue cannot take. -/
def gainWords : List (Nat × List Byte) → Nat → State → State × Nat × Option (Nat × Nat)
  | [], n, s => (s, n, none)
  | (a, b) :: t, n, s =>
    match queueWrite s 255 a (BitVec.ofNat 32 (leNat b)) s.xp with
    | some x => gainWords t (n + 1) (s.onXp fun _ => x)
    | none =>
      (s.onXp fun x => { x with
        queueRefused := true
        refused := x.refused ||| BitVec.ofNat 80 (2 ^ sqOf s a) }, n, some (0x0010, a))

/-- A coefficient or program word as an outside write. -/
def outWord (space a : Nat) (b : List Byte) : OutWr :=
  let v := BitVec.ofNat 64 (leNat b)
  if space = 3 then { kind := 3, addr := a % 4096, val := v, set := 0 }
  else if a % 16384 < 8192 then { kind := 0, addr := a % 16384, val := v, set := 0 }
  else { kind := 1, addr := a % 16384 - 8192, val := v, set := 0 }

/-- Coefficient or program words, all at one flip: one outside write per block (03 R87). -/
def blockWords (space : Nat) (l : List (Nat × List Byte)) (s : State) : State :=
  ((l.map fun w => spaceBlock space w.1).eraseDups).foldl (fun s id =>
    outsideWrite id ((l.filter fun w => spaceBlock space w.1 == id).map fun w => outWord space w.1 w.2) s) s

/-- Entries whose record or samples hold byte `a` of the library (15 R477). -/
def libTouched (s : State) (a : Nat) : List Nat :=
  s.sm.verified.filter fun e => (a / 128 == e) ||
    (let r := libRecord s e
     decide (fld r 0 4 ≤ a ∧ a < fld r 0 4 + 3 * fld r 4 4))

/-- Bytes of the message library or the plan image space; a library entry that is written loses VERIFIED. -/
def byteWords (space : Nat) (l : List (Nat × List Byte)) (s : State) : State :=
  l.foldl (fun s w =>
    let s := if space = 4 then
      let hit := libTouched s w.1
      s.onSm fun m => { m with verified := m.verified.filter fun e => !hit.contains e }
    else s
    s.onMat fun m => { m with mem := memPut m.mem (spaceAddr s space w.1) (byteAt w.2 0) }) s

/-- The words of a burst are applied in the wave in progress, or at the next flip. -/
def applyWords (space : Nat) (l : List (Nat × List Byte)) (s : State) : State × Nat × Option (Nat × Nat) :=
  if space = 1 then gainWords l 0 s
  else if byteSpace space then (byteWords space l s, l.length, none)
  else (blockWords space l s, l.length, none)

/-- The wave in which the words of a space are applied. -/
def applyWave (space : Nat) (s : State) : BitVec 64 := if space = 2 ∨ space = 3 then nextWave s
  else if space = 1 then entryWave s else effNow s

/-- A channel stops on a failure (R370): status, address, ERROR, and the interrupt of R365. -/
def dpFail (c st a : Nat) (s : State) : State :=
  sendMsi (32 + c) (setIrq (20 + c) (onDp c (fun q => { q with
    status := st
    error := true
    fail := BitVec.ofNat 32 a
    burst := []
    burstLen := 0
    burstNext := none }) s))

/-- `n` words of channel `c` have been transferred. -/
def dpCount (c n : Nat) (s : State) : State := onDp c (fun q => { q with
  words := satAdd q.words n
  lastWords := satAdd q.lastWords n }) s

/-- Words of channel `c` take effect. -/
def dpApply (c space : Nat) (l : List (Nat × List Byte)) (s : State) : State :=
  let w := applyWave space s
  let r := applyWords space l s
  let s := dpCount c r.2.1 (onDp c (fun q => { q with applied := w }) r.1)
  match r.2.2 with
  | some (st, a) => dpFail c st a s
  | none => s

/-- The record that carries a burst to both units (10 R316, R319); `vals` holds the words' addresses. -/
def dpRec (c space : Nat) (l : List (Nat × List Byte)) (s : State) : FwdRec :=
  { type := 5, code := space, wave := sampleNow s + 2, bytes := l.flatMap (·.2), vals := l.map fun w => (w.1 : Int), kiosk := 64 + c }

/-- The words of a record. -/
def recWords (r : FwdRec) : List (Nat × List Byte) :=
  let w := spaceW r.code
  (List.range r.vals.length).map fun i => ((r.vals.getD i 0).toNat, (r.bytes.drop (w * i)).take w)

/-- The present burst of a channel ends, and the words it has placed are applied, or forwarded for both units. -/
def dpEnd (c : Nat) (s : State) : State :=
  let q := dpAt s c
  let s := onDp c (fun q => { q with
    burst := []
    burstLen := 0
    burstNext := none
    reading := false }) s
  if q.burst = [] then s
  else if spaceForwarded q.space && forwards s then
    let r := dpRec c q.space q.burst s
    s.onTwin fun t => { t with
      fwdOut := t.fwdOut ++ [r]
      fwdIn := t.fwdIn ++ [r] }
  else
    let s := if spaceForwarded q.space && s.twin.pair && s.twin.active then s.onTwin fun t => { t with ahead := true } else s
    dpApply c q.space q.burst s

/-! ### Accesses (R367, R369) -/

/-- STRIDE as a number. -/
def dpStride (q : DpS) : Int := q.stride.toInt

/-- The space address of the word at window word offset `o`. -/
def dpWordAddr (q : DpS) (o : Nat) : Int :=
  if q.stream then q.addr.toNat else (q.addr.toNat : Int) + (o : Int) * dpStride q

/-- DP_ADDR after a word: it advances in STREAM mode. -/
def dpAdvance (q : DpS) : BitVec 32 := if q.stream then q.addr + BitVec.ofInt 32 (dpStride q) else q.addr

/-- An access at byte offset `o` of the window begins a new burst: 4,096 bytes, a 4 KB boundary, or the other direction. -/
def burstOver (q : DpS) (rd : Bool) (o : Nat) : Bool :=
  match q.burstNext with
  | none => false
  | some n => decide (4096 ≤ q.burstLen) || decide (o / 4096 ≠ (n - 1) / 4096) || q.reading != rd

/-- A word joins the present burst. -/
def burstAdd (q : DpS) (rd : Bool) (o w : Nat) (now : Nat) : DpS := { q with
  burstLen := q.burstLen + w
  burstNext := some (o + w)
  burstAt := now
  reading := rd
  addr := dpAdvance q }

/-- The bytes of word `i` of an access of bytes `d` at offset `o`; none where a byte is not written. -/
def wordBytes (d : List (Option Byte)) (o w i : Nat) : Option (List Byte) :=
  (List.range w).foldr (fun k acc =>
    match (if o ≤ i * w + k then d.getD (i * w + k - o) none else none), acc with
    | some b, some l => some (b :: l)
    | _, _ => none) (some [])

/-- The words of a write access, in order; `left` counts the bytes that the access may still carry (R361: TOO_LONG). -/
def writeWords (c o : Nat) (d : List (Option Byte)) : List Nat → Nat → State → State
  | [], _, s => s
  | i :: t, left, s =>
    let q0 := dpAt s c
    let w := spaceW q0.space
    let s := if burstOver q0 false (i * w) then dpEnd c s else s
    let q := dpAt s c
    if q.error ∨ q.open_ = false then s
    else
      let a := dpWordAddr q i
      let bad := if left < w then some 0x0042 else match wordBytes d o w i with
        | none => some 0x0041
        | some b => if a < 0 then some 0x0004 else writeStop s q.space a.toNat b
      match bad with
      | some st =>
        let s := dpEnd c s
        if (dpAt s c).error then s else dpFail c st (BitVec.ofInt 32 a).toNat s
      | none =>
        let b := (wordBytes d o w i).getD []
        writeWords c o d t (left - w) (onDp c (fun q => { burstAdd q false (i * w) w s.clk.now with
          burst := q.burst ++ [(a.toNat, b)] }) s)

/-- Word numbers that an access of `n` bytes at offset `o` touches. -/
def touched (o n w : Nat) : List Nat := if n = 0 then [] else (List.range ((o + n - 1) / w + 1 - o / w)).map (· + o / w)

/-- An access to a closed channel (R367). -/
def dpNotOpen (c : Nat) (s : State) : State := onDp c (fun q => { q with status := 0x0043 }) s

/-- A write of the bytes `d` (none: byte enable 0) at offset `o` of the window of channel `c`. -/
def dpWrite (c o : Nat) (d : List (Option Byte)) (s : State) : State :=
  if s.host.fwState ≠ 5 then s
  else
    let q := dpAt s c
    if q.open_ = false then dpNotOpen c s
    else if q.error then s
    else
      let s := writeWords c o d (touched o d.length (spaceW q.space)) 4096 s
      if 4096 ≤ (dpAt s c).burstLen then dpEnd c s else s

/-- The words of a read access, in order, after the bytes `acc`; `ded` numbers a word whose read meets a double-bit error in
LPDDR5 (12 R387). -/
def readWords (c : Nat) (ded : Option Nat) : List Nat → Nat → List Byte → State → List Byte × State
  | [], _, acc, s => (acc, s)
  | i :: t, k, acc, s =>
    let q0 := dpAt s c
    let w := spaceW q0.space
    let s := if burstOver q0 true (i * w) then dpEnd c s else s
    let q := dpAt s c
    if q.error ∨ q.open_ = false then (acc, s)
    else
      let a := dpWordAddr q i
      let bad := if a < 0 then some 0x0004 else spaceStop s q.space a.toNat
      match bad with
      | some st => (acc, dpFail c st (BitVec.ofInt 32 a).toNat s)
      | none =>
        if ded = some k ∧ byteSpace q.space then
          (acc, dpFail c 0x0004 (BitVec.ofInt 32 a).toNat (busErr 3 true (spaceAddr s q.space a.toNat) false 0
            (s.onMat fun m => { m with ue := satAdd m.ue 1 })))
        else
          let r := spaceRead q.space a.toNat s
          readWords c ded t (k + 1) (acc ++ r.1) (dpCount c 1 (onDp c (fun q => burstAdd q true (i * w) w s.clk.now) r.2))

/-- A read of `n` bytes at offset `o` of the window of channel `c`: the bytes, 0 where none are delivered. -/
def dpRead (c o n : Nat) (ded : Option Nat) (s : State) : List Byte × State :=
  if s.host.fwState ≠ 5 then (zeros n, s)
  else
    let q := dpAt s c
    if q.open_ = false then (zeros n, dpNotOpen c s)
    else if q.error then (zeros n, s)
    else
      let w := spaceW q.space
      let s := if q.burst = [] then s else dpEnd c s
      let r := readWords c ded (touched o n w) 0 [] s
      (sized n (r.1.drop (o % w)), r.2)

/-- DATA_PORT_WRITE (R367, R369). -/
def execDataPortWrite (channel : Fin 4) (offset : BitVec 24) (data : List (Option Byte)) (s : State) :
    Host.Outcome State Fault Refusal := .next (dpWrite channel.val offset.toNat data s)

/-- DATA_PORT_READ (R367, R369). -/
def execDataPortRead (channel : Fin 4) (offset : BitVec 24) (length : Nat) (ded : Option Nat) (s : State) :
    Host.Outcome State Fault Refusal :=
  let r := dpRead channel.val offset.toNat length ded s
  .next (r.2.onHost fun h => { h with rdata := r.1 })

/-- DP_BURST_IDLE_END (R369): 2 µs without an access. -/
def execDpBurstIdleEnd (channel : Fin 4) (s : State) : Host.Outcome State Fault Refusal :=
  let q := dpAt s channel.val
  if q.burstNext.isSome ∧ q.burstAt + 2 ≤ s.clk.now then .next (dpEnd channel.val s) else .next s

/-- DP_COMMIT (R371). -/
def execDpCommit (channel : Fin 4) (s : State) : Host.Outcome State Fault Refusal := .next (dpEnd channel.val s)

/-- DP_ADDR is written: the present burst ends first. -/
def dpSetAddr (c : Nat) (v : BitVec 32) (s : State) : State := onDp c (fun q => { q with addr := v }) (dpEnd c s)

/-- DP_ADDR_WRITE (R371). -/
def execDpAddrWrite (channel : Fin 4) (value : BitVec 32) (s : State) : Host.Outcome State Fault Refusal :=
  .next (dpSetAddr channel.val value s)

/-- DP_ERROR_CLEAR (R370). -/
def execDpErrorClear (channel : Fin 4) (s : State) : Host.Outcome State Fault Refusal :=
  .next (onDp channel.val (fun q => { q with error := false }) s)

/-! ### Registers (R371) -/

/-- DP_CTRL. -/
def dpCtrl (q : DpS) : BitVec 32 :=
  BitVec.ofNat 32 (2 ^ 31 * b2n q.open_ + 2 ^ 30 * b2n q.session + 2 ^ 24 * q.space + 2 ^ 21 * b2n q.stream)

/-- DP_STATUS. -/
def dpStatus (q : DpS) : BitVec 32 := BitVec.ofNat 32 (2 ^ 16 * q.status + b2n q.error)

/-! ### Family 0x0C (R372) -/

/-- The space code names a space. -/
def spaceKnown (n : Nat) : Bool := decide (1 ≤ n ∧ n ≤ 7)

/-- STRIDE of a request lies within its range, and is 1 in a byte space. -/
def strideOk (space v : Nat) : Bool :=
  let d := sgn 32 v
  decide (-8388608 ≤ d ∧ d ≤ 8388607) && (!byteSpace space || d == 1)

/-- The fields of BULK_OPEN. -/
def bulkOpenCheck (p : List Byte) (s : State) : Option Fail :=
  orElse (paramCheck ([(0, decide (fld p 0 1 < 4)), (1, spaceKnown (fld p 1 1)), (2, decide (fld p 2 1 ≤ 1))] ++ zeroFrom p 3 1
      ++ [(8, strideOk (fld p 1 1) (fld p 8 4)), lenIs p 12]))
    (failIf (dpAt s (fld p 0 1)).open_ 0x0006)

/-- The request in progress on a Kiosk came inside the session. -/
def inSession (k : Nat) (s : State) : Bool :=
  match (tget {} s.host.kiosks k).req with
  | some r => r.sealed
  | none => false

/-- Effect of BULK_OPEN. -/
def bulkOpenEffect (k : Nat) (p : List Byte) (s : State) : Effect :=
  (onDp (fld p 0 1) (fun _ => {
    open_ := true
    session := inSession k s
    space := fld p 1 1
    stream := byteAt p 2 == 1
    addr := BitVec.ofNat 32 (fld p 4 4)
    stride := BitVec.ofNat 24 (fld p 8 4 % 2 ^ 24) }) s, some (le 4 s.plan.epoch.toNat ++ zeros 4))

/-- BULK_OPEN. -/
def execBulkOpen (kiosk : Fin 32) (s : State) : Host.Outcome State Fault Refusal :=
  .next (runKiosk 0x0C01 kiosk.val fwdNever bulkOpenCheck bulkOpenEffect s)

/-- The fields of BULK_CLOSE: the channel is open. -/
def bulkCloseCheck (p : List Byte) (s : State) : Option Fail :=
  orElse (paramCheck ([(0, decide (fld p 0 1 < 4))] ++ zeroFrom p 1 3 ++ [lenIs p 4]))
    (failIf (!(dpAt s (fld p 0 1)).open_) 0x0043)

/-- Effect of BULK_CLOSE: the present burst ends first. -/
def bulkCloseEffect (_ : Nat) (p : List Byte) (s : State) : Effect :=
  let c := fld p 0 1
  let s := dpEnd c s
  let q := dpAt s c
  (onDp c dpShut s, some (le 8 q.applied.toNat ++ le 4 q.lastWords.toNat ++ le 2 q.status ++ zeros 2 ++ le 4 q.fail.toNat))

/-- BULK_CLOSE. -/
def execBulkClose (kiosk : Fin 32) (s : State) : Host.Outcome State Fault Refusal :=
  .next (runKiosk 0x0C02 kiosk.val fwdNever bulkCloseCheck bulkCloseEffect s)

/-- The fields of BULK_STATUS. -/
def bulkStatusCheck (p : List Byte) (_ : State) : Option Fail :=
  paramCheck ([(0, decide (fld p 0 1 < 4))] ++ zeroFrom p 1 3 ++ [lenIs p 4])

/-- The response of BULK_STATUS. -/
def bulkStatusEffect (_ : Nat) (p : List Byte) (s : State) : Effect :=
  let q := dpAt s (fld p 0 1)
  (s, some (le 4 (dpCtrl q).toNat ++ le 4 q.addr.toNat ++ le 4 q.stride.toNat ++ le 2 q.status ++ zeros 2 ++ le 4 q.fail.toNat
    ++ le 4 q.words.toNat))

/-- BULK_STATUS. -/
def execBulkStatus (kiosk : Fin 32) (s : State) : Host.Outcome State Fault Refusal :=
  .next (runKiosk 0x0C03 kiosk.val fwdNever bulkStatusCheck bulkStatusEffect s)

/-- The words that BULK_CRC covers. -/
def crcWords (p : List Byte) (s : State) : List Byte × State × Option (Nat × Nat) :=
  spaceReads (fld p 0 1) (sgn 32 (fld p 12 4)) (fld p 8 4) (fld p 4 4) ([], s)

/-- The fields of BULK_CRC; a word out of reach fails the command. -/
def bulkCrcCheck (p : List Byte) (s : State) : Option Fail :=
  orElse (paramCheck ([(0, spaceKnown (fld p 0 1))] ++ zeroFrom p 1 3 ++ [(8, decide (1 ≤ fld p 8 4 ∧ fld p 8 4 ≤ 8388608)),
      (12, strideOk (fld p 0 1) (fld p 12 4)), lenIs p 16]))
    (match (crcWords p s).2.2 with
    | some (st, _) => some { status := st }
    | none => none)

/-- The response of BULK_CRC. -/
def bulkCrcEffect (_ : Nat) (p : List Byte) (s : State) : Effect :=
  let r := crcWords p s
  (r.2.1, some (le 4 (crc32 r.1).toNat ++ zeros 4 ++ le 8 (sampleNow s).toNat))

/-- BULK_CRC. -/
def execBulkCrc (kiosk : Fin 32) (s : State) : Host.Outcome State Fault Refusal :=
  .next (runKiosk 0x0C04 kiosk.val fwdNever bulkCrcCheck bulkCrcEffect s)

/-- Block ids up to the highest of the running plan. -/
def blockSpan (s : State) : Nat :=
  match s.plan.run with
  | some i => (i.blocks.map fun b => b.id + 1).foldl max 0
  | none => 0

/-- SIZE: words of a space at the running rate and plan. -/
def spaceSize (s : State) (space : Nat) : Nat :=
  match space with
  | 1 => 10 * sqRows s * 2048
  | 2 => blockSpan s * 16384
  | 3 => blockSpan s * 4096
  | 4 => libSize s
  | 5 => 67108864
  | 6 => 4096
  | _ => blockSpan s * 64

/-- The space can be written now. -/
def spaceWritable (s : State) (space : Nat) : Bool :=
  !isStandby s && match space with
  | 1 => true
  | 2 => decide (0 < blockSpan s)
  | 3 => (List.range (blockSpan s)).any fun id => laneRuns s id && (laneAt s (0x4000 + id)).st == 3
  | 4 => s.mat.ddrState == 2 && decide (0 < libSize s)
  | 5 => s.mat.ddrState == 2
  | _ => false

/-- The fields of BULK_SPACE_INFO. -/
def bulkSpaceInfoCheck (p : List Byte) (_ : State) : Option Fail :=
  paramCheck ([(0, spaceKnown (fld p 0 1))] ++ zeroFrom p 1 3 ++ [lenIs p 4])

/-- The response of BULK_SPACE_INFO. -/
def bulkSpaceInfoEffect (_ : Nat) (p : List Byte) (s : State) : Effect :=
  let space := fld p 0 1
  (s, some (le 2 (spaceW space) ++ le 2 (1 + 2 * b2n (spaceWritable s space)) ++ le 4 (spaceSize s space)))

/-- BULK_SPACE_INFO. -/
def execBulkSpaceInfo (kiosk : Fin 32) (s : State) : Host.Outcome State Fault Refusal :=
  .next (runKiosk 0x0C05 kiosk.val fwdNever bulkSpaceInfoCheck bulkSpaceInfoEffect s)

end Sys2Proof.Machine
end

