-- ==== Sys2Proof/Machine/DspCmd.lean ====
section
/-! DEFINITION. The events of the Dispatcher and the commands of family 0x04 (06 R188 to R218). -/

namespace Sys2Proof.Machine

/-! ### Events -/

/-- SLACK_WINDOW_END (R188 to R190): the window of 256 waves that ends with the wave in progress. `speeds` holds the
measured speed of tiles (district x 8 + tile) in thousand steps per second. Abandoned moves are tried again (R194),
districts without an idle tile get one back (R204), and new thresholds act from the next window (R212). -/
def execSlackWindowEnd (speeds : List (Nat × Nat)) (s : State) : Host.Outcome State Fault Refusal :=
  if s.wave.live = true ∧ s.wave.num.toNat % 256 = 255 ∧ nolutDown s = true then .next (windowDrop s)
  else if s.wave.live = true ∧ s.wave.num.toNat % 256 = 255 then
    let s := noteMedians speeds s
    let s := speeds.foldl (fun s p => noteSpeed p s) s
    let ws := (s.place.works.filter (·.2.placed)).map (·.1)
    let s := ws.foldl (fun s w => windowWork w s) s
    let s := allDistricts.foldl (fun s d => windowAvenue d s) s
    let s := rebalance false (rebalance true (retryMoves s))
    let s := s.onPlace fun p => { p with window := s.wave.num - 255 }
    .next (placeSnap (match s.place.thrNext with
      | some (w, m, r, k) =>
        s.onPlace fun p => { p with warn := w, move := m, retire := r, shadowK := k, thrNext := none }
      | none => s))
  else .next s

/-- CONTEXT_TRANSFER_COMPLETE (R192): the transfer of a piece of work is complete at the flip that launches the next
wave, wave j. -/
def execContextTransferComplete (work : Nat) (s : State) : Host.Outcome State Fault Refusal :=
  .next (s.onPlace fun p => { p with moving := p.moving.map fun m =>
    if m.work == work && m.j.isNone then { m with j := some (nextWave s) } else m })

/-- The shadow run of a piece of work that has computed its last wave. -/
def runOver (s : State) (kind : MoveKind) (work : Nat) : Option MoveS :=
  s.place.moving.find? fun m => m.work == work && m.kind == kind && match m.j with
    | some j => s.wave.live && decide (j.toNat + m.k ≤ s.wave.num.toNat + 1)
    | none => false

/-- SHADOW_RUN_END (R193): both sites have completed the last wave of the shadow run, and their contexts have been compared.
What follows comes at the flip that ends the wave (`shadowEnds`; 01 R16, R27). -/
def execShadowRunEnd (work : Nat) (crcEqual : Bool) (s : State) : Host.Outcome State Fault Refusal :=
  match runOver s .planned work with
  | some m =>
    .next (if s.wave.done.contains work && s.wave.done.contains (0x10000 + work) then
      s.onPlace fun p => { p with moving := p.moving.map fun x => if x = m then { x with ended := some crcEqual } else x }
    else s)
  | none => .next s

/-- Work that the rotating audit leaves out (R199). -/
def auditExempt (s : State) (w : Nat) : Bool :=
  if workMix w then decide (0x2000 ≤ w) || is192 s
  else decide (0x5000 ≤ w ∧ w < 0x6000) || (workAt s (w % 4096 + 0x5000)).placed

/-- The work of a district that is audited, in slot order. -/
def auditable (s : State) (d : Nat) : List (Nat × Nat) :=
  (List.range 7).filterMap fun x =>
    ((occupants s d).find? fun p => p.2.slot == x && !auditExempt s p.1).map fun p => (x, p.1)

/-- Work of a district that no move or audit has taken. -/
def auditFree (s : State) (d : Nat) : List (Nat × Nat) := (auditable s d).filter fun p => (moveOf s p.2).isNone

/-- The next work to audit: an UNAUDITED piece first, else the next slot in turn (R191, R196). -/
def auditPick (s : State) (d : Nat) : Option (Nat × Nat) :=
  let l := auditFree s d
  match l.find? fun p => (workAt s p.2).unaudited with
  | some p => some p
  | none =>
    match l.find? fun p => decide ((tget {} s.place.dist d).auditNext ≤ p.1) with
    | some p => some p
    | none => l.head?

/-- The idle tile to audit on, in turn. -/
def auditOn (s : State) (d : Nat) : Option Nat :=
  let l := idleTiles s d
  match l.find? fun t => decide ((tget {} s.place.dist d).auditTile ≤ t) with
  | some t => some t
  | none => l.head?

/-- AUDIT_START (R196): a district starts an audit every AUDIT_CYCLE / u; without an idle tile, while a transfer holds the
district, or while 8 transfers and shadow runs are in progress (R195), it waits. -/
def execAuditStart (district : Fin 52) (s : State) : Host.Outcome State Fault Refusal :=
  let d := district.val
  let q := tget {} s.place.dist d
  let u := (occupants s d).length
  if s.place.audOn = true ∧ s.wave.live = true ∧ s.plan.run.isSome = true ∧ heldDistrict s d = false
      ∧ migrating s < 8 ∧ nolutDown s = false
      ∧ u ≠ 0 ∧ q.auditAt + s.place.audCycle.toNat * 100000 / u ≤ s.clk.now then
    match auditPick s d, auditOn s d with
    | some (x, w), some t =>
      let past := (auditable s d).all fun p => decide (p.1 ≤ x)
      let ahead := (workAt s w).unaudited
      let s := onDist d (fun q => { q with
        auditNext := if ahead then q.auditNext else if past then 0 else x + 1
        auditTile := t + 1
        auditAt := s.clk.now }) s
      let k := workAt s w
      .next (startMove .audit w (d, 0xFF, t, k.slot) s.place.audWin.toNat (nextWave s) s)
    | _, _ => .next s
  else .next s

/-- A complete audit cycle over all districts is stamped (R213); `slot` is the one whose audit has ended. -/
def auditWrap (d slot : Nat) (s : State) : State :=
  let last := (auditable s d).all fun p => decide (p.1 ≤ slot)
  let s := if last ∧ (tget {} s.place.dist d).auditNext = 0 then onDist d (fun q => { q with wrapped := true }) s else s
  let due := allDistricts.filter fun e => !(auditable s e).isEmpty
  if due.all fun e => (tget {} s.place.dist e).wrapped then
    due.foldl (fun s e => onDist e (fun q => { q with wrapped := false }) s)
      (s.onPlace fun p => { p with cycleDone := sampleNow s })
  else s

/-- AUDIT_WINDOW_END (R197, R198): a window in which every comparison and the context CRC are equal is a pass; a
difference goes to a tie-break. -/
def execAuditWindowEnd (work : Nat) (crcEqual : Bool) (s : State) : Host.Outcome State Fault Refusal :=
  match runOver s .audit work with
  | some m =>
    let s := auditWrap m.dd m.ss ((endMove m s).onPlace fun p => { p with nWindows := satAdd p.nWindows 1 })
    .next (if m.equal && crcEqual then onWork work (fun k => { k with unaudited := false }) s
      else startTie work m.dd m.dt s)
  | none => .next s

/-- TIE_BREAK_COMPLETE (R198): `outcome` 0, the third tile agrees with the placed tile; 1, with the other tile; 2, all
three differ. -/
def execTieBreakComplete (work : Nat) (outcome : Fin 3) (s : State) : Host.Outcome State Fault Refusal :=
  match s.place.moving.find? fun m => m.work == work && m.kind == .tieBreak with
  | some m =>
    let s := s.onPlace fun p => { p with moving := p.moving.filter (· != m) }
    .next (match outcome.val with
      | 0 => tileLoses work m.od 0xFF m.ot s
      | 1 => noteAudit (decideMove work (16 + m.dd * 8 + m.dt) (tileLoses work m.sd m.ss m.st s))
      | _ => unresolved work s)
  | none => .next s

/-- Health of a tile (R200); the mean RS is rounded down (log entry 18). -/
def healthOf (now : Nat) (q : TileS) : Nat :=
  let hist := q.rsAt.filter fun x => decide (now ≤ x.1 + 3600000000)
  let avg := match hist with
    | [] => q.rs
    | _ => (hist.map (·.2)).sum / hist.length
  let ecc := (q.eccAt.filter fun t => decide (now ≤ t + 3600000000)).length
  let losses := (q.lossTo.filter fun t => decide (now < t)).length
  if q.dead then 0 else 255 - (2 * (256 - avg) + min 96 (2 * ecc) + 64 * losses)

/-- One tile at a health update. -/
def updateTile (k : Nat) (s : State) : State :=
  let s := onTile k (fun q => { q with
    health := BitVec.ofNat 8 (healthOf s.clk.now q)
    eccAt := q.eccAt.filter fun t => decide (s.clk.now ≤ t + 3600000000)
    lossTo := q.lossTo.filter fun t => decide (s.clk.now < t) }) s
  if (tileAt s k).health < s.place.retire then retireTile (k / 8) (k % 8) s else s

/-- HEALTH_UPDATE (R200, R201): once per second. -/
def execHealthUpdate (s : State) : Host.Outcome State Fault Refusal :=
  if s.place.healthAt + 1000000 ≤ s.clk.now ∧ nolutDown s = false then
    let s := s.onPlace fun p => { p with healthAt := s.clk.now }
    .next ((List.range 416).foldl (fun s k => updateTile k s) s)
  else .next s

/-- HEALTH_SAVE (R202): an event every 86,400 s. -/
def execHealthSave (s : State) : Host.Outcome State Fault Refusal :=
  if s.place.saveAt + 86400000000 ≤ s.clk.now ∧ nolutDown s = false then
    .next (raise 0x0006 0 0 (s.onPlace fun p => { p with saveAt := s.clk.now }))
  else .next s

/-- WORK_REPLACE (R205): unplaced work is placed again, with its last committed context, as soon as a slot frees. -/
def execWorkReplace (work : Nat) (s : State) : Host.Outcome State Fault Refusal :=
  if (s.place.works.any fun p => p.1 == work && !p.2.placed) = true ∧ nolutDown s = false then
    let k := workAt s work
    let x := match k.pin with
      | some d =>
        match siteIn s work d with
        | some x => some x
        | none => bestSlot s work allDistricts
      | none => bestSlot s work allDistricts
    match x with
    | some x => .next (endShortfall (pinCheck work (settleWork work x s)))
    | none => .next s
  else .next s

/-- CELL_REPAIR (01 R15, R16): the tile's spare cell or slice takes over at the next flip; a second repair leaves the
tile with health 0 (R200). -/
def execCellRepair (tile : Fin 416) (s : State) : Host.Outcome State Fault Refusal :=
  let q := tileAt s tile.val
  if q.spareUsed || s.wave.repairs.contains tile.val then
    .next (onTile tile.val (fun q => { q with dead := true, health := 0 }) s)
  else if s.wave.live then .next (s.onWave fun w => { w with repairs := w.repairs ++ [tile.val] })
  else .next (onTile tile.val (fun q => { q with spareUsed := true }) s)

/-! ### Registers (R211) -/

/-- At least one tile is in the WARN band. -/
def anyWarn (s : State) : Bool := s.place.works.any fun p => p.2.placed && p.2.warn

/-- Audit is stopped in at least one district. -/
def anyGap (s : State) : Bool := s.place.dist.any fun p => p.2.gap

/-- Bits 7 to 0 of PLACE_STATUS. -/
def placeFlags (s : State) : Nat :=
  b2n (s.place.works.any fun p => !p.2.placed) * 128 + b2n (anyGap s) * 64 + b2n (anyWarn s) * 32
    + b2n (s.place.audOn && s.plan.run.isSome) * 16 + b2n s.place.pinBroken * 8 + b2n s.place.urgent * 4
    + b2n s.place.retired * 2 + b2n s.place.audLoss

/-- FREE_SQUARE, 0 to 4 (R211). -/
def freeSquare (s : State) : Nat := min 4 (freeCount s true)

/-- MIGRATING, 0 to 8 (R211). -/
def migField (s : State) : Nat := min 8 (migrating s)

/-- PLACE_STATUS. -/
def placeStatus (s : State) : Nat :=
  freeCount s false * 2 ^ 23 + freeSquare s * 2 ^ 20 + migField s * 2 ^ 16 + placeFlags s

/-! ### Family 0x04 -/

/-- Tiles of one kind with a property. -/
def countTiles (s : State) (mix : Bool) (f : TileS → Bool) : Nat :=
  ((List.range 416).filter fun k => distMix (k / 8) == mix && f (tileAt s k)).length

/-- DSP_STATUS takes no payload. -/
def dspStatusCheck (p : List Byte) (_ : State) : Option Fail := paramCheck [lenIs p 0]

/-- The layout of R213. -/
def dspStatusEffect (_ : Nat) (_ : List Byte) (s : State) : Effect :=
  let ok (q : TileS) : Bool := !q.failed && !q.retired
  (s, some (le 2 (freeCount s false) ++ le 1 (freeSquare s) ++ le 1 (migField s)
    ++ le 1 (countTiles s true ok) ++ le 1 (countTiles s true fun q => !ok q)
    ++ le 2 (countTiles s false ok) ++ le 2 (countTiles s false fun q => !ok q)
    ++ le 2 (s.place.works.filter fun p => !p.2.placed).length ++ le 1 (placeFlags s) ++ zeros 3
    ++ le 4 s.place.nPlanned.toNat ++ le 4 s.place.nUrgent.toNat ++ le 4 s.place.nAbandon.toNat
    ++ le 4 s.place.nWindows.toNat ++ le 4 s.place.nLosses.toNat ++ le 4 s.place.nUnres.toNat
    ++ le 8 s.place.cycleDone.toNat))

/-- DSP_STATUS (R213). -/
def execDspStatus (kiosk : Fin 32) (s : State) : Host.Outcome State Fault Refusal :=
  .next (runKiosk 0x0401 kiosk.val fwdNever dspStatusCheck dspStatusEffect s)

/-- The placement table of the last window under a filter (R214). -/
def placeTable (s : State) (filter : Nat) : List (Nat × List Byte) :=
  s.place.table.filter fun p => filter == 0 || (filter == 1) == workMix p.1

/-- An entry whose SLACK_MIN has been read starts again (R214). -/
def slackRestart (b : List Byte) : List Byte := b.take 7 ++ [0xFF] ++ b.drop 8

/-- The fields of DSP_PLACEMENT_READ. -/
def dspPlacementReadCheck (p : List Byte) (s : State) : Option Fail :=
  orElse (paramCheck [lenIs p 4, (2, decide (1 ≤ fld p 2 1 ∧ fld p 2 1 ≤ 14)), (3, decide (fld p 3 1 ≤ 2))])
    (paramCheck [(0, decide (fld p 0 2 < (placeTable s (fld p 3 1)).length))])

/-- The entries from FIRST on, of the table of one window; SLACK_MIN and the lowest slack (01 R24) start again at the entries
read. -/
def dspPlacementReadEffect (_ : Nat) (p : List Byte) (s : State) : Effect :=
  let t := placeTable s (fld p 3 1)
  let rows := (t.drop (fld p 0 2)).take (fld p 2 1)
  let r := le 2 t.length ++ le 2 (fld p 0 2) ++ le 1 rows.length ++ zeros 3 ++ le 8 s.place.window.toNat
    ++ (rows.map (·.2)).flatten
  let s := s.onPlace fun q => { q with
    table := q.table.map fun e => if rows.contains e then (e.1, slackRestart e.2) else e }
  (rows.foldl (fun s r => onWork r.1 (fun k => { k with slackMin := 0xFF, slackRead := 0xFF }) s) s, some r)

/-- DSP_PLACEMENT_READ (R214). -/
def execDspPlacementRead (kiosk : Fin 32) (s : State) : Host.Outcome State Fault Refusal :=
  .next (runKiosk 0x0402 kiosk.val fwdNever dspPlacementReadCheck dspPlacementReadEffect s)

/-- AUDIT of a district entry. -/
def auditState (s : State) (d : Nat) : Nat :=
  if s.place.audOn = false then 2
  else if distMix d && is192 s then 3
  else if (tget {} s.place.dist d).gap || (unplacedTiles s d).isEmpty then 1 else 0

/-- One entry of R215. -/
def distEntry (s : State) (d : Nat) : List Byte :=
  let q := tget {} s.place.dist d
  let ks := (List.range 8).map fun t => tileAt s (d * 8 + t)
  let ok := ks.filter fun q => !q.failed && !q.retired
  le 1 d ++ le 1 (quarterOf d) ++ le 1 (b2n !distMix d) ++ le 1 (healthyTiles s d).length ++ le 1 (offered s d)
    ++ le 1 (occupants s d).length ++ le 1 (unplacedTiles s d).length ++ le 1 (8 - ok.length)
    ++ le 1 (ks.filter fun q => !q.spareUsed).length ++ le 1 (auditState s d) ++ le 1 q.slackMin.toNat
    ++ le 1 (ok.foldl (fun a q => min a q.health.toNat) 255) ++ le 2 q.losses.toNat ++ le 2 q.moves.toNat

/-- The fields of DSP_DISTRICT_READ. -/
def dspDistrictReadCheck (p : List Byte) (_ : State) : Option Fail :=
  paramCheck ([lenIs p 4, (0, decide (fld p 0 1 ≤ 51)),
    (1, decide (1 ≤ fld p 1 1 ∧ fld p 1 1 ≤ 14 ∧ fld p 0 1 + fld p 1 1 ≤ 52))] ++ zeroFrom p 2 2)

/-- The entries of R215. -/
def dspDistrictReadEffect (_ : Nat) (p : List Byte) (s : State) : Effect :=
  (s, some (le 1 (fld p 1 1) ++ zeros 7 ++ le 8 s.place.window.toNat
    ++ ((List.range (fld p 1 1)).map fun i => distEntry s (fld p 0 1 + i)).flatten))

/-- DSP_DISTRICT_READ (R215). -/
def execDspDistrictRead (kiosk : Fin 32) (s : State) : Host.Outcome State Fault Refusal :=
  .next (runKiosk 0x0403 kiosk.val fwdNever dspDistrictReadCheck dspDistrictReadEffect s)

/-- The fields of DSP_THRESHOLDS (R216). -/
def dspThresholdsCheck (p : List Byte) (_ : State) : Option Fail :=
  paramCheck ([lenIs p 8, (0, decide (fld p 0 1 ≤ 1))] ++ onOp p 0 [(1, 1, decide (fld p 2 1 < fld p 1 1 ∧ fld p 1 1 ≤ 128)),
    (2, 1, decide (1 ≤ fld p 2 1)), (3, 1, decide (16 ≤ fld p 3 1 ∧ fld p 3 1 ≤ 192)),
    (4, 2, decide (16 ≤ fld p 4 2 ∧ fld p 4 2 ≤ 4096))] ++ zeroFrom p 6 2)

/-- The values in force are returned; a write acts from the next window (R212, R216). -/
def dspThresholdsEffect (_ : Nat) (p : List Byte) (s : State) : Effect :=
  let r := le 1 (fld p 0 1) ++ le 1 s.place.warn.toNat ++ le 1 s.place.move.toNat ++ le 1 s.place.retire.toNat
    ++ le 2 s.place.shadowK.toNat ++ zeros 2
  if byteAt p 0 = 1 then
    (s.onPlace fun q => { q with
      thrNext := some (BitVec.ofNat 8 (fld p 1 1), BitVec.ofNat 8 (fld p 2 1), BitVec.ofNat 8 (fld p 3 1),
        BitVec.ofNat 16 (fld p 4 2))
      shadowK := BitVec.ofNat 16 (fld p 4 2) }, some r)
  else (s, some r)

/-- DSP_THRESHOLDS (R216). -/
def execDspThresholds (kiosk : Fin 32) (s : State) : Host.Outcome State Fault Refusal :=
  .next (runKiosk 0x0404 kiosk.val fwdNever dspThresholdsCheck dspThresholdsEffect s)

/-- The fields of DSP_AUDIT_CONFIG. -/
def dspAuditConfigCheck (p : List Byte) (_ : State) : Option Fail :=
  paramCheck ([lenIs p 8, (0, decide (fld p 0 1 ≤ 1))] ++ onOp p 0 [(1, 1, decide (fld p 1 1 ≤ 1)),
    (2, 2, decide (5 ≤ fld p 2 2 ∧ fld p 2 2 ≤ 600)), (4, 2, decide (32 ≤ fld p 4 2 ∧ fld p 4 2 ≤ 4096))]
    ++ zeroFrom p 6 2)

/-- The previous values are returned; disabling the audit logs a NOTE (R217). -/
def dspAuditConfigEffect (_ : Nat) (p : List Byte) (s : State) : Effect :=
  let r := le 1 (fld p 0 1) ++ le 1 (b2n s.place.audOn) ++ le 2 s.place.audCycle.toNat ++ le 2 s.place.audWin.toNat
    ++ zeros 2
  if byteAt p 0 = 1 then
    let on := byteAt p 1 == 1
    let off := s.place.audOn && !on
    let s := s.onPlace fun q => { q with
      audOn := on, audCycle := BitVec.ofNat 16 (fld p 2 2), audWin := BitVec.ofNat 16 (fld p 4 2) }
    (if off then raise 0x0406 (distObj 0xFF) 0 s else s, some r)
  else (s, some r)

/-- DSP_AUDIT_CONFIG (R217). -/
def execDspAuditConfig (kiosk : Fin 32) (s : State) : Host.Outcome State Fault Refusal :=
  .next (runKiosk 0x0405 kiosk.val fwdNever dspAuditConfigCheck dspAuditConfigEffect s)

/-! ### The health record (R218; its content is opaque to the host, log entry 20) -/

/-- Three bytes of one tile: retired, mean RS and health. -/
def healthTile (s : State) (k : Nat) : List Byte :=
  let q := tileAt s k
  let hist := q.rsAt
  let avg := match hist with
    | [] => q.rs
    | _ => (hist.map (·.2)).sum / hist.length
  le 3 (b2n q.retired + 2 * avg + 1024 * q.health.toNat)

/-- The loss list: tile and age in seconds. -/
def healthLosses (s : State) : List (Nat × Nat) :=
  ((List.range 416).map fun k => (tileAt s k).lossTo.map fun t => (k, 604800 - (t - s.clk.now) / 1000000)).flatten

/-- The record of 3,392 bytes: unique identifier, tiles, losses, CRC-32. -/
def healthRecord (s : State) : List Byte :=
  let l := (healthLosses s).take 426
  let b := le 8 s.sm.uid.toNat ++ ((List.range 416).map (healthTile s)).flatten ++ le 2 l.length
    ++ (l.map fun p => le 2 p.1 ++ le 3 p.2).flatten
  let b := sized 3388 b
  b ++ le 4 (crc32 b).toNat

/-- Length of a chunk. -/
def chunkLen (c : Nat) : Nat := if c < 15 then 224 else 32

/-- The fields of DSP_HEALTH_EXPORT. -/
def dspHealthExportCheck (p : List Byte) (_ : State) : Option Fail :=
  paramCheck ([lenIs p 4, (0, decide (fld p 0 1 ≤ 15))] ++ zeroFrom p 1 3)

/-- One chunk; chunk 0 takes the snapshot. -/
def dspHealthExportEffect (_ : Nat) (p : List Byte) (s : State) : Effect :=
  let c := fld p 0 1
  let s := if c = 0 then s.onPlace fun q => { q with export_ := healthRecord s } else s
  (s, some (le 1 c ++ le 1 16 ++ le 2 (chunkLen c) ++ zeros 4
    ++ sized (chunkLen c) ((s.place.export_.drop (224 * c)).take (chunkLen c))))

/-- DSP_HEALTH_EXPORT (R218). -/
def execDspHealthExport (kiosk : Fin 32) (s : State) : Host.Outcome State Fault Refusal :=
  .next (runKiosk 0x0406 kiosk.val fwdNever dspHealthExportCheck dspHealthExportEffect s)

/-- The fields of DSP_HEALTH_IMPORT, the epoch, and at chunk 15 the record's CRC and origin. -/
def dspHealthImportCheck (p : List Byte) (s : State) : Option Fail :=
  let c := fld p 0 1
  let f := paramCheck ([(min p.length 8, decide (8 ≤ p.length)),
    (0, decide (c ≤ 15) && (c == 0 || c == s.place.importAt))] ++ zeroFrom p 1 1
    ++ [(2, fld p 2 2 == chunkLen c)] ++ zeroFrom p 4 4 ++ [lenIs p (8 + chunkLen c)])
  let all := s.place.import_ ++ p.drop 8
  let last := c == 15
  orElse f (orElse (failIf (s.plan.epoch != 0) 0x0006)
    (orElse (failIf (last && leNat (all.drop 3388) != (crc32 (all.take 3388)).toNat) 0x0021)
      (failIf (last && fld all 0 8 != s.sm.uid.toNat) 0x0029)))

/-- The record applies: it can retire tiles and lower health, and never returns one to service (R202). -/
def healthImport (b : List Byte) (s : State) : State :=
  let s := (List.range 416).foldl (fun s k =>
    let v := fld b (8 + 3 * k) 3
    let q := tileAt s k
    onTile k (fun q => { q with
      retired := q.retired || bitOf v 0
      rs := v / 2 % 512
      rsAt := [(s.clk.now, v / 2 % 512)]
      health := if v / 1024 % 256 < q.health.toNat then BitVec.ofNat 8 (v / 1024) else q.health })
      (if bitOf v 0 && !q.retired then s.onPlace fun p => { p with retired := true } else s)) s
  let n := fld b 1256 2
  let s := (List.range n).foldl (fun s i =>
    let k := fld b (1258 + 5 * i) 2
    let age := fld b (1260 + 5 * i) 3
    if k < 416 ∧ age < 604800 then
      onTile k (fun q => { q with lossTo := q.lossTo ++ [s.clk.now + (604800 - age) * 1000000] }) s
    else s) s
  s

/-- One chunk; the last one applies the record. -/
def dspHealthImportEffect (_ : Nat) (p : List Byte) (s : State) : Effect :=
  let c := fld p 0 1
  let all := (if c = 0 then [] else s.place.import_) ++ p.drop 8
  if c = 15 then (healthImport all (s.onPlace fun q => { q with import_ := [], importAt := 0 }), some [])
  else (s.onPlace fun q => { q with import_ := all, importAt := c + 1 }, some [])

/-- DSP_HEALTH_IMPORT (R218). -/
def execDspHealthImport (kiosk : Fin 32) (s : State) : Host.Outcome State Fault Refusal :=
  .next (runKiosk 0x0407 kiosk.val fwdNever dspHealthImportCheck dspHealthImportEffect s)

end Sys2Proof.Machine
end

