-- ==== Sys2Proof/Machine/Forward.lean ====
section
/-! DEFINITION. Forwarded content takes effect on both units of a pair, and a unit that joins installs the claimant's
configuration (10 R319, R323). -/

namespace Sys2Proof.Machine

/-! ### Forwarded commands (R319) -/

/-- A command's own checks and its effect. -/
abbrev Meaning := (List Byte → State → Option Fail) × (Nat → List Byte → State → Effect)

/-- The forwarded commands. -/
def forwardedCmd (code : Nat) : Option Meaning :=
  match code with
  | 0x0101 => some (planLoadCheck, planLoadEffect)
  | 0x0105 => some (planBlockInsertCheck, planBlockInsertEffect)
  | 0x0106 => some (planBlockRemoveCheck, planBlockRemoveEffect)
  | 0x0107 => some (planEqBypassCheck, planEqBypassEffect)
  | 0x0108 => some (emptyCheck, planUnloadEffect)
  | 0x0201 => some (xpNodeWriteCheck, xpNodeWriteEffect)
  | 0x0203 => some (xpStepTimeoutCheck, xpStepTimeoutEffect)
  | 0x0205 => some (xpSceneCommitCheck, xpSceneCommitEffect)
  | 0x0206 => some (xpSceneDiscardCheck, xpSceneDiscardEffect)
  | 0x0210 => some (xpOvlDefineCheck, xpOvlDefineEffect)
  | 0x0211 => some (xpOvlClearCheck, xpOvlClearEffect)
  | 0x0212 => some (xpOvlSetCheck, xpOvlSetEffect)
  | 0x0213 => some (xpOvlBindCheck, xpOvlBindEffect)
  | 0x0301 => some (blkParamWriteCheck, blkParamWriteEffect)
  | 0x0303 => some (blkCoefWriteCheck, blkCoefWriteEffect)
  | 0x0304 => some (blkSosWriteCheck, blkSosWriteEffect)
  | 0x0310 => some (playerStartCheck, playerStartEffect)
  | 0x0311 => some (playerStopCheck, playerStopEffect)
  | 0x0313 => some (playerBindCheck, playerBindEffect)
  | 0x0501 => some (drvLinkConfigCheck, drvLinkConfigEffect)
  | 0x0505 => some (drvThermalSetCheck, drvThermalSetEffect)
  | 0x0506 => some (drvPilotSetCheck, drvPilotSetEffect)
  | 0x0507 => some (drvKerbSetCheck, drvKerbSetEffect)
  | 0x0508 => some (drvZLimitsCheck, drvZLimitsEffect)
  | 0x050A => some (drvChannelCtlCheck, drvChannelCtlEffect)
  | 0x050B => some (drvCalWriteCheck, drvCalWriteEffect)
  | 0x0D03 => some (z640XpWriteCheck, z640XpWriteEffect)
  | 0x0D05 => some (z640StripMuteCheck, z640StripMuteEffect)
  | 0x0D06 => some (z640RecallCheck, z640RecallEffect)
  | _ => none

/-- A forwarded command on one unit: its checks run again on the state in which it takes effect, and the Kiosk that waits
for it, on the claimant, is answered. -/
def applyCmd (r : FwdRec) (s : State) : State :=
  match forwardedCmd r.code with
  | none => s
  | some m =>
    let s := if r.kiosk < 32 then
        onKiosk r.kiosk (fun q => { q with req := q.req.map fun x => { x with forwarded := false } }) s
      else s
    match m.1 r.bytes s with
    | some f => answerFail r.kiosk f s
    | none => settle r.kiosk (m.2 r.kiosk r.bytes s)

/-- Forwarded Data Port data on one unit; the claimant's channel keeps its counts. -/
def applyData (r : FwdRec) (s : State) : State :=
  if 64 ≤ r.kiosk then dpApply (r.kiosk - 64) r.code (recWords r) s
  else (applyWords r.code (recWords r) s).1

/-! ### The configuration of a unit that joins (R323; the layout of a chunk is the model's, log entry 31) -/

/-- The value `i` of a record. -/
def recVal (r : FwdRec) (i : Nat) : Int := r.vals.getD i 0

/-- The value `i` of a record as a count. -/
def recNat (r : FwdRec) (i : Nat) : Nat := (recVal r i).toNat

/-- The plan that the claimant runs is loaded, with the claimant's epoch. -/
def joinPlan (r : FwdRec) (s : State) : State :=
  let c := checkImage s r.addr
  if c.bad.isSome ∨ s.wave.rate ≠ some c.img.rate then s
  else (takeEffect c.img false (sampleNow s) s).onPlan fun p => { p with epoch := BitVec.ofNat 32 (recNat r 0) }

/-- Settings of a channel's Load Monitor. -/
def joinChan (r : FwdRec) (q : ChanS) : ChanS := { q with
  therm := {
    rthVc := recNat r 0
    cthVc := recNat r 1
    rthM := recNat r 2
    cthM := recNat r 3
    tAmb := recVal r 4
    tKnee := recVal r 5
    tMax := recVal r 6
    slope := recNat r 7
    re0 := recNat r 8
    t0 := recVal r 9
    alpha := recNat r 10 }
  pilot := {
    mode := recNat r 11
    level := recNat r 12
    freq := recNat r 13
    window := recNat r 14 }
  kerb := {
    floor := recNat r 15
    vPeak := recNat r 16
    release := recNat r 17 }
  z := {
    zLow := recNat r 18
    zHigh := recNat r 19
    zRef := recNat r 20
    shortL := recNat r 21
    openL := recNat r 22 }
  hostMute := recNat r 23 == 1
  calHost := if recNat r 24 = 1 then some {
      vLsb := recNat r 25
      iLsb := recNat r 26
      vOutFs := recNat r 27 }
    else none }

/-- A queue entry of the claimant takes the place of the node's. -/
def joinEntry (r : FwdRec) (x : XpS) : XpS :=
  let e : QEntry := {
    idx := r.addr
    word := BitVec.ofInt 32 (recVal r 0)
    held := recNat r 1 == 1
    tag := recNat r 2
    wave := BitVec.ofNat 64 (recNat r 3)
    timeout := recNat r 4 }
  { queueDrop r.addr x with queue := (queueDrop r.addr x).queue ++ [e] }

/-- Words of Y memory, coefficients of one section, or one chain, in every copy of a block. -/
def joinBlock (r : FwdRec) (s : State) : State :=
  let f (c : LaneCtx) : LaneCtx :=
    match r.code with
    | 8 => { c with y := (List.range r.vals.length).foldl (fun t k => tput 0 t (r.addr % 65536 + k) (BitVec.ofInt 36 (recVal r k))) c.y }
    | 9 => { c with sec := tmod {} c.sec (r.addr % 65536) fun k =>
        (List.range 5).foldl (fun k i => setSec k i (BitVec.ofInt 36 (recVal r i))) k }
    | _ => { c with chain := tput none c.chain (r.addr % 65536) (some {
        group := recNat r 0
        inp := recNat r 1
        out := recNat r 2
        first := recNat r 3
        count := recNat r 4 }) }
  (laneCopies s (r.addr / 65536)).foldl (fun s k => onLane k (fun l => { l with cmt := f l.cmt }) s) s

/-- One chunk of the claimant's configuration is installed: 0 bytes of the plan image space, 1 the plan's load, 2 base
words, 3 an override, 4 a PRI binding, 5 command-set levels, 6 a queue entry, 7 a scene schedule, 8 Y words, 9 a section's
coefficients, 10 a chain, 11 a channel's settings, 12 AUDIO_ENABLE, 13 bytes of the message library. -/
def applyConfig (r : FwdRec) (s : State) : State :=
  let each (space : Nat) : State :=
    byteWords space ((List.range r.bytes.length).map fun i => (r.addr + i, [byteAt r.bytes i])) s
  match r.code with
  | 0 => each 5
  | 1 => joinPlan r s
  | 2 => s.onXp fun x => (List.range r.vals.length).foldl (fun x i => setBase (r.addr + i) (BitVec.ofInt 32 (recVal r i)) x) x
  | 3 => s.onXp fun x => { x with ovr := tput none x.ovr r.addr (r.vals.head?.map fun v => BitVec.ofInt 32 v) }
  | 4 =>
    let b (v : Int) : Bind := { level := v.toNat, brokenActs := recNat r 1 == 1 }
    s.onXp fun x => { x with bind := tput none x.bind r.addr (r.vals.head?.map b) }
  | 5 => s.onXp fun x => { x with cmdSet := BitVec.ofNat 16 (recNat r 0) }
  | 6 => s.onXp (joinEntry r)
  | 7 =>
    let c : Sched := { tag := r.addr, same := recNat r 0 == 1, at64 := BitVec.ofNat 64 (recNat r 1) }
    s.onXp fun x => { x with scheds := (x.scheds.filter fun c => c.tag != r.addr) ++ [c] }
  | 11 => onChan r.addr (joinChan r) s
  | 12 => s.onDrv fun d => { d with audio := BitVec.ofNat 32 (recNat r 0) }
  | 13 => each 4
  | _ => joinBlock r s

/-! ### FORWARDED_COMMAND_APPLY -/

/-- A record takes effect. -/
def applyRec (s : State) (r : FwdRec) : State :=
  let s := s.onTwin fun t => { t with applying := true }
  let s :=
    if r.type = 6 then applyConfig r s
    else if r.type = 5 then applyData r s
    else if r.code = 0x0806 then resolveAct (byteAt r.bytes 0).toNat r.wave s
    else applyCmd r s
  s.onTwin fun t => { t with applying := false }

/-- The record's frame has been sent, and the next flip launches its wave or a later one; a unit that joins applies what
it has missed when its configuration is installed (R319, R323). -/
def recDue (s : State) (r : FwdRec) : Bool :=
  decide (r.wave.toNat ≤ (if r.type = 6 ∨ r.code = 0x0806 then sampleNow s else nextWave s).toNat)
    && !s.twin.fwdOut.contains r
    && (r.type != 6 || s.twin.state == 2) && (r.type == 6 || s.twin.state != 2 || s.twin.fwdIn.all fun q => q.type != 6)

/-- Everything that is due takes effect, in order. -/
def forwardAll (s : State) : State :=
  let due := s.twin.fwdIn.filter (recDue s)
  due.foldl applyRec (s.onTwin fun t => { t with fwdIn := t.fwdIn.filter fun r => !due.contains r })

/-- FORWARDED_COMMAND_APPLY (R319). -/
def execForwardedCommandApply (s : State) : Host.Outcome State Fault Refusal := .next (forwardAll s)

end Sys2Proof.Machine
end

