-- ==== Sys2Proof/Machine/LaneAlu.lean ====
section
/-! DEFINITION. Formats A, I and K: register and immediate arithmetic (04 R133 to R136). -/

namespace Sys2Proof.Machine

/-- A format A operation with two sources. -/
def alu2 (n : Nat) (d a b : BitVec 4) (f : W36 → W36 → AluRes) (l : LaneS) : Issued :=
  { lane := pushRes n (some d) (f (rdD l a) (rdD l b)) l }

/-- A format A operation with one source. -/
def alu1 (d a : BitVec 4) (f : W36 → AluRes) (l : LaneS) : Issued :=
  { lane := pushRes 1 (some d) (f (rdD l a)) l }

/-- MOV (R133): Dd := Da. -/
def execMov (lane : Nat) (ded : Bool) (d a : BitVec 4) (s : State) : Host.Outcome State Fault Refusal :=
  .next (issue lane ded (alu1 d a aluLogic) s)

/-- ADD (R133): wrapping sum. -/
def execAdd (lane : Nat) (ded : Bool) (d a b : BitVec 4) (s : State) : Host.Outcome State Fault Refusal :=
  .next (issue lane ded (alu2 1 d a b aluAdd) s)

/-- ADDS (R133): saturating sum. -/
def execAdds (lane : Nat) (ded : Bool) (d a b : BitVec 4) (s : State) : Host.Outcome State Fault Refusal :=
  .next (issue lane ded (alu2 1 d a b aluAdds) s)

/-- SUB (R133): wrapping difference. -/
def execSub (lane : Nat) (ded : Bool) (d a b : BitVec 4) (s : State) : Host.Outcome State Fault Refusal :=
  .next (issue lane ded (alu2 1 d a b aluSub) s)

/-- SUBS (R133): saturating difference. -/
def execSubs (lane : Nat) (ded : Bool) (d a b : BitVec 4) (s : State) : Host.Outcome State Fault Refusal :=
  .next (issue lane ded (alu2 1 d a b aluSubs) s)

/-- NEG (R133): wrapping negate. -/
def execNeg (lane : Nat) (ded : Bool) (d a : BitVec 4) (s : State) : Host.Outcome State Fault Refusal :=
  .next (issue lane ded (alu1 d a aluNeg) s)

/-- NEGS (R133): saturating negate. -/
def execNegs (lane : Nat) (ded : Bool) (d a : BitVec 4) (s : State) : Host.Outcome State Fault Refusal :=
  .next (issue lane ded (alu1 d a aluNegs) s)

/-- ABS (R133): saturating absolute value. -/
def execAbs (lane : Nat) (ded : Bool) (d a : BitVec 4) (s : State) : Host.Outcome State Fault Refusal :=
  .next (issue lane ded (alu1 d a aluAbs) s)

/-- AND (R133): bitwise AND. -/
def execAnd (lane : Nat) (ded : Bool) (d a b : BitVec 4) (s : State) : Host.Outcome State Fault Refusal :=
  .next (issue lane ded (alu2 1 d a b (fun x y => aluLogic (x &&& y))) s)

/-- OR (R133): bitwise OR. -/
def execOr (lane : Nat) (ded : Bool) (d a b : BitVec 4) (s : State) : Host.Outcome State Fault Refusal :=
  .next (issue lane ded (alu2 1 d a b (fun x y => aluLogic (x ||| y))) s)

/-- XOR (R133): bitwise exclusive OR. -/
def execXor (lane : Nat) (ded : Bool) (d a b : BitVec 4) (s : State) : Host.Outcome State Fault Refusal :=
  .next (issue lane ded (alu2 1 d a b (fun x y => aluLogic (x ^^^ y))) s)

/-- NOT (R133): bitwise complement. -/
def execNot (lane : Nat) (ded : Bool) (d a : BitVec 4) (s : State) : Host.Outcome State Fault Refusal :=
  .next (issue lane ded (alu1 d a (fun x => aluLogic (~~~ x))) s)

/-- ASH (R133): arithmetic shift by a register amount (R134). -/
def execAsh (lane : Nat) (ded : Bool) (d a b : BitVec 4) (s : State) : Host.Outcome State Fault Refusal :=
  .next (issue lane ded (alu2 1 d a b (fun x y => aluAsh x (y.truncate 7))) s)

/-- LSH (R133): logical shift by a register amount (R134). -/
def execLsh (lane : Nat) (ded : Bool) (d a b : BitVec 4) (s : State) : Host.Outcome State Fault Refusal :=
  .next (issue lane ded (alu2 1 d a b (fun x y => aluLsh x (y.truncate 7))) s)

/-- MIN (R133): signed minimum. -/
def execMin (lane : Nat) (ded : Bool) (d a b : BitVec 4) (s : State) : Host.Outcome State Fault Refusal :=
  .next (issue lane ded (alu2 1 d a b aluMin) s)

/-- MAX (R133): signed maximum. -/
def execMax (lane : Nat) (ded : Bool) (d a b : BitVec 4) (s : State) : Host.Outcome State Fault Refusal :=
  .next (issue lane ded (alu2 1 d a b aluMax) s)

/-- CMP (R133): the flags of Da − Db; no register is written. -/
def execCmp (lane : Nat) (ded : Bool) (a b : BitVec 4) (s : State) : Host.Outcome State Fault Refusal :=
  .next (issue lane ded (fun l => { lane := pushRes 1 none (aluSub (rdD l a) (rdD l b)) l }) s)

/-- MULF (R133): fractional multiply, rounded and saturated, visible at i + 2. -/
def execMulf (lane : Nat) (ded : Bool) (d a b : BitVec 4) (s : State) : Host.Outcome State Fault Refusal :=
  .next (issue lane ded (alu2 2 d a b aluMulf) s)

/-- MULI (R133): integer multiply, saturated, visible at i + 2. -/
def execMuli (lane : Nat) (ded : Bool) (d a b : BitVec 4) (s : State) : Host.Outcome State Fault Refusal :=
  .next (issue lane ded (alu2 2 d a b aluMuli) s)

/-- ADDI (R135): wrapping add of a sign-extended immediate. -/
def execAddi (lane : Nat) (ded : Bool) (d a : BitVec 4) (imm : BitVec 20) (s : State) : Host.Outcome State Fault Refusal :=
  .next (issue lane ded (alu1 d a (fun x => aluAdd x (imm.signExtend 36))) s)

/-- ADDSI (R135): saturating add of a sign-extended immediate. -/
def execAddsi (lane : Nat) (ded : Bool) (d a : BitVec 4) (imm : BitVec 20) (s : State) : Host.Outcome State Fault Refusal :=
  .next (issue lane ded (alu1 d a (fun x => aluAdds x (imm.signExtend 36))) s)

/-- ANDI (R135): AND with a zero-extended immediate. -/
def execAndi (lane : Nat) (ded : Bool) (d a : BitVec 4) (imm : BitVec 20) (s : State) : Host.Outcome State Fault Refusal :=
  .next (issue lane ded (alu1 d a (fun x => aluLogic (x &&& imm.zeroExtend 36))) s)

/-- ORI (R135): OR with a zero-extended immediate. -/
def execOri (lane : Nat) (ded : Bool) (d a : BitVec 4) (imm : BitVec 20) (s : State) : Host.Outcome State Fault Refusal :=
  .next (issue lane ded (alu1 d a (fun x => aluLogic (x ||| imm.zeroExtend 36))) s)

/-- XORI (R135): exclusive OR with a zero-extended immediate. -/
def execXori (lane : Nat) (ded : Bool) (d a : BitVec 4) (imm : BitVec 20) (s : State) : Host.Outcome State Fault Refusal :=
  .next (issue lane ded (alu1 d a (fun x => aluLogic (x ^^^ imm.zeroExtend 36))) s)

/-- ASHI (R135): arithmetic shift by an immediate amount. -/
def execAshi (lane : Nat) (ded : Bool) (d a : BitVec 4) (sh : BitVec 7) (s : State) : Host.Outcome State Fault Refusal :=
  .next (issue lane ded (alu1 d a (fun x => aluAsh x sh)) s)

/-- LSHI (R135): logical shift by an immediate amount. -/
def execLshi (lane : Nat) (ded : Bool) (d a : BitVec 4) (sh : BitVec 7) (s : State) : Host.Outcome State Fault Refusal :=
  .next (issue lane ded (alu1 d a (fun x => aluLsh x sh)) s)

/-- CMPI (R135): the flags of Da minus a sign-extended immediate. -/
def execCmpi (lane : Nat) (ded : Bool) (a : BitVec 4) (imm : BitVec 20) (s : State) : Host.Outcome State Fault Refusal :=
  .next (issue lane ded (fun l => { lane := pushRes 1 none (aluSub (rdD l a) (imm.signExtend 36)) l }) s)

/-- LDI (R136): Dd := the sign-extended immediate; flags unchanged. -/
def execLdi (lane : Nat) (ded : Bool) (d : BitVec 4) (imm : BitVec 24) (s : State) : Host.Outcome State Fault Refusal :=
  .next (issue lane ded (fun l => { lane := push 1 (.d d (imm.signExtend 36)) l }) s)

/-- LDIH (R136): Dd[35:24] := the immediate, Dd[23:0] kept; flags unchanged. -/
def execLdih (lane : Nat) (ded : Bool) (d : BitVec 4) (imm : BitVec 12) (s : State) : Host.Outcome State Fault Refusal :=
  .next (issue lane ded (fun l => { lane := push 1 (.d d (imm ++ (rdD l d).truncate 24)) l }) s)

end Sys2Proof.Machine
end

