-- ==== Sys2Proof/Machine/LaneMul.lean ====
section
/-! DEFINITION. Formats M, F and C: multiplies, filter taps and accumulator operations (04 R137, R138, R140). -/

namespace Sys2Proof.Machine

/-- A format M multiply: `f` combines the accumulator operand and the product (R137). -/
def mul (frac : Bool) (ac : BitVec 2) (dx dy : BitVec 4) (x y : Option ParLoad) (f : Int → Int → Int) (l : LaneS) :
    Issued :=
  let p := product80 frac (rdD l dx) (rdD l dy)
  { lane := parLoads x y (pushMac ac (f (macOperand l ac).toInt p) l) }

/-- MPY (R137): ACa := p. -/
def execMpy (lane : Nat) (ded : Bool) (frac : Bool) (ac : BitVec 2) (dx dy : BitVec 4) (x y : Option ParLoad) (s : State) :
    Host.Outcome State Fault Refusal :=
  .next (issue lane ded (mul frac ac dx dy x y fun _ p => p) s)

/-- MAC (R137): ACa := ACa + p. -/
def execMac (lane : Nat) (ded : Bool) (frac : Bool) (ac : BitVec 2) (dx dy : BitVec 4) (x y : Option ParLoad) (s : State) :
    Host.Outcome State Fault Refusal :=
  .next (issue lane ded (mul frac ac dx dy x y fun a p => a + p) s)

/-- MSU (R137): ACa := ACa − p. -/
def execMsu (lane : Nat) (ded : Bool) (frac : Bool) (ac : BitVec 2) (dx dy : BitVec 4) (x y : Option ParLoad) (s : State) :
    Host.Outcome State Fault Refusal :=
  .next (issue lane ded (mul frac ac dx dy x y fun a p => a - p) s)

/-- MPYN (R137): ACa := −p. -/
def execMpyn (lane : Nat) (ded : Bool) (frac : Bool) (ac : BitVec 2) (dx dy : BitVec 4) (x y : Option ParLoad) (s : State) :
    Host.Outcome State Fault Refusal :=
  .next (issue lane ded (mul frac ac dx dy x y fun _ p => -p) s)

/-- PLD (R137): parallel loads without a multiply. -/
def execPld (lane : Nat) (ded : Bool) (x y : Option ParLoad) (s : State) : Host.Outcome State Fault Refusal :=
  .next (issue lane ded (fun l => { lane := parLoads x y l }) s)

/-- The X address that a FIRTAP move writes: one step against the direction of travel (R138). -/
def tapMoveAddr (l : LaneS) (ix : BitVec 3) : Nat := (stepPtr l ix (-(rdDt l ix).toInt) 8192).toNat

/-- A filter tap (R138): `neg` for FIRTAPN. The read and the move share the slot, and the read sees the old word. -/
def tap (neg : Bool) (ac : BitVec 2) (fromP move : Bool) (ix ic : BitVec 3) (l : LaneS) : Issued :=
  let t := laneRd l .x (rdPt l ix).toNat
  let m : LaneMem := if fromP then .p else .y
  let c := laneRd l m (rdPt l ic).toNat
  let p := product80 true t c
  let a := (macOperand l ac).toInt
  let l' := pushMac ac (if neg then a - p else a + p) l
  let l' := push 1 (.pt ix (stepPtr l ix (rdDt l ix).toInt 8192)) l'
  let l' := push 1 (.pt ic (stepPtr l ic (rdDt l ic).toInt (memSize m))) l'
  { lane := if move then laneWrX (tapMoveAddr l ix) t l' else l', cost := if fromP then pCost l else 1 }

/-- FIRTAP (R138); with one pointer for both operands the encoding is reserved (R123). -/
def execFirtap (lane : Nat) (ded : Bool) (ac : BitVec 2) (fromP move : Bool) (ix ic : BitVec 3) (s : State) :
    Host.Outcome State Fault Refusal :=
  .next (issue lane ded (fun l => if ix = ic then noteNop l 10 0x0302 else tap false ac fromP move ix ic l) s)

/-- FIRTAPN (R138). -/
def execFirtapn (lane : Nat) (ded : Bool) (ac : BitVec 2) (fromP move : Bool) (ix ic : BitVec 3) (s : State) :
    Host.Outcome State Fault Refusal :=
  .next (issue lane ded (fun l => if ix = ic then noteNop l 10 0x0302 else tap true ac fromP move ix ic l) s)

/-- An accumulator result of format C, exact before R94 narrows it; never forwarded (R140). -/
def acRes (a : BitVec 2) (x : Int) (l : LaneS) : Issued :=
  let g := guard80 x
  { lane := pushAc a g.1 g.2 l }

/-- CLRA (R140): ACa := 0. -/
def execClra (lane : Nat) (ded : Bool) (a : BitVec 2) (s : State) : Host.Outcome State Fault Refusal :=
  .next (issue lane ded (fun l => { lane := push 2 (.ac a 0) l }) s)

/-- MOVAH (R140): Dd := sat36(rnd(ACa, 36)). -/
def execMovah (lane : Nat) (ded : Bool) (d : BitVec 4) (a : BitVec 2) (s : State) : Host.Outcome State Fault Refusal :=
  .next (issue lane ded (fun l =>
    let h := highField (rdAc l a)
    let l' := push 1 (.d d h.1) l
    { lane := if h.2 then push 1 (.sticky stSat) l' else l' }) s)

/-- MOVAL (R140): Dd := ACa[35:0]. -/
def execMoval (lane : Nat) (ded : Bool) (d : BitVec 4) (a : BitVec 2) (s : State) : Host.Outcome State Fault Refusal :=
  .next (issue lane ded (fun l => { lane := push 1 (.d d ((rdAc l a).truncate 36)) l }) s)

/-- MOVAG (R140): Dd := ACa[79:72], sign-extended. -/
def execMovag (lane : Nat) (ded : Bool) (d : BitVec 4) (a : BitVec 2) (s : State) : Host.Outcome State Fault Refusal :=
  .next (issue lane ded (fun l => { lane := push 1 (.d d ((((rdAc l a) >>> 72).truncate 8).signExtend 36)) l }) s)

/-- LDAH (R140): ACa := Ds × 2^36. -/
def execLdah (lane : Nat) (ded : Bool) (a : BitVec 2) (d : BitVec 4) (s : State) : Host.Outcome State Fault Refusal :=
  .next (issue lane ded (fun l => { lane := push 2 (.ac a ((rdD l d).signExtend 80 <<< 36)) l }) s)

/-- LDAL (R140): ACa[35:0] := Ds, the rest kept. -/
def execLdal (lane : Nat) (ded : Bool) (a : BitVec 2) (d : BitVec 4) (s : State) : Host.Outcome State Fault Refusal :=
  .next (issue lane ded (fun l =>
    { lane := push 2 (.ac a (((rdAc l a >>> 36) <<< 36) ||| (rdD l d).zeroExtend 80)) l }) s)

/-- ADDA (R140): ACa := ACa + ACb. -/
def execAdda (lane : Nat) (ded : Bool) (a b : BitVec 2) (s : State) : Host.Outcome State Fault Refusal :=
  .next (issue lane ded (fun l => acRes a ((rdAc l a).toInt + (rdAc l b).toInt) l) s)

/-- SUBA (R140): ACa := ACa − ACb. -/
def execSuba (lane : Nat) (ded : Bool) (a b : BitVec 2) (s : State) : Host.Outcome State Fault Refusal :=
  .next (issue lane ded (fun l => acRes a ((rdAc l a).toInt - (rdAc l b).toInt) l) s)

/-- CPYA (R140): ACa := ACb. -/
def execCpya (lane : Nat) (ded : Bool) (a b : BitVec 2) (s : State) : Host.Outcome State Fault Refusal :=
  .next (issue lane ded (fun l => { lane := push 2 (.ac a (rdAc l b)) l }) s)

/-- NEGA (R140): ACa := −ACa; −2^79 gives 2^79 − 1. -/
def execNega (lane : Nat) (ded : Bool) (a : BitVec 2) (s : State) : Host.Outcome State Fault Refusal :=
  .next (issue lane ded (fun l => acRes a (-(rdAc l a).toInt) l) s)

/-- ASHA (R140): left exact and saturating, right rounded half to even. -/
def execAsha (lane : Nat) (ded : Bool) (a : BitVec 2) (sh : BitVec 7) (s : State) : Host.Outcome State Fault Refusal :=
  .next (issue lane ded (fun l =>
    let v := (rdAc l a).toInt
    acRes a (if 0 ≤ sh.toInt then v * 2 ^ sh.toInt.toNat else roundEven v (2 ^ (-sh.toInt).toNat)) l) s)

/-- TSTA (R140, R128): N and Z of the 80-bit value, V and C cleared. -/
def execTsta (lane : Nat) (ded : Bool) (a : BitVec 2) (s : State) : Host.Outcome State Fault Refusal :=
  .next (issue lane ded (fun l =>
    { lane := push 1 (.flags 0b1111 (nzvc (rdAc l a).msb (rdAc l a == 0) false false)) l }) s)

end Sys2Proof.Machine
end

