-- ==== Sys2Proof/Machine/Regs.lean ====
section
/-! DEFINITION. The register space (00 R9 to R11, 11 R350): reads, writes by access code, and the SPI target
(11 R351, R352). -/

namespace Sys2Proof.Machine

/-! ### Status registers that no other file gives -/

/-- WAVE_STATUS (01 R36). -/
def waveStatus (s : State) : BitVec 32 :=
  BitVec.ofNat 32 ((if s.wave.running then s.wave.minSlack.toNat else 0) * 2 ^ 16 + b2n s.wave.counterValid * 2 ^ 7
    + b2n s.wave.settled * 2 ^ 6 + rateCode s * 2 ^ 4 + b2n s.wave.running * 2 ^ 3)

/-- XP_STATUS (02 R67). -/
def xpStatus (s : State) : BitVec 32 :=
  BitVec.ofNat 32 (s.xp.active.toNat * 2 ^ 16 + b2n s.xp.alleyLoss * 2 ^ 7 + b2n s.xp.queueRefused * 2 ^ 6
    + b2n (s.xp.sat != []) * 2 ^ 5 + b2n (s.xp.queue.any (·.held)) * 2 ^ 4)

/-- DRV_STATUS (07 R251). -/
def drvStatus (s : State) : BitVec 32 :=
  let any (f : ChanS → Bool) : Bool := (List.range 128).any fun c => f (chanAt s c)
  BitVec.ofNat 32 (b2n s.drv.frames * 2 ^ 7 + b2n (any (·.trip)) * 2 ^ 6 + b2n (any fun q => q.short != .none) * 2 ^ 5
    + b2n (any (·.open_)) * 2 ^ 4 + b2n s.drv.ctlTo * 2 ^ 3 + b2n s.drv.linkLoss * 2 ^ 2 + b2n s.drv.shortEv * 2
    + b2n s.drv.thermEv)

/-- DRV_LINK_UP (07 R251). -/
def drvLinkUp (s : State) : BitVec 32 := BitVec.ofNat 32 (maskOf 32 fun l => (linkAt s l).up)

/-- DRV_ACCEPTED (07 R251): CLAIM_SEEN of the last accepted STAGE byte of each link that is up. -/
def drvAccepted (s : State) : BitVec 32 :=
  BitVec.ofNat 32 (maskOf 32 fun l => (linkAt s l).up && (linkAt s l).stage.getLsbD 3)

/-- MATRIX_STATUS (12 R402). -/
def matrixStatus (s : State) : BitVec 32 :=
  BitVec.ofNat 32 (b2n s.mat.remap * 2 ^ 15 + b2n s.sm.debug * 2 ^ 14 + b2n s.mat.spares * 2 ^ 8 + b2n s.mat.mReset * 2 ^ 7
    + b2n s.mat.gateRef * 2 ^ 6 + b2n s.mat.dataErr * 2 ^ 5 + b2n s.mat.decErr * 2 ^ 4)

/-- MATRIX_ERR_INFO (12 R402). -/
def matrixErrInfo (s : State) : BitVec 32 :=
  BitVec.ofNat 32 (b2n s.mat.errValid * 2 ^ 31 + s.mat.errMaster.toNat * 2 ^ 24 + s.mat.errId.toNat * 2 ^ 16
    + s.mat.errResp.toNat * 2 ^ 14 + b2n s.mat.errWrite * 2 ^ 13)

/-- The hottest quarter (12 R394, R402). -/
def hotQuarter (s : State) : Nat :=
  (List.range 4).foldl (fun b q => if tget 0 s.mat.tj b < tget 0 s.mat.tj q then q else b) 0

/-- MEM_STATUS (12 R402). -/
def memStatus (s : State) : BitVec 32 :=
  BitVec.ofNat 32 (s.mat.ddrState * 2 ^ 29 + s.mat.ddrCap * 2 ^ 25 + s.mat.ddrRate * 2 ^ 22
    + unsgn 8 (tget 0 s.mat.tj (hotQuarter s)) * 2 ^ 8 + tget 0 s.mat.refresh (hotQuarter s))

/-- FW_STATE (11 R353). -/
def fwStateReg (s : State) : BitVec 32 := BitVec.ofNat 32 (s.host.bootErr * 2 ^ 8 + s.host.bootSrc * 2 ^ 4 + s.host.fwState)

/-- KIOSK_STATUS (11 R356). -/
def kioskStatus (s : State) (k : Nat) : BitVec 32 :=
  let q := tget {} s.host.kiosks k
  BitVec.ofNat 32 (q.tagDone.toNat * 2 ^ 16 + b2n q.dbErr * 2 ^ 7 + q.st.toNat)

/-- A word of a Kiosk's buffer. -/
def bufWord (t : Tab Byte) (o : Nat) : BitVec 32 := BitVec.ofNat 32 (leNat ((List.range 4).map fun i => tget 0 t (o + i)))

/-! ### Reads -/

/-- Kiosk blocks (11 R356). -/
def kioskGet (s : State) (k o : Nat) : Option (BitVec 32) :=
  let q := tget {} s.host.kiosks k
  if o = 0 then some (kioskStatus s k)
  else if o = 4 then some 0
  else if o = 8 then some (BitVec.ofNat 32 (b2n q.irqEn))
  else if 0x100 ≤ o ∧ o < 0x200 then some (bufWord q.reqBuf (o - 0x100))
  else if 0x200 ≤ o ∧ o < 0x300 then some (bufWord q.respBuf (o - 0x200))
  else none

/-- Data Port channels (11 R371). -/
def dpGet (q : DpS) (o : Nat) : Option (BitVec 32) :=
  match o with
  | 0x00 => some (dpCtrl q)
  | 0x04 => some q.addr
  | 0x08 => some (q.stride.zeroExtend 32)
  | 0x0C => some (dpStatus q)
  | 0x10 => some q.fail
  | 0x14 => some q.words
  | _ => none

/-- Registers below 0x200000: identity, firmware, interrupts, event log. -/
def sysGet (s : State) (o : Nat) : Option (BitVec 32) :=
  match o - 0x100000 with
  | 0x00 => some (BitVec.ofNat 32 (0x1840B000 + s.sm.order.toNat))
  | 0x04 => some (s.sm.uid.truncate 32)
  | 0x08 => some ((s.sm.uid >>> 32).truncate 32)
  | 0x0C => some (fwStateReg s)
  | 0x10 => some 0
  | 0x14 => some (if s.host.fwState = 5 ∨ s.host.fwState = 7 then s.host.fwVer else 0)
  | 0x18 => some s.host.beat
  | 0x20 => some s.host.irq
  | 0x24 => some s.host.irqMask
  | 0x28 => some s.host.irqHi
  | 0x2C => some s.host.irqMaskHi
  | 0x30 => some s.host.head
  | 0x34 => some s.host.mark
  | 0x38 => some s.host.lost
  | _ => none

/-- Registers from 0x200000 on, but for rings and ports. -/
def subGet (s : State) (o : Nat) : Option (BitVec 32) :=
  match o with
  | 0x200000 => some (waveStatus s)
  | 0x200008 => some (s.wave.count.truncate 32)
  | 0x20000C => some s.wave.shadowHi
  | 0x200010 => some s.wave.missCount
  | 0x210000 => some (xpStatus s)
  | 0x210004 => some (BitVec.ofNat 32 (priBrokenMask s.xp * 2 ^ 8 + priAsserted s.xp))
  | 0x210008 => some s.xp.timeouts
  | 0x220000 => some (BitVec.ofNat 32 (placeStatus s))
  | 0x220004 => some s.place.moveCount
  | 0x230000 => some (drvStatus s)
  | 0x230004 => some (drvLinkUp s)
  | 0x230008 => some (drvAccepted s)
  | 0x23000C => some (aclLinks s)
  | 0x260000 => some (lioStatus s)
  | 0x260004 => some (lioPresent s)
  | 0x270000 => some (twinStatus s)
  | 0x270004 => some s.twin.mismatches
  | 0x280000 => some (matrixStatus s)
  | 0x280004 => some (s.mat.errAddr.truncate 32)
  | 0x280008 => some ((s.mat.errAddr >>> 32).truncate 32)
  | 0x28000C => some (matrixErrInfo s)
  | 0x280010 => some (s.mat.obBase.truncate 32)
  | 0x280014 => some ((s.mat.obBase >>> 32).truncate 32)
  | 0x280018 => some s.mat.ce
  | 0x28001C => some s.mat.ue
  | 0x280020 => some (memStatus s)
  | 0x290000 => some (clkStatus s)
  | 0x290004 => some (resetCause s)
  | 0x290008 => some (clkGates s)
  | 0x29000C => some s.clk.measCnt
  | 0x2A0000 => some (fltStatus s)
  | 0x2A0004 => some (fltNfault s)
  | 0x2A0008 => some s.flt.severes
  | 0x2A000C => some s.flt.degrades
  | 0x2B0000 => some (smStatus s)
  | _ =>
    if 0x2A0020 ≤ o ∧ o < 0x2A0040 then some (BitVec.ofNat 32 (fld (fltFatalRec s) (o - 0x2A0020) 4)) else none

/-- The ring block that an offset lies in. -/
def ringOff (o : Nat) : Option (Nat × Nat) :=
  if 0x240000 ≤ o ∧ o < 0x242200 ∧ (o - 0x240000) % 0x40 < 0x1C then some ((o - 0x240000) / 0x40, (o - 0x240000) % 0x40) else none

/-- The port whose status register an offset names. -/
def portOff (o : Nat) : Option Nat :=
  if 0x250000 ≤ o ∧ o < 0x250500 ∧ (o - 0x250000) % 0x100 = 0 then some ((o - 0x250000) / 0x100) else none

/-- What a read of an aligned register returns; none: the offset is undecoded (11 R350). -/
def regGet (s : State) (o : Nat) : Option (BitVec 32) :=
  if o < 0x20000 then kioskGet s (o / 0x1000) (o % 0x1000)
  else if o < 0x110000 then sysGet s o
  else if o < 0x110100 then dpGet (dpAt s ((o - 0x110000) / 0x40)) ((o - 0x110000) % 0x40)
  else
    match ringOff o with
    | some (g, r) => some (ringRead g r s).2
    | none =>
      match portOff o with
      | some p => some (portStatus s p)
      | none => subGet s o

/-- What a read changes: an RC field is cleared (00 R9), and SAMPLE_COUNT_LO captures the upper half (01 R36). -/
def regSeen (o : Nat) (s : State) : State :=
  match o with
  | 0x100038 => s.onHost fun h => { h with lost := 0 }
  | 0x200008 => s.onWave fun w => { w with shadowHi := (w.count >>> 32).truncate 32 }
  | 0x200010 => s.onWave fun w => { w with missCount := 0 }
  | 0x210008 => s.onXp fun x => { x with timeouts := 0 }
  | 0x220004 => s.onPlace fun p => { p with moveCount := 0 }
  | 0x270004 => s.onTwin fun t => { t with mismatches := 0 }
  | 0x280018 => s.onMat fun m => { m with ce := 0 }
  | 0x28001C => s.onMat fun m => { m with ue := 0 }
  | 0x2A0008 => s.onFlt fun f => { f with severes := 0 }
  | 0x2A000C => s.onFlt fun f => { f with degrades := 0 }
  | _ =>
    if 0x110000 ≤ o ∧ o < 0x110100 ∧ (o - 0x110000) % 0x40 = 0x14 then onDp ((o - 0x110000) / 0x40) (fun q => { q with words := 0 }) s
    else
      match ringOff o with
      | some (g, r) => (ringRead g r s).1
      | none => s

/-! ### Writes -/

/-- Bits of a sticky field that a write of ones clears. -/
def w1c (f : Bool) (v : BitVec 32) (i : Nat) : Bool := f && !v.getLsbD i

/-- A write to a register of a Kiosk block. -/
def kioskPut (k o : Nat) (v : BitVec 32) (s : State) : State :=
  if o = 0 then onKiosk k (fun q => { q with dbErr := w1c q.dbErr v 7 }) s
  else if o = 4 then (if v.getLsbD 0 then doorbell k s else s)
  else if o = 8 then onKiosk k (fun q => { q with irqEn := v.getLsbD 0 }) s
  else s

/-- A write to a register of a Data Port channel. -/
def dpPut (c o : Nat) (v : BitVec 32) (s : State) : State :=
  match o with
  | 0x00 => if v.getLsbD 0 then dpEnd c s else s
  | 0x04 => dpSetAddr c v s
  | 0x08 => onDp c (fun q => { q with stride := v.truncate 24 }) s
  | 0x0C => onDp c (fun q => { q with error := w1c q.error v 0 }) s
  | _ => s

/-- A write of FLT_NFAULT. -/
def nfaultWrite (v : BitVec 32) (s : State) : State :=
  match execFltNfaultWrite v s with
  | .next t => t
  | _ => s

/-- A write below 0x200000. -/
def sysPut (o : Nat) (v : BitVec 32) (s : State) : State :=
  match o - 0x100000 with
  | 0x10 => fwLoad v s
  | 0x20 => s.onHost fun h => { h with irq := h.irq &&& ~~~ v }
  | 0x24 => s.onHost fun h => { h with irqMask := v &&& 0x03FFFFFF }
  | 0x28 => s.onHost fun h => { h with irqHi := h.irqHi &&& ~~~ v }
  | 0x2C => s.onHost fun h => { h with irqMaskHi := v &&& 0xFFF }
  | 0x34 => s.onHost fun h => { h with mark := v }
  | _ => s

/-- A write from 0x200000 on, but for rings and ports. -/
def subPut (o : Nat) (v : BitVec 32) (s : State) : State :=
  match o with
  | 0x210000 => s.onXp fun x => { x with
      alleyLoss := w1c x.alleyLoss v 7
      queueRefused := w1c x.queueRefused v 6 }
  | 0x220000 => s.onPlace fun p => { p with
      pinBroken := w1c p.pinBroken v 3
      urgent := w1c p.urgent v 2
      retired := w1c p.retired v 1
      audLoss := w1c p.audLoss v 0 }
  | 0x230000 => s.onDrv fun d => { d with
      ctlTo := w1c d.ctlTo v 3
      linkLoss := w1c d.linkLoss v 2
      shortEv := w1c d.shortEv v 1
      thermEv := w1c d.thermEv v 0 }
  | 0x260000 => s.onLio fun l => { l with sticky := l.sticky &&& ~~~ (v.truncate 6) }
  | 0x270000 => s.onTwin fun t => { t with
      split := w1c t.split v 2
      mismatch := w1c t.mismatch v 1
      octLoss := w1c t.octLoss v 0 }
  | 0x280000 => s.onMat fun m => { m with
      spares := w1c m.spares v 8
      mReset := w1c m.mReset v 7
      gateRef := w1c m.gateRef v 6
      dataErr := w1c m.dataErr v 5
      decErr := w1c m.decErr v 4 }
  | 0x28000C => s.onMat fun m => { m with errValid := w1c m.errValid v 31 }
  | 0x280010 => s.onMat fun m => { m with
      obBase := (m.obBase &&& 0xFFFFFFFF00000000) ||| ((v &&& 0xFFFFF000).zeroExtend 64) }
  | 0x280014 => s.onMat fun m => { m with obBase := (m.obBase &&& 0x00000000FFFFFFFF) ||| (v.zeroExtend 64 <<< 32) }
  | 0x290000 => s.onClk fun c => { c with monTrip := c.monTrip &&& ~~~ ((v >>> 16).truncate 6) }
  | 0x290004 => s.onClk fun c => { c with causes := c.causes &&& ~~~ (v.truncate 9) }
  | 0x290008 => s.onClk fun c => { c with gateRef := w1c c.gateRef v 16 }
  | 0x2A0000 => s.onFlt fun f => { f with sticky := f.sticky &&& ~~~ (v.truncate 5) }
  | 0x2A0004 => nfaultWrite v s
  | 0x2B0000 => smStatusWrite v s
  | _ => s

/-- A whole-word write to an aligned offset, by the access codes of the register's fields (00 R9); `fw` says that the
firmware writes, whose rings are its own. -/
def regPut (fw : Bool) (o : Nat) (v : BitVec 32) (s : State) : State :=
  if o < 0x20000 then kioskPut (o / 0x1000) (o % 0x1000) v s
  else if o < 0x110000 then sysPut o v s
  else if o < 0x110100 then dpPut ((o - 0x110000) / 0x40) ((o - 0x110000) % 0x40) v s
  else
    match ringOff o with
    | some (g, r) => ringWrite fw g r v s
    | none =>
      match portOff o with
      | some p => onPort p (fun q => { q with sticky := q.sticky &&& ~~~ (v.truncate 8) }) s
      | none => subPut o v s

/-! ### Accesses (R350) -/

/-- The byte is one of a Kiosk's request buffer: the Kiosk and the place. -/
def reqByteOff (o : Nat) : Option (Nat × Nat) :=
  if o < 0x20000 ∧ 0x100 ≤ o % 0x1000 ∧ o % 0x1000 < 0x200 then some (o / 0x1000, o % 0x1000 - 0x100) else none

/-- Bytes of a request buffer, which takes single bytes. -/
def reqPut (o : Nat) (d : List (Option Byte)) (s : State) : State :=
  (List.range d.length).foldl (fun s i =>
    match reqByteOff (o + i), d.getD i none with
    | some (k, j), some b => onKiosk k (fun q => { q with reqBuf := tput 0 q.reqBuf j b }) s
    | _, _ => s) s

/-- The four bytes of a word, when all are written. -/
def wholeWord (d : List (Option Byte)) : Option (BitVec 32) :=
  match d with
  | [some a, some b, some c, some e] => some (e ++ c ++ b ++ a)
  | _ => none

/-- A write of up to four bytes of the aligned word at `o`: whether the offset is decoded, and the state. -/
def wordWrite (fw : Bool) (o : Nat) (d : List (Option Byte)) (s : State) : Bool × State :=
  if (reqByteOff o).isSome then (true, reqPut o d s)
  else
    match regGet s o with
    | none => (false, s)
    | some _ =>
      match wholeWord d with
      | some v => (true, regPut fw o v s)
      | none => (true, s)

/-- A read of the aligned word at `o`: its bytes, whether the offset is decoded, and the state. -/
def wordRead (o : Nat) (s : State) : List Byte × Bool × State :=
  match regGet s o with
  | some v => (le 4 v.toNat, true, regSeen o s)
  | none => (zeros 4, false, s)

/-- Address of BAR0 in the matrix (12 R379). -/
def regBase : Nat := 0x20000000

/-- The host writes: an undecoded offset is discarded, and recorded by the matrix (R350). -/
def hostWrite (o : Nat) (d : List (Option Byte)) (s : State) : State :=
  let r := wordWrite false o d s
  if r.1 then r.2 else busErr 2 false (regBase + o) true 0 r.2

/-- The host reads: an undecoded offset returns zeros, and is recorded by the matrix. -/
def hostRead (o : Nat) (s : State) : List Byte × State :=
  let r := wordRead o s
  (r.1, if r.2.1 then r.2.2 else busErr 2 false (regBase + o) false 0 r.2.2)

/-- What the host has read. -/
def readOut (r : List Byte × State) : State := r.2.onHost fun h => { h with rdata := r.1 }

/-- REGISTER_WRITE (00 R9): bytes of one aligned word of BAR0, in the order of their addresses; none: not written. -/
def execRegisterWrite (offset : BitVec 24) (data : List (Option Byte)) (s : State) : Host.Outcome State Fault Refusal :=
  if hostUp s then .next (hostWrite (offset.toNat / 4 * 4) (data.take 4) s) else .next s

/-- READ_CLEAR_REGISTER (00 R9, R11): a read of one aligned word of BAR0. -/
def execReadClearRegister (offset : BitVec 24) (s : State) : Host.Outcome State Fault Refusal :=
  if hostUp s then .next (readOut (hostRead (offset.toNat / 4 * 4) s)) else .next s

/-- SAMPLE_COUNT_READ (01 R36). -/
def execSampleCountRead (s : State) : Host.Outcome State Fault Refusal :=
  if hostUp s then .next (readOut (hostRead 0x200008 s)) else .next s

/-- LOG_MARK_WRITE (11 R363). -/
def execLogMarkWrite (value : BitVec 32) (s : State) : Host.Outcome State Fault Refusal :=
  if hostUp s then .next (s.onHost fun h => { h with mark := value }) else .next s

/-! ### The SPI target (R351, R352) -/

/-- The address of a transaction names BAR2. -/
def spiBar2 (a : BitVec 32) : Bool := a.getLsbD 31

/-- The offset of a transaction. -/
def spiOff (a : BitVec 32) : Nat := a.toNat % 2 ^ 26

/-- Bytes that a transaction moves before it is cut: 4,096, and to the next 4 KB boundary of BAR2. -/
def spiLen (a : BitVec 32) (n : Nat) : Nat := if spiBar2 a then min n (4096 - spiOff a % 4096) else min n 4096

/-- The address is well formed: bits 30 to 26 are 0. -/
def spiGood (a : BitVec 32) : Bool := bitsOf a.toNat 30 26 == 0

/-- A write to BAR2: a Data Port window, or the staging window (R354, R355). -/
def bar2Write (o : Nat) (d : List (Option Byte)) (s : State) : State :=
  if s.host.fwState = 5 then dpWrite (o / 2 ^ 24) (o % 2 ^ 24) d s else stagingWrite o d s

/-- A read of BAR2; the staging window reads 0 (R354). -/
def bar2Read (o n : Nat) (s : State) : List Byte × State := dpRead (o / 2 ^ 24) (o % 2 ^ 24) n none s

/-- The bytes of a BAR0 transaction that fall in the word at `w`. -/
def wordPart (o : Nat) (d : List Byte) (w : Nat) : List (Option Byte) :=
  (List.range 4).map fun i => if o ≤ w + i ∧ w + i < o + d.length then d[w + i - o]? else none

/-- Offsets of the aligned words that `n` bytes from `o` on touch. -/
def wordsOf (o n : Nat) : List Nat := (touched o n 4).map (4 * ·)

/-- The ERR bit of the status byte: the last transaction was cut short. -/
def spiDone (cut : Bool) (s : State) : State := s.onHost fun h => { h with spiErr := cut }

/-- SPI_WRITE (R351, R352). -/
def execSpiWrite (addr : BitVec 32) (data : List Byte) (_ : Computed) (s : State) :
    Host.Outcome State Fault Refusal :=
  if hostUp s && spiGood addr && data != [] then
    let d := data.take (spiLen addr data.length)
    let o := spiOff addr
    let s := spiDone (decide (d.length < data.length)) s
    if spiBar2 addr then .next (bar2Write o (d.map some) s)
    else .next ((wordsOf o d.length).foldl (fun s w => hostWrite w (wordPart o d w) s) s)
  else .next s

/-- SPI_READ (R351, R352): `length` bytes are clocked out, 0 after a cut. -/
def execSpiRead (addr : BitVec 32) (length : Nat) (s : State) : Host.Outcome State Fault Refusal :=
  if hostUp s && spiGood addr && length != 0 then
    let n := spiLen addr length
    let o := spiOff addr
    let s := spiDone (decide (n < length)) s
    let r := if spiBar2 addr then bar2Read o n s
      else
        let q := (wordsOf o n).foldl (fun (p : List Byte × State) w =>
          let r := hostRead w p.2
          (p.1 ++ r.1, r.2)) ([], s)
        ((q.1.drop (o % 4)).take n, q.2)
    .next (readOut (sized length r.1, r.2))
  else .next s

/-- SPI_STATUS (R351): READY, IRQ, ERR. -/
def execSpiStatus (s : State) : Host.Outcome State Fault Refusal :=
  if hostUp s then
    .next (readOut (le 1 (b2n (s.host.fwState == 5) + 2 * b2n (hostIrq s) + 4 * b2n s.host.spiErr), s))
  else .next s

end Sys2Proof.Machine
end

