-- ==== Sys2Proof/Machine/Matrix.lean ====
section
/-! DEFINITION. Transactions of the bus matrix (12 R378 to R388). -/

namespace Sys2Proof.Machine

/-! ### The address map (R378, R379, R381, R382) -/

/-- The targets of the matrix. -/
inductive Target where
  /-- Boot ROM. -/
  | rom
  /-- Working SRAM. -/
  | sram
  /-- Register space. -/
  | reg
  /-- Nolut control registers. -/
  | priv
  /-- Security Module mailbox. -/
  | smb
  /-- Debug access registers. -/
  | dbg
  /-- Data Port windows. -/
  | dpw
  /-- Fabric gateway. -/
  | fabric
  /-- LPDDR5. -/
  | ddr
  /-- PCIe outbound window. -/
  | ob
  /-- The default target. -/
  | none_
deriving DecidableEq, Repr

/-- Every target, in the order in which the model looks at them. -/
def targets : List Target := [.rom, .sram, .reg, .priv, .smb, .dbg, .dpw, .fabric, .ddr, .ob, .none_]

/-- Number of a target in the list. -/
def targetNo (t : Target) : Nat := targets.findIdx (· == t)

/-- The fixed map. LPDDR5 beyond its usable part, or whose gate is closed, is undecoded (R389, R398). -/
def mapTarget (s : State) (a : Nat) : Target :=
  if a < 0x40000 then .rom
  else if 0x10000000 ≤ a ∧ a < 0x10400000 then .sram
  else if 0x20000000 ≤ a ∧ a < 0x21000000 then .reg
  else if 0x21000000 ≤ a ∧ a < 0x22000000 then .priv
  else if 0x22000000 ≤ a ∧ a < 0x22010000 then .smb
  else if 0x23000000 ≤ a ∧ a < 0x23100000 then .dbg
  else if 0x40000000 ≤ a ∧ a < 0x44000000 then .dpw
  else if 0x100000000 ≤ a ∧ a < 0x200000000 then .fabric
  else if inDdr s a 1 then .ddr
  else if 0x8000000000 ≤ a ∧ a < 0x10000000000 then .ob
  else .none_

/-- The instruction view of master 0 (R382): where the fixed map has what it reads, none where it is undecoded. -/
def instView (s : State) (a : Nat) : Option Nat :=
  if s.mat.remap then
    if a < 0x400000 then some (0x10000000 + a)
    else if 0x10000000 ≤ a ∧ a < 0x10040000 then some (a - 0x10000000)
    else none
  else if a < 0x40000 ∨ (0x10000000 ≤ a ∧ a < 0x10400000) then some a
  else none

/-- What a master is permitted (R378). -/
def permitted (s : State) (m : Nat) (t : Target) : Bool :=
  match m with
  | 0 => t == .rom || t == .sram
  | 1 => t != .dbg && t != .none_
  | 2 => t == .reg || t == .dpw
  | 3 => t == .sram || t == .fabric || t == .ddr
  | 4 => t == .sram || t == .ddr || t == .ob
  | 5 => t == .sram || t == .fabric || t == .ddr
  | 6 => t == .rom || t == .sram || t == .smb || t == .ddr
  | _ => s.sm.debug && t != .smb && t != .none_

/-- Target and address of what a master sees at an address; the default target where it sees nothing. -/
def seenAt (s : State) (m a : Nat) : Target × Nat :=
  match (if m = 0 then instView s a else some a) with
  | some b => let t := mapTarget s b; if permitted s m t then (t, b) else (.none_, b)
  | none => (.none_, a)

/-! ### Transactions (R384) -/

/-- Bytes of a beat. -/
def beatLen (tx : BusTx) : Nat := 2 ^ tx.size.val

/-- A transaction of one of the forms of R384. -/
def txOk (tx : BusTx) : Bool :=
  let a := tx.addr.toNat
  let n := beatLen tx
  if tx.wrap then
    (tx.beats == 2 || tx.beats == 4 || tx.beats == 8 || tx.beats == 16) && n == 16 && a % (16 * tx.beats) == 0
  else decide (1 ≤ tx.beats ∧ tx.beats ≤ 16 ∧ a % n = 0) && (tx.beats == 1 || n == 16)

/-- A burst crosses a 4 KB boundary. -/
def crosses4k (tx : BusTx) : Bool := decide (4096 < tx.addr.toNat % 4096 + beatLen tx * tx.beats)

/-- Address of a beat. -/
def beatAddr (tx : BusTx) (i : Nat) : Nat := tx.addr.toNat + i * beatLen tx

/-- Bytes that a beat writes. -/
def beatData (tx : BusTx) (i : Nat) : List (Option Byte) :=
  (List.range (beatLen tx)).map fun j => tx.data.getD (i * beatLen tx + j) none

/-! ### One beat -/

/-- Bytes written to memory, with the library's entries that they touch losing VERIFIED (15 R477). -/
def memBytes (a : Nat) (d : List (Option Byte)) (s : State) : State :=
  (List.range d.length).foldl (fun s j =>
    match d.getD j none with
    | some b =>
      if inLib s (a + j) 1 then byteWords 4 [(a + j - libBase s, [b])] s
      else s.onMat fun m => { m with mem := memPut m.mem (dmaKey s (a + j)) b }
    | none => s) s

/-- LPDDR5 lets the master write the library: the module, and a Data Port channel opened inside a session (15 R477). -/
def libMaster (s : State) (tx : BusTx) : Bool := tx.master == 6 || (tx.master == 3 && (dpAt s tx.chan).open_ && (dpAt s tx.chan).session)

/-- The parts of a beat that fall in aligned 32-bit words. -/
def beatWords (a n : Nat) : List Nat := (touched a n 4).map (4 * ·)

/-- A beat on the register space; `o` is its offset. -/
def regBeat (tx : BusTx) (o : Nat) (d : List (Option Byte)) (s : State) : Nat × List Byte × State :=
  let n := beatLen tx
  let r := (beatWords o n).foldl (fun (p : Bool × List Byte × State) w =>
    if tx.write_ then
      let part := (List.range 4).map fun i => if o ≤ w + i ∧ w + i < o + n then d.getD (w + i - o) none else none
      let q := wordWrite (tx.master == 1) w part p.2.2
      (p.1 && q.1, p.2.1, q.2)
    else
      let q := wordRead w p.2.2
      (p.1 && q.2.1, p.2.1 ++ q.1, q.2.2)) (true, [], s)
  (if r.1 then 0 else 1, if tx.write_ then [] else (r.2.1.drop (o % 4)).take n, r.2.2)

/-- A beat on memory: what it answers, and what it reads. -/
def memBeat (tx : BusTx) (t : Target) (a : Nat) (d : List (Option Byte)) (s : State) : Nat × List Byte × State :=
  if tx.write_ then
    if t == .rom then (1, [], s)
    else if t == .ddr && inLib s a (beatLen tx) && !libMaster s tx then (1, [], libRefused s)
    else (0, [], memBytes a d s)
  else if tx.ded then (2, zeros (beatLen tx), s.onMat fun m => { m with ue := satAdd m.ue 1 })
  else (0, memRead s.mat.mem a (beatLen tx), s)

/-- A beat on the PCIe outbound window (R380): writes are posted; a read returns its completion's data. -/
def obBeat (tx : BusTx) (i a : Nat) (d : List (Option Byte)) (s : State) : Nat × List Byte × State :=
  if !s.mat.pcie then (1, zeros (if tx.write_ then 0 else beatLen tx), s)
  else if tx.write_ then (0, [], memBytes a d s)
  else
    match tx.host with
    | some b => (0, sized (beatLen tx) (b.drop (i * beatLen tx)), s)
    | none => (1, zeros (beatLen tx), s)

/-- A beat on SYS_REMAP, the one private register that the spec gives (R382). -/
def remapBeat (tx : BusTx) (d : List (Option Byte)) (s : State) : Nat × List Byte × State :=
  if tx.write_ then
    match d.getD 0 none with
    | some b => (0, [], s.onMat fun m => { m with remap := b.getLsbD 0 })
    | none => (0, [], s)
  else (0, sized (beatLen tx) (le 1 (b2n s.mat.remap)), s)

/-- The answer of a beat: 0 OKAY, 1 DECODE_ERROR, 2 DATA_ERROR; the data read; the state. -/
def beatDo (tx : BusTx) (i : Nat) (s : State) : Nat × List Byte × State :=
  let a := beatAddr tx i
  let d := beatData tx i
  let bad : Nat × List Byte × State := (1, zeros (if tx.write_ then 0 else beatLen tx), s)
  if crosses4k tx then bad
  else
    match seenAt s tx.master.val a with
    | (.rom, b) => memBeat tx .rom b d s
    | (.sram, b) => memBeat tx .sram b d s
    | (.ddr, b) => memBeat tx .ddr b d s
    | (.ob, b) => obBeat tx i b d s
    | (.reg, b) => regBeat tx (b - regBase) d s
    | (.dpw, b) =>
      let o := b - 0x40000000
      if tx.write_ then (0, [], bar2Write o d s)
      else
        let r := bar2Read o (beatLen tx) s
        (0, r.1, r.2)
    | (.priv, b) => if b = 0x21000000 then remapBeat tx d s else bad
    | _ => bad

/-! ### Reactions to an error response (R387) -/

/-- Kiosks of the plan operation in progress: a load that is being staged. -/
def planOpFails (s : State) : State :=
  match s.plan.staged with
  | some q => if q.effect.isNone then answerFail q.kiosk { status := 0x0020 } (s.onPlan fun p => { p with staged := none }) else s
  | none => s

/-- What a master does with an error response. The firmware's own loss on DECODE_ERROR is the status of the command in
progress; a PCIe read completes poisoned or as zeros; the debugger is told. -/
def reaction (tx : BusTx) (t : Target) (data : Bool) (a : Nat) (s : State) : State :=
  let d := BitVec.ofNat 64 (a % 2 ^ 40)
  match tx.master.val with
  | 0 => raise (if data then 0x100A else 0x1009) 0 d s
  | 1 => if data && t == .sram then raise 0x100A 0 d s else s
  | 3 => dpFail tx.chan 0x0004 (dpAt s tx.chan).addr.toNat s
  | 4 => onRing tx.chan (fun r => { r with stuck := true }) s
  | 5 => planOpFails s
  | 6 => smFail (raise 0x1007 0 d s)
  | _ => s

/-- A beat with its error recorded (R387). -/
def beatStep (tx : BusTx) (p : List Nat × List Byte × State) (i : Nat) : List Nat × List Byte × State :=
  let r := beatDo tx i p.2.2
  let s := if r.1 = 0 then r.2.2 else busErr tx.master.val (r.1 == 2) (beatAddr tx i) tx.write_ tx.id r.2.2
  (p.1 ++ [r.1], p.2.1 ++ r.2.1, s)

/-- Beats `k` to `n - 1` of a transaction. -/
def beatsFrom (tx : BusTx) (k n : Nat) (s : State) : List Nat × List Byte × State :=
  ((List.range (n - k)).map (· + k)).foldl (beatStep tx) ([], [], s)

/-- The master reacts once to a transaction with an error response. -/
def reactOnce (tx : BusTx) (k : Nat) (resps : List Nat) (s : State) : State :=
  match (List.range resps.length).find? fun i => resps.getD i 0 != 0 with
  | some i =>
    let a := beatAddr tx (k + i)
    reaction tx (seenAt s tx.master.val a).1 (resps.getD i 0 == 2) a s
  | none => s

end Sys2Proof.Machine

namespace Sys2Proof

/-- The domain that a write of the debug access registers, address and bytes, releases early (13 R426): the spec does not give
those registers. Log entry 167. -/
opaque Config.forcedRelease : Nat → List (Option Byte) → Option Nat

/-- What blocks hold that were released early: undefined (13 R426). Log entry 167. -/
opaque Config.undefinedHost : Nat → Machine.HostS

/-- See `Config.undefinedHost`. -/
opaque Config.undefinedSm : Nat → Machine.SmS

/-- See `Config.undefinedHost`. -/
opaque Config.undefinedWave : Nat → Machine.WaveS

/-- See `Config.undefinedHost`. -/
opaque Config.undefinedSig : Nat → Machine.SigS

/-- See `Config.undefinedHost`. -/
opaque Config.undefinedDrv : Nat → Machine.DrvS

/-- See `Config.undefinedHost`. -/
opaque Config.undefinedLio : Nat → Machine.LioS

/-- See `Config.undefinedHost`. -/
opaque Config.undefinedNet : Nat → Machine.NetS

/-- See `Config.undefinedHost`. -/
opaque Config.undefinedTwin : Nat → Machine.TwinS

/-- See `Config.undefinedHost`. -/
opaque Config.undefinedXp : Nat → Machine.XpS

/-- See `Config.undefinedHost`. -/
opaque Config.undefinedLanes : Nat → Tab Machine.LaneS

/-- See `Config.undefinedHost`. -/
opaque Config.undefinedPlace : Nat → Machine.PlaceS

end Sys2Proof

namespace Sys2Proof.Machine

/-! ### Arbitration and order (R385, R386, R388, R389) -/

/-- The target of a transaction's first beat. -/
def txTarget (s : State) (tx : BusTx) : Nat := targetNo (seenAt s tx.master.val tx.addr.toNat).1

/-- Earlier outstanding transactions of the same master. -/
def ahead (s : State) (q : MatTx) : Nat := (s.mat.out.filter fun r => r.tx.master == q.tx.master && decide (r.seq < q.seq)).length

/-- The transaction may be granted: not held at its master port as a seventeenth, nor for a gate that is closing. -/
def grantable (s : State) (q : MatTx) : Bool :=
  decide (ahead s q < 16) && !(s.clk.closing.any fun c => txGate q.tx c.1)

/-- The transaction that a target serves next: the burst that holds it, else round robin from the master after the one it
granted last. -/
def pickAt (s : State) (t : Nat) : Option MatTx :=
  let here := s.mat.out.filter fun q => txTarget s q.tx == t
  match here.find? (·.granted) with
  | some q => some q
  | none =>
    let start := tget 0 s.mat.last t
    (List.range 8).findSome? fun i => here.find? fun q => q.tx.master.val == (start + i) % 8 && grantable s q

/-- A response may return: no earlier transaction of its master and ID is outstanding. -/
def mayReturn (s : State) (a : BusAns) : Bool :=
  !(s.mat.out.any fun q => q.tx.master.val == a.master && q.tx.id == a.id && decide (q.seq < a.seq))

/-- A response in its place by order of issue. -/
def ansIn (a : BusAns) : List BusAns → List BusAns
  | [] => [a]
  | b :: t => if a.seq ≤ b.seq then a :: b :: t else b :: ansIn a t

/-- Responses return. -/
def deliver (s : State) : State := s.onMat fun m => { m with
  answers := m.answers ++ m.back.filter (mayReturn s)
  back := m.back.filter fun a => !mayReturn s a }

/-- A transaction runs to its last beat, releases its path and is answered. -/
def txFinish (q : MatTx) (s : State) : State :=
  let t := txTarget s q.tx
  let r := beatsFrom q.tx q.beats q.tx.beats s
  let s := reactOnce q.tx q.beats r.1 r.2.2
  deliver (s.onMat fun m => { m with
    out := m.out.filter fun x => x.seq != q.seq
    last := tput 0 m.last t ((q.tx.master.val + 1) % 8)
    back := ansIn {
      master := q.tx.master.val
      id := q.tx.id
      seq := q.seq
      resps := q.resps ++ r.1
      data := r.2.1 } m.back })

/-- Up to `n` outstanding transactions finish, in the order of arbitration. -/
def busRun : Nat → State → State
  | 0, s => s
  | n + 1, s =>
    match (List.range targets.length).findSome? (pickAt s) with
    | some q => busRun n (txFinish q s)
    | none => s

/-- Every outstanding transaction that may be granted finishes: within 16 bursts of its issue, long before the next media
tick (R386). -/
def busSettle (s : State) : State := busRun s.mat.out.length s

/-- The unit that a transaction reaches is one whose content the spec does not give (R379). -/
def txDevice (s : State) (tx : BusTx) : Bool :=
  !crosses4k tx && (List.range tx.beats).any fun i =>
    match seenAt s tx.master.val (beatAddr tx i) with
    | (.priv, b) => b != 0x21000000
    | (.smb, _) => true
    | (.dbg, _) => true
    | (.fabric, _) => true
    | _ => false

/-- The clock of a domain is good (13 R405, R425): 0 SYSPLL, 1 MEDIAPLL, 2 DDRPLL, 3 SDS_REFCLK, 4 PCIE_REFCLK, else the quarters
of the fabric. -/
def domainGood (s : State) (d : Nat) : Bool :=
  if d < 4 then s.clk.lock.getLsbD d else if d = 4 then s.mat.pcie else s.clk.lock.getLsbD 0 && decide (s.clk.quarters = 4)

/-- A domain is released before its clock is good (13 R426): EARLY_RELEASE is raised, and what its blocks hold is undefined,
a free value each, until their next reset sets it. -/
def releaseEarly (d : Nat) (s : State) : State :=
  let k := s.free
  let s := { s with free := k + 1 }
  raise 0x0904 d 0 (match d with
    | 0 => { s with
        host := Config.undefinedHost k
        sm := Config.undefinedSm k }
    | 1 => { s with
        wave := Config.undefinedWave k
        sig := Config.undefinedSig k
        drv := Config.undefinedDrv k
        lio := Config.undefinedLio k }
    | 2 => s.onMat fun m => { m with ddrState := Config.free k }
    | 3 => { s with
        net := Config.undefinedNet k
        twin := Config.undefinedTwin k }
    | 4 => { s with host := Config.undefinedHost k }
    | _ => { s with
        xp := Config.undefinedXp k
        lanes := Config.undefinedLanes k
        place := Config.undefinedPlace k })

/-- The domain that a transaction releases early: the debug master's write to a debug access register that forces a release,
while the domain's clock is not good. Which write forces which release the spec does not give: `Config.forcedRelease`. -/
def forcedNow (s : State) (tx : BusTx) : Option Nat :=
  if tx.write_ && tx.beats == 1 && (match seenAt s tx.master.val tx.addr.toNat with
      | (.dbg, _) => true
      | _ => false) then
    match Config.forcedRelease tx.addr.toNat (beatData tx 0) with
    | some d => if domainGood s d then none else some d
    | none => none
  else none

/-- A transaction is issued. When the next command finds it under way, its first beats are done if its target is free. -/
def txIssue (tx : BusTx) (s : State) : State :=
  let q : MatTx := { tx := tx, seq := s.mat.issued }
  let s := s.onMat fun m => { m with
    answers := []
    issued := m.issued + 1
    out := m.out ++ [q] }
  match tx.cut with
  | none => busSettle s
  | some k =>
    if 0 < k ∧ grantable s q = true ∧ ((pickAt s (txTarget s tx)).map (·.seq)) = some q.seq then
      let n := if tx.write_ then min k (tx.beats - 1) else 0
      let r := beatsFrom tx 0 n s
      let s := reactOnce tx 0 r.1 r.2.2
      s.onMat fun m => { m with out := m.out.map fun x => if x.seq = q.seq then { x with
        beats := n
        granted := true
        resps := r.1 } else x }
    else s

/-- MATRIX_TRANSACTION (R384 to R387; 13 R426). A transaction that is none of the forms of R384 is not issued. -/
def execMatrixTransaction (tx : BusTx) (s : State) : Host.Outcome State Fault Refusal :=
  if s.clk.por ∨ txOk tx = false then .next s
  else
    match forcedNow s tx with
    | some d => .next (releaseEarly d s)
    | none => if txDevice s tx then .fault (.unspecifiedDevice tx.addr.toNat) else .next (txIssue tx s)

/-- The masters that can be reset alone (R388). -/
def canReset (m : Nat) : Bool := m == 2 || m == 3 || m == 4 || m == 7

/-- The read burst of a master that is reset is finished; its data is discarded. -/
def readRest (q : MatTx) (s : State) : State := if q.tx.write_ then s else (beatsFrom q.tx q.beats q.tx.beats s).2.2

/-- A master is reset (R388): what is not granted is withdrawn, a write burst is finished with null beats, a read burst is
finished, and the responses are discarded. -/
def masterReset (m : Nat) (s : State) : State :=
  let mine := s.mat.out.filter fun q => q.tx.master.val == m && q.granted
  let cut := mine != []
  let s := mine.foldl (fun s q => readRest q s) s
  let s := s.onMat fun x => { x with
    out := x.out.filter fun q => q.tx.master.val != m
    back := x.back.filter fun a => a.master != m
    mReset := x.mReset || cut }
  busSettle (if cut then raise 0x1003 m 0 s else s)

/-- MASTER_RESET (R388). -/
def execMasterReset (master : Fin 8) (s : State) : Host.Outcome State Fault Refusal :=
  if canReset master.val then .next (masterReset master.val s) else .next s

/-- SYS_REMAP_WRITE (R382, R383): only Nolut's data master and the debug master reach the register; others are answered
DECODE_ERROR. -/
def execSysRemapWrite (master : Fin 8) (value : Bool) (s : State) : Host.Outcome State Fault Refusal :=
  if permitted s master.val .priv then .next (s.onMat fun m => { m with remap := value })
  else .next (busErr master.val false 0x21000000 true 0 s)

/-- PCIE_FLR (11 R377, 13 R422): ignored under the FATAL latch. -/
def execPcieFlr (s : State) : Host.Outcome State Fault Refusal :=
  if s.flt.fatal ∨ s.mat.pcie = false then .next s
  else .next (masterReset 2 (hostLost (setCause 8 s)))

end Sys2Proof.Machine
end

