-- ==== Sys2Proof/Machine/Memory.lean ====
section
/-! DEFINITION. Errors, scrubbing, row repair and refresh of the memories (12 R391 to R399), and the junction sensors
(14 R447). -/

namespace Sys2Proof.Machine

/-! ### Words with errors (R391, R393) -/

/-- A bank of the eDRAM as one number. -/
def bankKey (m : MemAt) : Nat := m.region.val * 1024 + m.bank

/-- A word of the eDRAM as one number. -/
def wordKey (m : MemAt) : Nat := bankKey m * 2 ^ 32 + m.word

/-- Copies of a gain word that a tile holds (R390, 02 R38, R61, R66), as `gainErr` numbers them. -/
def copiesIn (s : State) (tile i : Nat) : List Nat :=
  let here := ((occupants s (tile / 8)).filter fun p => p.2.tile == tile % 8).map (·.1)
  let alley := alleySq s == some (sqOf s i)
  here.filterMap fun w =>
    if w = sqOf s i then some 0
    else if w = 0x1000 + sqOf s i then some 3
    else if w = 0x2000 ∧ alley then some 1
    else if w = 0x2001 ∧ alley then some 2
    else none

/-- A single-bit error has been corrected: it counts in the Square's health, or in MEM_ECC_CE (R391), and for its row. -/
def corrected (m : MemAt) (s : State) : State :=
  let s := if m.region = 0 then onTile m.bank (fun q => { q with eccAt := s.clk.now :: q.eccAt }) s
    else s.onMat fun x => { x with ce := satAdd x.ce 1 }
  let now := s.clk.now
  let add (l : List Nat) : List Nat := now :: l.filter fun t => decide (now ≤ t + 3600000000)
  s.onMat fun x => { x with rowFix := tmod [] x.rowFix (wordKey m) add }

/-- A sample of the delay pool or of the delay region is lost: it is 0 until it is next written (R391, R399). -/
def lineZero (line pos : Nat) (s : State) : State :=
  s.onSig fun g => { g with lines := tmod [] g.lines line fun l => l.mapIdx fun k x => if k = pos then 0 else x }

/-- Two channels of a buffered receive sample are lost, which counts as MISSING (R391, 08 R262). -/
def rxLost (m : MemAt) (s : State) : State :=
  onRx m.line (fun q =>
    if m.pos < q.buf.length then { q with
      buf := q.buf.mapIdx fun k x => if k = m.pos then { x with
        words := x.words.mapIdx fun c w => if c = m.chan ∨ c = m.chan + 1 then 0 else w } else x
      cnt := bumpCnt q.cnt 5 1 }
    else q) s

/-- A gain word has a double-bit error (02 R38): SEVERE, and its copies in that tile contribute 0 until it is replaced.
The error counts as a loss of the tile (06 R200). -/
def gainLost (tile i : Nat) (s : State) : State :=
  let s := tileDed (tile / 8) (tile % 8) s
  match copiesIn s tile i with
  | [] => s
  | cs => raise 0x0202 i 0 (s.onXp fun x => { x with err := (x.err ++ cs.map fun c => c * 2 ^ 23 + i).eraseDups })

/-- A double-bit error is read (R391). In the player area it is an underrun when the sample is due, which the media tick
says. -/
def doubleBit (m : MemAt) (s : State) : State :=
  let s := s.onMat fun x => { x with
    ue := satAdd x.ue 1
    err := (x.err ++ [wordKey m]).eraseDups }
  match m.region.val with
  | 0 => gainLost m.bank m.word s
  | 1 => raise 0x1004 0 (BitVec.ofNat 64 (m.bank * 2 ^ 32 + m.word)) (lineZero m.line m.pos s)
  | 2 => rxLost m s
  | _ => s

/-- A double-bit error in a sample of the delay region (R399). -/
def regionLost (line pos : Nat) (addr : BitVec 40) (s : State) : State :=
  raise 0x1006 0 (addr.zeroExtend 64) (lineZero line pos (s.onMat fun x => { x with ue := satAdd x.ue 1 }))

/-! ### Scrubbing (R392, R395, R398) -/

/-- EDRAM_SCRUB (R392): the scrubber reads a word with an error. A corrected word is written back unless another write
has reached it: the value is the same in both cases. In RETAIN scrubbing has stopped (R396). -/
def execEdramScrub (m : MemAt) (double : Bool) (s : State) : Host.Outcome State Fault Refusal :=
  if s.clk.por ∨ s.clk.power = .retain then .next s
  else if double then .next (doubleBit m s)
  else .next (corrected m s)

/-- SRAM_SCRUB (R395): the working SRAM is scrubbed once every 60 s; a double-bit error is FATAL (R387). -/
def execSramScrub (fixed : Nat) (double : Bool) (s : State) : Host.Outcome State Fault Refusal :=
  if s.clk.por = false ∧ s.clk.power ≠ .retain ∧ s.mat.scrubbed + 60000000 ≤ s.clk.now then
    let s := s.onMat fun x => { x with
      ce := satAdd x.ce fixed
      ue := if double then satAdd x.ue 1 else x.ue
      scrubbed := s.clk.now }
    .next (if double then raise 0x100A 0 0 s else s)
  else .next s

/-- DDR_PATROL_SCRUB (R398): every usable block is read once every 24 h. A double-bit error acts on its owner when the
owner reads it (R399). -/
def execDdrPatrolScrub (fixed double : Nat) (s : State) : Host.Outcome State Fault Refusal :=
  if s.mat.ddrState = 2 ∧ s.mat.patrolled + 86400000000 ≤ s.clk.now then
    .next (s.onMat fun x => { x with
      ce := satAdd x.ce fixed
      ue := satAdd x.ue double
      patrolled := s.clk.now })
  else .next s

/-! ### Row repair (R393) -/

/-- A row needs a spare: it holds a word with a double-bit error, or a word that needed 3 corrections in 3,600 s. -/
def rowDue (m : MemAt) (s : State) : Bool :=
  s.mat.err.contains (wordKey m)
    || decide (3 ≤ ((tget [] s.mat.rowFix (wordKey m)).filter fun t => decide (s.clk.now ≤ t + 3600000000)).length)

/-- The row takes the place of its spare at the flip, at once while no waves run (01 R16). -/
def rowSwap (m : MemAt) (s : State) : State :=
  let s := s.onMat fun x => { x with
    err := x.err.filter (· != wordKey m)
    rowFix := tput [] x.rowFix (wordKey m) [] }
  s.onWave fun w => { w with repairs := w.repairs ++ [0x10000 + bankKey m] }

/-- Repairs of a bank that wait for the flip. -/
def rowsWaiting (m : MemAt) (s : State) : Nat := (s.wave.repairs.filter (· == 0x10000 + bankKey m)).length

/-- One repair takes effect at the flip (01 R16, R393): the spare cell or slice of a tile, or a spare row. -/
def repairOne (r : Nat) (s : State) : State :=
  if r < 0x10000 then onTile r (fun q => { q with spareUsed := true }) s
  else if r < 0x10000 + 1024 then onTile (r - 0x10000) (fun q => { q with rowSpares := q.rowSpares - 1 }) s
  else s.onMat fun x => { x with poolSp := tmod 0 x.poolSp (r - 0x10000) (· + 1) }

/-- Every repair that waits takes effect. -/
def repairAll (s : State) : State :=
  s.wave.repairs.foldl (fun s r => repairOne r s) (s.onWave fun w => { w with repairs := [] })

/-- The bank has no spare row left. -/
def sparesOut (m : MemAt) (s : State) : Bool :=
  if m.region = 0 then decide ((tileAt s m.bank).rowSpares ≤ rowsWaiting m s)
  else decide (8 ≤ tget 0 s.mat.poolSp (bankKey m) + rowsWaiting m s)

/-- EDRAM_ROW_REPAIR (R393): a row is replaced at the flip. A gain bank without a spare row needs a second level 1 repair
and its tile has health 0; another bank keeps the row, raises EDRAM_SPARES_OUT once and sets SPARES_OUT. -/
def execEdramRowRepair (m : MemAt) (selfTest : Bool) (s : State) : Host.Outcome State Fault Refusal :=
  if s.clk.por ∨ (rowDue m s || selfTest) = false then .next s
  else if sparesOut m s then
    if m.region = 0 then .next (onTile m.bank (fun q => { q with
      dead := true
      health := 0 }) s)
    else if s.mat.sparesTold.contains (bankKey m) then .next s
    else .next (raise 0x1005 0 (BitVec.ofNat 64 (m.bank * 2 ^ 32 + m.word)) (s.onMat fun x => { x with
      spares := true
      sparesTold := x.sparesTold ++ [bankKey m] }))
  else .next (if s.wave.live then rowSwap m s else repairAll (rowSwap m s))

/-! ### Refresh and junction temperature (R394, 14 R447) -/

/-- REFRESH for a junction temperature. -/
def refreshCode (tj : Int) : Nat :=
  if tj ≤ 55 then 0 else if tj ≤ 85 then 1 else if tj ≤ 105 then 2 else if tj ≤ 125 then 3 else 4

/-- A sensor reads a temperature that has risen: the interval steps down at once; above 125 C TJ_HIGH is raised, at most
once per 3,600 s (14 R447). -/
def sensorHot (sensor : Nat) (tj : Int) (s : State) : State :=
  let q := sensor / 4
  let s := s.onMat fun x => { x with
    tj := tput 0 x.tj q (max tj (tget 0 x.tj q))
    refresh := tput 0 x.refresh q (max (tget 0 x.refresh q) (refreshCode tj))
    rose := tput 0 x.rose q s.clk.now }
  let told := match s.flt.tjTold with
    | some t => decide (s.clk.now < t + 3600000000)
    | none => false
  if 125 < tj ∧ told = false then raise 0x0907 sensor (BitVec.ofInt 64 tj) (s.onFlt fun c => { c with tjTold := some s.clk.now })
  else s

/-- TJ_THRESHOLD_CROSS (R394): a sensor rises through a threshold. -/
def execTjThresholdCross (sensor : Fin 16) (tj : Int) (s : State) : Host.Outcome State Fault Refusal :=
  if s.clk.por then .next s else .next (sensorHot sensor.val tj s)

/-- Every sensor has read 122 C or less for 1 s: TJ_HIGH ends (14 R451). -/
def coolEnd (s : State) : State :=
  if (List.range 4).all fun q => decide (tget 0 s.mat.tj q ≤ 122) then
    (List.range 16).foldl (fun s k => endCond 0x0907 k s) s
  else s

/-- EDRAM_REFRESH_RELAX (R394): no sensor of the quarter has read more than `tj` for 1 s, and the interval steps up to the
one that a temperature 3 C higher requires. -/
def execEdramRefreshRelax (quarter : Fin 4) (tj : Int) (s : State) : Host.Outcome State Fault Refusal :=
  let q := quarter.val
  if s.clk.por = false ∧ tget 0 s.mat.rose q + 1000000 ≤ s.clk.now then
    .next (coolEnd (s.onMat fun x => { x with
      tj := tput 0 x.tj q tj
      refresh := tput 0 x.refresh q (min (tget 0 x.refresh q) (refreshCode (tj + 3))) }))
  else .next s

/-- TJ_CRIT (14 R447): a sensor has read above 140 C for 10 ms. -/
def execTjCrit (sensor : Fin 16) (tj : Int) (s : State) : Host.Outcome State Fault Refusal :=
  if s.clk.por = false ∧ 140 < tj then
    .next (raise 0x090C sensor.val (BitVec.ofInt 64 tj) (sensorHot sensor.val tj s))
  else .next s

end Sys2Proof.Machine
end

