-- ==== Sys2Proof/Machine/Wave.lean ====
section
/-! DEFINITION. The media tick, the launch and the end of a wave, the completion of a tile, and the entry to HUSH and RUN
(01 R19 to R26; 06 R191 to R199; 13 R433). -/

namespace Sys2Proof.Machine

/-! ### Completion of a tile (R22, R24) -/

/-- Everything that applies in Square `q` in the wave in progress, kept so that a miss can take it back (R25; 02 R45, R58,
R64). -/
def squareTake (q : Nat) (s : State) : State :=
  let es := s.xp.queue.filter fun e => sqOf s e.idx == q && (crossDue s e || timeoutDue s e)
  let ts := s.xp.trans.filterMap fun p => p.2.bind fun r =>
    if sqOf s p.1 == q && (transCrossDue s p.1 r || transTimeoutDue s p.1 r) then some (p.1, r) else none
  let t := es.foldl (fun t e => noteUndo e false (timeoutDue s e && !crossDue s e) t) s
  let note (t : State) (p : Nat × Trans) : State := t.onXp fun x => { x with
    undo := { idx := p.1, base := baseWord x p.1, trans := some p.2 } :: x.undo }
  squareApply q (ts.foldl note t)

/-- Once per wave, whichever of the sharers completes first. -/
def squareOnce (q : Nat) (s : State) : State :=
  if (sharers s q).any fun w => s.wave.done.contains w then s else squareTake q s

/-- The logical Square of a piece of work of mix tiles. -/
def workSquare (s : State) (w : Nat) : Nat :=
  if w < 0x1000 then w else if w < 0x2000 then w - 0x1000 else (alleySq s).getD 0

/-- Columns of the Alley buses of the running plan, with their numbers. -/
def alleyBuses (s : State) : List (Nat × Nat) :=
  match s.plan.run with
  | none => []
  | some i => i.buses.filterMap fun b => b.alley.map fun n => (n, b.col)

/-- A replica holds its complete sums for one wave (02 R61). -/
def replicaHold (c : Nat) (s : State) : State :=
  (alleyBuses s).foldl (fun t p =>
    let v := some (replicaSum s s.xp c p.2)
    t.onXp fun x => { x with alley := tmod {} x.alley p.1 fun a =>
      if c = 1 then { a with new1 := v } else { a with new2 := v } }) s

/-- The two physical Squares of a logical Square at 192 kHz differ (02 R66). -/
def pairDiffers (s : State) (q : Nat) : Bool := squareSums s s.xp 0 q != squareSums s s.xp 3 q

/-- Two sites of a Lane have handed on different words (06 R193, R197, R199). -/
def lanesDiffer (s : State) (a b : Nat) : Bool :=
  match blockRec s a with
  | none => false
  | some r => (List.range r.chOut).any fun ch =>
      tget 0 (laneAt s a).cur.x (0x40 + ch) != tget 0 (laneAt s b).cur.x (0x40 + ch)

/-- A difference between the placed site and the second site of a move or audit (06 R194, R197). -/
def siteDiff (w : Nat) (s : State) : State :=
  match moveOf s w with
  | some m =>
    if m.kind = .planned then startTie w m.dd m.dt (abandon m s)
    else s.onPlace fun p => { p with moving := p.moving.map fun x => if x = m then { x with equal := false } else x }
  | none => s

/-- A difference between the pair of a logical Square or of a DUPLEX block: a failed audit of the first (02 R66, 06 R199). -/
def pairDiff (w second : Nat) (s : State) : State :=
  let o := workAt s second
  startTie w o.district o.tile (noteAudit s)

/-- The comparisons that a completion makes possible. -/
def compareSites (site : Nat) (differs : Bool) (s : State) : State :=
  let d := s.wave.done
  let w := site % 65536
  let s :=
    if d.contains w && d.contains (0x10000 + w) && (differs || (!workMix w && lanesDiffer s w (0x10000 + w))) then siteDiff w s
    else s
  if site < 0x1000 ∨ (0x1000 ≤ site ∧ site < 0x2000) then
    let q := site % 0x1000
    if d.contains q && d.contains (0x1000 + q) && (differs || pairDiffers s q) then pairDiff q (0x1000 + q) s else s
  else if 0x4000 ≤ site ∧ site < 0x6000 then
    let id := site % 0x1000
    if d.contains (0x4000 + id) && d.contains (0x5000 + id) && (differs || lanesDiffer s (0x4000 + id) (0x5000 + id)) then
      pairDiff (0x4000 + id) (0x5000 + id) s
    else s
  else s

/-- A completion is counted. -/
def markDone (site : Nat) (s : State) : State := s.onWave fun v => { v with done := v.done ++ [site] }

/-- The results of a Square of some kind (02 R41, R61, R66). -/
def squareDone (w : Nat) (s : State) : State :=
  let q := workSquare s w
  let s := squareOnce q s
  if w < 0x1000 then
    let p : Partial := { vals := squareSums s s.xp 0 q, wave := s.wave.num }
    squareCommit q (s.onSig fun g => { g with sumNew := tput {} g.sumNew q p })
  else if w < 0x2000 then s
  else replicaHold (w - 0x2000 + 1) s

/-- The columns of one Avenue block (R26; 02 R41, R63), with the copies that lost a vote placed again. -/
def avenueRun (block : Nat) (s : State) : State :=
  (List.range 256).foldl (fun s b =>
    let r := avenueColumn (block * 256 + b) s
    match r.2 with
    | some c => replaceCopy c r.1
    | none => r.1) s

/-- The columns of an Avenue block are complete in the wave in progress: each is joined, and each vote taken, once a wave. -/
def avenueDone (block : Nat) (s : State) : Bool :=
  s.wave.done.any fun w => decide (0x20000 + 64 * block ≤ w ∧ w < 0x20000 + 64 * (block + 1))

/-- Slack of an Avenue segment (06 R190). -/
def avenueSlack (d : Nat) (slack : BitVec 8) (s : State) : State :=
  onDist d (fun q => { q with avWin := some (match q.avWin with
    | some v => if slack < v then slack else v
    | none => slack) }) s

/-- A tile of mix districts completes; `ded` lists the gain words in which it has read a double-bit error (02 R38). -/
def completeSquare (w : Nat) (slack : BitVec 8) (ecc ded : List Nat) (s : State) : State :=
  let k := workAt s w
  let tile := k.district * 8 + k.tile
  let s := ded.foldl (fun s i => doubleBit { region := 0, bank := tile, word := i } s) s
  noteSlack w slack ecc.length (markDone w (squareDone w s))

/-- The tile of a site: of a piece of work, or of the second site of a move or audit. -/
def siteTile (s : State) (site : Nat) : Nat :=
  if 0x10000 ≤ site then
    match s.place.moving.find? fun m => m.work == site - 0x10000 && m.kind != .tieBreak with
    | some m => m.dd * 8 + m.dt
    | none => 416
  else (workAt s site).district * 8 + (workAt s site).tile

/-- TILE_COMPLETE (R22, R24): a tile completes its wave. `site` is a WORK code, 0x10000 + WORK for the second site of a move
or audit, or 0x20000 + 64 x column block + district for an Avenue segment; `ecc` lists words corrected, `ded` gain words
with a double-bit error; `differs` says that a fault of the tile makes it differ from the site it is compared with. Of a Lane
whose wave is not complete, or is discarded, only the corrections count (03 R88). -/
def execTileComplete (site : Nat) (slack : BitVec 8) (ecc ded : List Nat) (differs : Bool) (s : State) :
    Host.Outcome State Fault Refusal :=
  if s.wave.live = false ∨ s.wave.done.contains site then .next s
  else if s.wave.dropped.contains site then .next (noteEcc (siteTile s site) ecc.length s)
  else if 0x20000 ≤ site then
    let b := (site - 0x20000) / 64
    let d := site % 64
    if b < sqCols s ∧ d < 12 ∧ s.plan.run.isSome then
      .next (avenueSlack d slack (markDone site (if avenueDone b s then s else avenueRun b s)))
    else .next s
  else if 0x10000 ≤ site then
    let w := site - 0x10000
    let runs := s.place.moving.any fun m => m.work == w && m.kind != .tieBreak && match m.j with
      | some j => decide (j.toNat ≤ s.wave.num.toNat)
      | none => false
    let k := siteTile s site
    if runs then
      let s := noteEcc k ecc.length s
      if workMix w then
        .next (compareSites site differs (markDone site
          (ded.foldl (fun s i => doubleBit { region := 0, bank := k, word := i } s) s)))
      else if (laneAt s site).phase = .done then .next (compareSites site differs (markDone site s))
      else .next s
    else .next s
  else if (workAt s site).placed = false then .next s
  else if workMix site then .next (compareSites site differs (completeSquare site slack ecc ded s))
  else if (laneAt s site).phase = .done then
    .next (compareSites site differs (noteSlack site slack ecc.length (markDone site s)))
  else .next (noteEcc (siteTile s site) ecc.length s)

/-! ### The deadline (R25, R26; 06 R191, R194, R210) -/

/-- What became of a piece of work in the wave that ends: 0 complete or not running, 1 the deadline missed, 2 discarded for a
double-bit error, 3 discarded otherwise. -/
def waveFate (s : State) (w : Nat) : Nat :=
  if s.wave.dropped.contains w then 3
  else if workMix w then (if s.wave.done.contains w then 0 else 1)
  else
    let l := laneAt s w
    match l.phase with
    | .done => 0
    | .idle => 0
    | .over => if l.cause = 1 then 2 else 3
    | _ => 1

/-- Nothing that a piece of work did in the wave counts. -/
def discardWork (w : Nat) (s : State) : State :=
  if w < 0x1000 then squareDiscard w s
  else if w / 4096 = 4 ∨ w / 4096 = 6 then
    s.onSig fun g => { g with outNew := g.outNew.filter fun p =>
      !(codeKind p.1 == 4 && codeBlock p.1 == w % 4096
        && (decide (p.1 % 0x10000000 < 0x08000000)) == (w / 4096 == 4)) }
  else s

/-- The second site of a shadow run has completed the wave (06 R210). -/
def shadowDone (s : State) (w : Nat) : Option MoveS :=
  s.place.moving.find? fun m => m.work == w && m.kind == .planned && m.j.isSome
    && (s.wave.done.contains (0x10000 + w) || (!workMix w && (laneAt s (0x10000 + w)).phase == .done))

/-- The new site's results are delivered and it takes over, as an urgent move (06 R210). -/
def shadowTakes (m : MoveS) (s : State) : State :=
  let w := m.work
  let s :=
    if workMix w then squareDone w s
    else
      let l := laneAt s (0x10000 + w)
      handOut w (onLane w (fun _ => l) s)
  takeOver { m with kind := .urgent } (s.onPlace fun p => { p with
    moving := p.moving.map fun x => if x = m then { m with kind := .urgent } else x })

/-- A piece of placed work at the deadline; `n` is the wave whose launch is the flip. -/
def workDeadline (n : BitVec 64) (s : State) (w : Nat) : State :=
  match waveFate s w with
  | 0 => s
  | 1 =>
    let s := raise 0x0401 (workObj s w) 0 (s.onWave fun v => { v with missCount := satAdd v.missCount 1 })
    match shadowDone s w with
    | some m => shadowTakes m s
    | none => urgentMove w n (discardWork w s)
  | 2 => urgentMove w n (discardWork w (tileDed (workAt s w).district (workAt s w).tile s))
  | _ => discardWork w s

/-- A double-bit error in the memories of the second site's tile counts as its loss (06 R200). -/
def secondDed (s : State) (m : MoveS) : State :=
  let l := laneAt s (0x10000 + m.work)
  if !workMix m.work && m.j.isSome && l.phase == .over && l.cause == 1 then tileDed m.dd m.dt s else s

/-- A planned move whose new site has missed a wave is abandoned (06 R194). -/
def secondMissed (s : State) (m : MoveS) : State :=
  let ran := match m.j with
    | some j => decide (j.toNat ≤ s.wave.num.toNat)
    | none => false
  let key := 0x10000 + m.work
  let done := s.wave.done.contains key || (!workMix m.work && ((laneAt s key).phase == .done || (laneAt s key).phase == .idle))
  if m.kind = .planned ∧ ran = true ∧ done = false then abandon m s else s

/-- Everything that the deadline of the wave in progress decides. -/
def deadline (n : BitVec 64) (s : State) : State :=
  if s.wave.live then
    let ws := (s.place.works.filter (·.2.placed)).map (·.1)
    let s := ws.foldl (workDeadline n) s
    let s := s.place.moving.foldl secondMissed (s.place.moving.foldl secondDed s)
    seedSettle s
  else s

/-- The words that the votes of the next wave compare (02 R61, R63, R206). -/
def flipAlley (s : State) : State :=
  let a := s.wave.done.contains 0x2000
  let b := s.wave.done.contains 0x2001
  (alleyBuses s).foldl (fun s p => s.onXp fun x => { x with alley := tmod {} x.alley p.1 fun q => { q with
    rep1 := if a then q.new1 else none
    rep2 := if b then q.new2 else none
    new1 := none
    new2 := none } }) s

/-- All input areas flip (R20): what was written is read from now on, and everything else keeps its value (R25). `n` tags
the partial sums when the counter has stepped. -/
def flip (n : BitVec 64) (s : State) : State :=
  flipAlley (s.onSig fun g => { g with
    srcCur := g.latch
    outCur := g.outNew.foldl (fun t p => match p.2 with
      | some v => tput 0 t p.1 v
      | none => t) g.outCur
    outNew := []
    sumPart := g.sumNew.foldl (fun t p => tput {} t p.1 { p.2 with wave := n - 1 }) g.sumPart
    sumNew := [] })

/-- Transfers are complete two waves after their flip at the latest (06 R192); a shadow run that starts with wave `n` has the
SHADOW_K in force then (06 R216). -/
def transfers (n : BitVec 64) (s : State) : State :=
  s.onPlace fun p => { p with moving := p.moving.map fun m =>
    let m := if m.j.isNone && decide (m.f.toNat + 2 ≤ n.toNat) then { m with j := some n } else m
    if m.kind == .planned && m.j == some n then { m with k := p.shadowK.toNat } else m }

/-- Shadow runs that have ended with the wave in progress (06 R193, R194): with every comparison equal the new site takes
over at this flip; a difference abandons the move and starts a tie-break. -/
def shadowEnds (s : State) : State :=
  (s.place.moving.filter fun m => m.kind == .planned && m.ended.isSome).foldl (fun s m =>
    if m.equal && m.ended == some true then takeOver m s else startTie m.work m.dd m.dt (abandon m s)) s

/-- The new site of an urgent move takes over with the first wave that it launches (06 R191). -/
def urgentTakes (n : BitVec 64) (s : State) : State :=
  (s.place.moving.filter fun m => m.kind == .urgent && match m.j with
    | some j => decide (j.toNat ≤ n.toNat)
    | none => false).foldl (fun s m => takeOver m s) s

/-- The wave in progress ends at the flip that would launch wave `n`: missed work, responses that were due after the wave,
transfers, takeovers, repairs, and the flip. -/
def endWave (n : BitVec 64) (s : State) : State :=
  let s := xpReplies ((deadline n s).onXp fun x => { x with undo := [] })
  flip n (repairAll (shadowEnds (urgentTakes n (transfers n s))))

/-! ### The launch (R19) -/

/-- The value that the next tick carries is a step of the counter (R35). -/
def stepped (s : State) : Bool :=
  match s.wave.step with
  | some v => s.wave.ticked && v != s.wave.count + 1
  | none => false

/-- The hush of an accepted PWR_STATE_SET takes effect at wave `n` or before. -/
def hushDue (n : BitVec 64) (s : State) : Bool :=
  match s.clk.powDue with
  | some (.hush, h) => decide (h.toNat ≤ n.toNat)
  | _ => false

/-- The last wave of the old rate has been launched (13 R440). -/
def rateOver (n : BitVec 64) (s : State) : Bool :=
  match s.clk.rateDue with
  | some (_, last, _) => decide (last.toNat < n.toNat)
  | none => false

/-- Media ticks come: a rate is set, MEDIAPLL runs, and the chip is neither in reset nor in RETAIN (13 R406, R431). -/
def ticking (s : State) : Bool :=
  s.wave.rate.isSome && s.clk.lock.getLsbD 1 && !s.clk.por && (s.clk.power == .run || s.clk.power == .hush)

/-- Wave `n` may be launched. -/
def mayLaunch (n : BitVec 64) (s : State) : Bool :=
  ticking s && s.clk.power == .run && !s.flt.fatal && !hushDue n s && !rateOver n s
    && !(s.wave.live && s.wave.num == n)

/-- The flip and the launch of wave `n`. -/
def launch (n : BitVec 64) (s : State) : State :=
  let was := s.wave.live
  let jump := stepped s
  let s := if jump then rebaseWaves (s.wave.count + 1) n s else s
  let s := forwardAll s
  let s := startWaits n (swapPublish n (bypassLaunch n (preNote s)))
  let fresh := s.sig.outNew.filterMap fun p => if p.2.isSome then some p.1 else none
  let s := endWave n s
  let s := s.onWave fun v => { v with
    num := n
    live := true
    running := true
    minSlack := v.minAcc.getD 0
    minAcc := none
    done := []
    dropped := [] }
  let s := if jump then restartEq n s else s
  let s := preStart n s
  let s := if was then handSinks s else s.onSig fun g => { g with sinkNext := [] }
  let old := s.xp.active
  let s := commitsRun (levelChange n s)
  stopTake n (directApply (loadWave fresh (old ^^^ s.xp.active) s))

/-- WAVE_LAUNCH (R19): the output window opens. It is the deadline of the wave in progress; all input areas flip, outside
writes act, the level changes and scene commits of the new wave take effect, events are latched, and the wave of the next
tick is launched. -/
def execWaveLaunch (s : State) : Host.Outcome State Fault Refusal :=
  if mayLaunch (nextTick s) s then .next (launch (nextTick s) s) else .next s

/-! ### HUSH and RUN (13 R433) -/

/-- Entry to HUSH at wave `h`, which is not launched: the last wave's results are handed on, pending entries become base
words, and moves and audits are abandoned. -/
def enterHush (h : BitVec 64) (s : State) : State :=
  let was := s.wave.live
  let s := endWave h (forwardAll s)
  let s := if was then handSinks s else s
  let pend := s.xp.queue.filter fun e => !e.held
  let s := pend.foldl (fun s e => applyEntry e s) s
  let s := s.xp.direct.foldl (fun s e => s.onXp fun x => setBase e.idx e.word x) (s.onXp fun x => { x with
    direct := []
    undo := [] })
  let s := (stopWaves s).onWave fun w => { w with tail := was }
  yieldSoon false (s.onClk fun c => { c with
    power := .hush
    powDue := none })

/-- Return to RUN: waves are launched from wave `b` on, and equalisation restarts. -/
def enterRun (b : BitVec 64) (s : State) : State :=
  restartEq b ((abandonAll s).onClk fun c => { c with
    power := .run
    powDue := none })

/-- POWER_STATE_EFFECT (13 R433): an accepted change between RUN and HUSH takes effect at its wave,
whose output window ends at the next tick. -/
def execPowerStateEffect (s : State) : Host.Outcome State Fault Refusal :=
  match s.clk.powDue with
  | some (.hush, h) => if h.toNat ≤ (nextTick s).toNat then .next (enterHush h s) else .next s
  | some (.run, b) => if b.toNat ≤ (nextTick s).toNat then .next (enterRun b s) else .next s
  | _ => .next s

/-! ### The media tick (R21) -/

/-- A double-bit error in LPDDR5 (12 R399): a player's sample is an underrun, which the tick of the players says; a delayed
sample is 0. -/
def ddrLost (s : State) (d : Nat × Nat × BitVec 40) : State :=
  if codeKind d.1 = 2 then s.onMat fun m => { m with ue := satAdd m.ue 1 } else regionLost d.1 d.2.1 d.2.2 s

/-- Players whose sample LPDDR5 does not deliver in time, or loses to a double-bit error (05 R171, 12 R399). -/
def latePlayers (late : List (Fin 64)) (ddr : List (Nat × Nat × BitVec 40)) : List Nat :=
  late.map (·.val) ++ (ddr.filter fun d => codeKind d.1 == 2).map fun d => codeIdx d.1

/-- Players whose sample stream-buffer eDRAM loses to a double-bit error (12 R391). -/
def lostPlayers (deds : List MemAt) : List Nat := (deds.filter fun m => m.region == 3).map (·.line)

/-- What the outputs present at tick `n`, and the frames that begin (R21; 07 R221, 08 R266, 09 R295). In the idle of a rate
change, and after FATAL, there are none. -/
def tickOut (n : BitVec 64) (idle : Bool) (s : State) : State :=
  let s := if idle then linksIdle (stopWaves s) else driveTick n s
  let s := s.onSig fun g => { g with
    sinkNow := if idle then [] else g.sinkNext
    sinkNext := if s.wave.live && !idle then g.sinkNext else [] }
  let s := if idle ∨ s.flt.fatal = true then tdmStop s else txTicks n (tdmFrames s)
  s.onWave fun w => { w with tail := false }

/-- What the inputs latch at tick `n` (R21; 05 R170, 08 R262, 09 R295): a TDM frame that began one tick before. -/
def tickIn (n : BitVec 64) (tdm : List (Nat × BitVec 32)) (late lost : List Nat) (s : State) : State :=
  let s := rxTicks n s
  let s := (List.range 4).foldl (fun s g => groupLatch tdm g s) s
  (List.range 64).foldl (fun s p => playLatch (late.contains p) (lost.contains p) s p) s

/-- The media pins are driven by their blocks once frames run (13 R427). -/
def tickPins (s : State) : State :=
  let s := drivePin 3 s
  if (List.range 4).any fun g => (groupAt s g).flags.getLsbD 0 then drivePin 1 (drivePin 0 s) else s

/-- The tick of sample `n`. -/
def tick (n : BitVec 64) (pins : List PriPin) (tdm : List (Nat × BitVec 32)) (late lost : List Nat) (s : State) : State :=
  let jump := stepped s
  let s := if jump && !(s.wave.live && s.wave.num == n) then rebaseWaves (s.wave.count + 1) n s else s
  let s := if jump then rebaseTicks (s.wave.count + 1) n s else s
  let idle := rateOver n s
  let s := s.onWave fun v => { v with
    count := n
    ticked := true
    step := none
    firstTick := none
    counterValid := v.counterValid || v.step.isSome }
  let s := stopTake n (if jump then streamsStep n s else s)
  let s := tickOut n idle (tickIn n tdm late lost s)
  busSettle (tickPins (twinTick n (priReadAll (n + 1) pins s)))

/-- MEDIA_TICK (R21, R35): the counter advances, the output ports present the words handed to them and the input ports latch
theirs. `pins` are the PRI pairs, `tdm` the slot words that arrive, `late` the players whose sample has not come, `deds` and
`ddr` the double-bit errors read in eDRAM and in LPDDR5. -/
def execMediaTick (pins : List PriPin) (tdm : List (Nat × BitVec 32)) (late : List (Fin 64)) (deds : List MemAt)
    (ddr : List (Nat × Nat × BitVec 40)) (s : State) : Host.Outcome State Fault Refusal :=
  if ticking s && !rateIdle s then
    let s := deds.foldl (fun s m => doubleBit m s) s
    let s := ddr.foldl ddrLost s
    .next (tick (nextTick s) pins tdm (latePlayers late ddr) (lostPlayers deds) s)
  else .next s

end Sys2Proof.Machine
end

