-- ==== Sys2Proof/Machine/Dispatch.lean ====
section
/-! DEFINITION. The meaning of each command: one direct call for each row of the table. -/

namespace Sys2Proof.Machine

def exec (i : Instr) (s : State) : Host.Outcome State Fault Refusal :=
  match i with
  | .mediaTick pins tdm late deds ddr => Sys2Proof.Machine.execMediaTick pins tdm late deds ddr s
  | .waveLaunch => Sys2Proof.Machine.execWaveLaunch s
  | .tileComplete site slack ecc ded differs => Sys2Proof.Machine.execTileComplete site slack ecc ded differs s
  | .xpEntryTimeout node => Sys2Proof.Machine.execXpEntryTimeout node s
  | .xpTimeoutLog square => Sys2Proof.Machine.execXpTimeoutLog square s
  | .sceneCommitRun => Sys2Proof.Machine.execSceneCommitRun s
  | .overlayLevelChange => Sys2Proof.Machine.execOverlayLevelChange s
  | .overlayTransitionTimeout node => Sys2Proof.Machine.execOverlayTransitionTimeout node s
  | .priReadingNoRate pins => Sys2Proof.Machine.execPriReadingNoRate pins s
  | .priBroken input => Sys2Proof.Machine.execPriBroken input s
  | .nop lane ded => Sys2Proof.Machine.execNop lane ded s
  | .halt lane ded => Sys2Proof.Machine.execHalt lane ded s
  | .laneWaveComplete lane => Sys2Proof.Machine.execLaneWaveComplete lane s
  | .rete lane ded => Sys2Proof.Machine.execRete lane ded s
  | .sosrun lane ded group => Sys2Proof.Machine.execSosrun lane ded group s
  | .soswait lane ded group => Sys2Proof.Machine.execSoswait lane ded group s
  | .sosGroupComplete lane slot ded => Sys2Proof.Machine.execSosGroupComplete lane slot ded s
  | .mov lane ded d a => Sys2Proof.Machine.execMov lane ded d a s
  | .add lane ded d a b => Sys2Proof.Machine.execAdd lane ded d a b s
  | .adds lane ded d a b => Sys2Proof.Machine.execAdds lane ded d a b s
  | .sub lane ded d a b => Sys2Proof.Machine.execSub lane ded d a b s
  | .subs lane ded d a b => Sys2Proof.Machine.execSubs lane ded d a b s
  | .neg lane ded d a => Sys2Proof.Machine.execNeg lane ded d a s
  | .negs lane ded d a => Sys2Proof.Machine.execNegs lane ded d a s
  | .abs lane ded d a => Sys2Proof.Machine.execAbs lane ded d a s
  | .and lane ded d a b => Sys2Proof.Machine.execAnd lane ded d a b s
  | .or lane ded d a b => Sys2Proof.Machine.execOr lane ded d a b s
  | .xor lane ded d a b => Sys2Proof.Machine.execXor lane ded d a b s
  | .not lane ded d a => Sys2Proof.Machine.execNot lane ded d a s
  | .ash lane ded d a b => Sys2Proof.Machine.execAsh lane ded d a b s
  | .lsh lane ded d a b => Sys2Proof.Machine.execLsh lane ded d a b s
  | .min lane ded d a b => Sys2Proof.Machine.execMin lane ded d a b s
  | .max lane ded d a b => Sys2Proof.Machine.execMax lane ded d a b s
  | .cmp lane ded a b => Sys2Proof.Machine.execCmp lane ded a b s
  | .mulf lane ded d a b => Sys2Proof.Machine.execMulf lane ded d a b s
  | .muli lane ded d a b => Sys2Proof.Machine.execMuli lane ded d a b s
  | .addi lane ded d a imm => Sys2Proof.Machine.execAddi lane ded d a imm s
  | .addsi lane ded d a imm => Sys2Proof.Machine.execAddsi lane ded d a imm s
  | .andi lane ded d a imm => Sys2Proof.Machine.execAndi lane ded d a imm s
  | .ori lane ded d a imm => Sys2Proof.Machine.execOri lane ded d a imm s
  | .xori lane ded d a imm => Sys2Proof.Machine.execXori lane ded d a imm s
  | .ashi lane ded d a sh => Sys2Proof.Machine.execAshi lane ded d a sh s
  | .lshi lane ded d a sh => Sys2Proof.Machine.execLshi lane ded d a sh s
  | .cmpi lane ded a imm => Sys2Proof.Machine.execCmpi lane ded a imm s
  | .ldi lane ded d imm => Sys2Proof.Machine.execLdi lane ded d imm s
  | .ldih lane ded d imm => Sys2Proof.Machine.execLdih lane ded d imm s
  | .mpy lane ded frac ac dx dy x y => Sys2Proof.Machine.execMpy lane ded frac ac dx dy x y s
  | .mac lane ded frac ac dx dy x y => Sys2Proof.Machine.execMac lane ded frac ac dx dy x y s
  | .msu lane ded frac ac dx dy x y => Sys2Proof.Machine.execMsu lane ded frac ac dx dy x y s
  | .mpyn lane ded frac ac dx dy x y => Sys2Proof.Machine.execMpyn lane ded frac ac dx dy x y s
  | .pld lane ded x y => Sys2Proof.Machine.execPld lane ded x y s
  | .firtap lane ded ac fromP move ix ic => Sys2Proof.Machine.execFirtap lane ded ac fromP move ix ic s
  | .firtapn lane ded ac fromP move ix ic => Sys2Proof.Machine.execFirtapn lane ded ac fromP move ix ic s
  | .ld lane ded mem mode d => Sys2Proof.Machine.execLd lane ded mem mode d s
  | .st lane ded toY mode src => Sys2Proof.Machine.execSt lane ded toY mode src s
  | .clra lane ded a => Sys2Proof.Machine.execClra lane ded a s
  | .movah lane ded d a => Sys2Proof.Machine.execMovah lane ded d a s
  | .moval lane ded d a => Sys2Proof.Machine.execMoval lane ded d a s
  | .movag lane ded d a => Sys2Proof.Machine.execMovag lane ded d a s
  | .ldah lane ded a d => Sys2Proof.Machine.execLdah lane ded a d s
  | .ldal lane ded a d => Sys2Proof.Machine.execLdal lane ded a d s
  | .adda lane ded a b => Sys2Proof.Machine.execAdda lane ded a b s
  | .suba lane ded a b => Sys2Proof.Machine.execSuba lane ded a b s
  | .cpya lane ded a b => Sys2Proof.Machine.execCpya lane ded a b s
  | .nega lane ded a => Sys2Proof.Machine.execNega lane ded a s
  | .asha lane ded a sh => Sys2Proof.Machine.execAsha lane ded a sh s
  | .tsta lane ded a => Sys2Proof.Machine.execTsta lane ded a s
  | .mvta lane ded kind reg d => Sys2Proof.Machine.execMvta lane ded kind reg d s
  | .mvfa lane ded d kind reg => Sys2Proof.Machine.execMvfa lane ded d kind reg s
  | .lda lane ded kind reg imm => Sys2Proof.Machine.execLda lane ded kind reg imm s
  | .aadd lane ded reg imm => Sys2Proof.Machine.execAadd lane ded reg imm s
  | .amod lane ded reg => Sys2Proof.Machine.execAmod lane ded reg s
  | .mvtc lane ded cr d => Sys2Proof.Machine.execMvtc lane ded cr d s
  | .mvfc lane ded d cr => Sys2Proof.Machine.execMvfc lane ded d cr s
  | .j lane ded cond target => Sys2Proof.Machine.execJ lane ded cond target s
  | .call lane ded cond d target => Sys2Proof.Machine.execCall lane ded cond d target s
  | .jr lane ded cond d => Sys2Proof.Machine.execJr lane ded cond d s
  | .rep lane ded count len => Sys2Proof.Machine.execRep lane ded count len s
  | .loop lane ded d last => Sys2Proof.Machine.execLoop lane ded d last s
  | .lpop lane ded => Sys2Proof.Machine.execLpop lane ded s
  | .illegalOp lane ded word => Sys2Proof.Machine.execIllegalOp lane ded word s
  | .laneEventTake lane => Sys2Proof.Machine.execLaneEventTake lane s
  | .budgetOverrun lane => Sys2Proof.Machine.execBudgetOverrun lane s
  | .slackWindowEnd speeds => Sys2Proof.Machine.execSlackWindowEnd speeds s
  | .vcoreLower => Sys2Proof.Machine.execVcoreLower s
  | .contextTransferComplete work => Sys2Proof.Machine.execContextTransferComplete work s
  | .shadowRunEnd work crcEqual => Sys2Proof.Machine.execShadowRunEnd work crcEqual s
  | .auditStart district => Sys2Proof.Machine.execAuditStart district s
  | .auditWindowEnd work crcEqual => Sys2Proof.Machine.execAuditWindowEnd work crcEqual s
  | .tieBreakComplete work outcome => Sys2Proof.Machine.execTieBreakComplete work outcome s
  | .healthUpdate => Sys2Proof.Machine.execHealthUpdate s
  | .healthSave => Sys2Proof.Machine.execHealthSave s
  | .workReplace work => Sys2Proof.Machine.execWorkReplace work s
  | .cellRepair tile => Sys2Proof.Machine.execCellRepair tile s
  | .edramRowRepair at_ selfTest => Sys2Proof.Machine.execEdramRowRepair at_ selfTest s
  | .edramScrub at_ double => Sys2Proof.Machine.execEdramScrub at_ double s
  | .sramScrub corrected double => Sys2Proof.Machine.execSramScrub corrected double s
  | .ddrPatrolScrub corrected double => Sys2Proof.Machine.execDdrPatrolScrub corrected double s
  | .tjThresholdCross sensor tj => Sys2Proof.Machine.execTjThresholdCross sensor tj s
  | .edramRefreshRelax quarter tj => Sys2Proof.Machine.execEdramRefreshRelax quarter tj s
  | .tjCrit sensor tj => Sys2Proof.Machine.execTjCrit sensor tj s
  | .planStaged newFirst => Sys2Proof.Machine.execPlanStaged newFirst s
  | .planTakeEffect => Sys2Proof.Machine.execPlanTakeEffect s
  | .planUnloadEffect => Sys2Proof.Machine.execPlanUnloadEffect s
  | .eqPublishH => Sys2Proof.Machine.execEqPublishH s
  | .eqSettle => Sys2Proof.Machine.execEqSettle s
  | .blockSwap => Sys2Proof.Machine.execBlockSwap s
  | .fadeEnd block => Sys2Proof.Machine.execFadeEnd block s
  | .playerBegin player => Sys2Proof.Machine.execPlayerBegin player s
  | .playerStopEffect player => Sys2Proof.Machine.execPlayerStopEffect player s
  | .playerEntryEnd player => Sys2Proof.Machine.execPlayerEntryEnd player s
  | .upstreamFrameReceive link comma frame => Sys2Proof.Machine.execUpstreamFrameReceive link comma frame s
  | .linkLoss link => Sys2Proof.Machine.execLinkLoss link s
  | .ctlTimeout link => Sys2Proof.Machine.execCtlTimeout link s
  | .thermalUpdate => Sys2Proof.Machine.execThermalUpdate s
  | .pilotWindowEnd channel current impedance phase re => Sys2Proof.Machine.execPilotWindowEnd channel current impedance phase re s
  | .shortProbeStart channel => Sys2Proof.Machine.execShortProbeStart channel s
  | .shortProbeEnd channel current impedance => Sys2Proof.Machine.execShortProbeEnd channel current impedance s
  | .channelResume channel => Sys2Proof.Machine.execChannelResume channel s
  | .stageDownstreamFrame link inputB frame => Sys2Proof.Machine.execStageDownstreamFrame link inputB frame s
  | .stageFrameMissing link inputB => Sys2Proof.Machine.execStageFrameMissing link inputB s
  | .stageMuteNoInput link => Sys2Proof.Machine.execStageMuteNoInput link s
  | .stageCurrentLimit link position => Sys2Proof.Machine.execStageCurrentLimit link position s
  | .stageUpstreamSend link supply ot trips volts amps => Sys2Proof.Machine.execStageUpstreamSend link supply ot trips volts amps s
  | .rxFrame port frame protection secs ns => Sys2Proof.Machine.execRxFrame port frame protection secs ns s
  | .streamLoss stream => Sys2Proof.Machine.execStreamLoss stream s
  | .streamPacketQueue stream => Sys2Proof.Machine.execStreamPacketQueue stream s
  | .streamPacketStale port => Sys2Proof.Machine.execStreamPacketStale port s
  | .txFrameStart port filled => Sys2Proof.Machine.execTxFrameStart port filled s
  | .txFrameComplete port secs ns => Sys2Proof.Machine.execTxFrameComplete port secs ns s
  | .txUnderrun cut => Sys2Proof.Machine.execTxUnderrun cut s
  | .pauseExpire port => Sys2Proof.Machine.execPauseExpire port s
  | .pauseWatchdog port => Sys2Proof.Machine.execPauseWatchdog port s
  | .pauseHoldoffEnd port => Sys2Proof.Machine.execPauseHoldoffEnd port s
  | .linkDown port up => Sys2Proof.Machine.execLinkDown port up s
  | .wakeFrame frame => Sys2Proof.Machine.execWakeFrame frame s
  | .wakeTimer => Sys2Proof.Machine.execWakeTimer s
  | .ptpTimeAvailable time => Sys2Proof.Machine.execPtpTimeAvailable time s
  | .ptpTimeLost time => Sys2Proof.Machine.execPtpTimeLost time s
  | .holdoverLong => Sys2Proof.Machine.execHoldoverLong s
  | .dpllLock target phase ppb => Sys2Proof.Machine.execDpllLock target phase ppb s
  | .ptpTimeReturn time phase => Sys2Proof.Machine.execPtpTimeReturn time phase s
  | .realignStep target => Sys2Proof.Machine.execRealignStep target s
  | .censusProbe answers => Sys2Proof.Machine.execCensusProbe answers s
  | .censusReadComplete module bytes => Sys2Proof.Machine.execCensusReadComplete module bytes s
  | .censusReadRetry module => Sys2Proof.Machine.execCensusReadRetry module s
  | .i2cBusStuck bus freed => Sys2Proof.Machine.execI2cBusStuck bus freed s
  | .stageDmirReadComplete link => Sys2Proof.Machine.execStageDmirReadComplete link s
  | .stageDmirRetry link => Sys2Proof.Machine.execStageDmirRetry link s
  | .octotFrameReceive lane good header recs => Sys2Proof.Machine.execOctotFrameReceive lane good header recs s
  | .forwardedCommandApply => Sys2Proof.Machine.execForwardedCommandApply s
  | .octotLane lane => Sys2Proof.Machine.execOctotLane lane s
  | .twinStartWait => Sys2Proof.Machine.execTwinStartWait s
  | .twinRunInEnd => Sys2Proof.Machine.execTwinRunInEnd s
  | .seedItemTimeout block => Sys2Proof.Machine.execSeedItemTimeout block s
  | .twinReady => Sys2Proof.Machine.execTwinReady s
  | .joinFailed => Sys2Proof.Machine.execJoinFailed s
  | .twinAutoRejoin => Sys2Proof.Machine.execTwinAutoRejoin s
  | .twinDecision => Sys2Proof.Machine.execTwinDecision s
  | .twinPromotion => Sys2Proof.Machine.execTwinPromotion s
  | .twinClaimDrop => Sys2Proof.Machine.execTwinClaimDrop s
  | .kioskDoorbell kiosk plain => Sys2Proof.Machine.execKioskDoorbell kiosk plain s
  | .kiosk0Ack => Sys2Proof.Machine.execKiosk0Ack s
  | .kiosk0EventPost => Sys2Proof.Machine.execKiosk0EventPost s
  | .sysVersion kiosk => Sys2Proof.Machine.execSysVersion kiosk s
  | .sysEcho kiosk => Sys2Proof.Machine.execSysEcho kiosk s
  | .sysEventConfig kiosk => Sys2Proof.Machine.execSysEventConfig kiosk s
  | .sysLogStatus kiosk => Sys2Proof.Machine.execSysLogStatus kiosk s
  | .sysTime kiosk secs ns => Sys2Proof.Machine.execSysTime kiosk secs ns s
  | .sysKioskStatus kiosk => Sys2Proof.Machine.execSysKioskStatus kiosk s
  | .planLoad kiosk => Sys2Proof.Machine.execPlanLoad kiosk s
  | .planVerify kiosk => Sys2Proof.Machine.execPlanVerify kiosk s
  | .planStatus kiosk => Sys2Proof.Machine.execPlanStatus kiosk s
  | .planLatencyRead kiosk => Sys2Proof.Machine.execPlanLatencyRead kiosk s
  | .planBlockInsert kiosk => Sys2Proof.Machine.execPlanBlockInsert kiosk s
  | .planBlockRemove kiosk => Sys2Proof.Machine.execPlanBlockRemove kiosk s
  | .planEqBypass kiosk => Sys2Proof.Machine.execPlanEqBypass kiosk s
  | .planUnload kiosk => Sys2Proof.Machine.execPlanUnload kiosk s
  | .xpNodeWrite kiosk => Sys2Proof.Machine.execXpNodeWrite kiosk s
  | .xpNodeRead kiosk => Sys2Proof.Machine.execXpNodeRead kiosk s
  | .xpStepTimeout kiosk => Sys2Proof.Machine.execXpStepTimeout kiosk s
  | .xpQueueStatus kiosk => Sys2Proof.Machine.execXpQueueStatus kiosk s
  | .xpSceneCommit kiosk => Sys2Proof.Machine.execXpSceneCommit kiosk s
  | .xpSceneDiscard kiosk => Sys2Proof.Machine.execXpSceneDiscard kiosk s
  | .xpSatRead kiosk => Sys2Proof.Machine.execXpSatRead kiosk s
  | .xpOvlDefine kiosk => Sys2Proof.Machine.execXpOvlDefine kiosk s
  | .xpOvlClear kiosk => Sys2Proof.Machine.execXpOvlClear kiosk s
  | .xpOvlSet kiosk => Sys2Proof.Machine.execXpOvlSet kiosk s
  | .xpOvlBind kiosk => Sys2Proof.Machine.execXpOvlBind kiosk s
  | .xpOvlStatus kiosk => Sys2Proof.Machine.execXpOvlStatus kiosk s
  | .xpAlleyStatus kiosk => Sys2Proof.Machine.execXpAlleyStatus kiosk s
  | .blkParamWrite kiosk => Sys2Proof.Machine.execBlkParamWrite kiosk s
  | .blkParamRead kiosk => Sys2Proof.Machine.execBlkParamRead kiosk s
  | .blkCoefWrite kiosk => Sys2Proof.Machine.execBlkCoefWrite kiosk s
  | .blkSosWrite kiosk => Sys2Proof.Machine.execBlkSosWrite kiosk s
  | .blkStatus kiosk => Sys2Proof.Machine.execBlkStatus kiosk s
  | .playerStart kiosk => Sys2Proof.Machine.execPlayerStart kiosk s
  | .playerStop kiosk => Sys2Proof.Machine.execPlayerStop kiosk s
  | .playerStatus kiosk => Sys2Proof.Machine.execPlayerStatus kiosk s
  | .playerBind kiosk => Sys2Proof.Machine.execPlayerBind kiosk s
  | .dspStatus kiosk => Sys2Proof.Machine.execDspStatus kiosk s
  | .dspPlacementRead kiosk => Sys2Proof.Machine.execDspPlacementRead kiosk s
  | .dspDistrictRead kiosk => Sys2Proof.Machine.execDspDistrictRead kiosk s
  | .dspThresholds kiosk => Sys2Proof.Machine.execDspThresholds kiosk s
  | .dspAuditConfig kiosk => Sys2Proof.Machine.execDspAuditConfig kiosk s
  | .dspHealthExport kiosk => Sys2Proof.Machine.execDspHealthExport kiosk s
  | .dspHealthImport kiosk => Sys2Proof.Machine.execDspHealthImport kiosk s
  | .drvLinkConfig kiosk => Sys2Proof.Machine.execDrvLinkConfig kiosk s
  | .drvLinkStatus kiosk => Sys2Proof.Machine.execDrvLinkStatus kiosk s
  | .drvStageSet kiosk => Sys2Proof.Machine.execDrvStageSet kiosk s
  | .drvCtlRaw kiosk => Sys2Proof.Machine.execDrvCtlRaw kiosk s
  | .drvThermalSet kiosk => Sys2Proof.Machine.execDrvThermalSet kiosk s
  | .drvPilotSet kiosk => Sys2Proof.Machine.execDrvPilotSet kiosk s
  | .drvKerbSet kiosk => Sys2Proof.Machine.execDrvKerbSet kiosk s
  | .drvZLimits kiosk => Sys2Proof.Machine.execDrvZLimits kiosk s
  | .drvMonitorRead kiosk => Sys2Proof.Machine.execDrvMonitorRead kiosk s
  | .drvChannelCtl kiosk => Sys2Proof.Machine.execDrvChannelCtl kiosk s
  | .drvCalWrite kiosk => Sys2Proof.Machine.execDrvCalWrite kiosk s
  | .netPortConfig kiosk => Sys2Proof.Machine.execNetPortConfig kiosk s
  | .netPortStatus kiosk => Sys2Proof.Machine.execNetPortStatus kiosk s
  | .netRingOwner kiosk => Sys2Proof.Machine.execNetRingOwner kiosk s
  | .netFilterSet kiosk => Sys2Proof.Machine.execNetFilterSet kiosk s
  | .netRxOpen kiosk => Sys2Proof.Machine.execNetRxOpen kiosk s
  | .netTxOpen kiosk => Sys2Proof.Machine.execNetTxOpen kiosk s
  | .netStreamClose kiosk => Sys2Proof.Machine.execNetStreamClose kiosk s
  | .netStreamStatus kiosk => Sys2Proof.Machine.execNetStreamStatus kiosk s
  | .netStatsRead kiosk => Sys2Proof.Machine.execNetStatsRead kiosk s
  | .netPtpConfig kiosk => Sys2Proof.Machine.execNetPtpConfig kiosk s
  | .netPtpStatus kiosk offset delay => Sys2Proof.Machine.execNetPtpStatus kiosk offset delay s
  | .netWakeSet kiosk => Sys2Proof.Machine.execNetWakeSet kiosk s
  | .netMacsecSet kiosk => Sys2Proof.Machine.execNetMacsecSet kiosk s
  | .lioPortConfig kiosk => Sys2Proof.Machine.execLioPortConfig kiosk s
  | .lioMclkSet kiosk => Sys2Proof.Machine.execLioMclkSet kiosk s
  | .censusRun kiosk => Sys2Proof.Machine.execCensusRun kiosk s
  | .censusSummary kiosk => Sys2Proof.Machine.execCensusSummary kiosk s
  | .censusRead kiosk => Sys2Proof.Machine.execCensusRead kiosk s
  | .censusPlanCheck kiosk => Sys2Proof.Machine.execCensusPlanCheck kiosk s
  | .twinStatusRead kiosk => Sys2Proof.Machine.execTwinStatusRead kiosk s
  | .twinPolicy kiosk => Sys2Proof.Machine.execTwinPolicy kiosk s
  | .twinJoin kiosk => Sys2Proof.Machine.execTwinJoin kiosk s
  | .twinPromote kiosk => Sys2Proof.Machine.execTwinPromote kiosk s
  | .twinYield kiosk => Sys2Proof.Machine.execTwinYield kiosk s
  | .twinResolve kiosk => Sys2Proof.Machine.execTwinResolve kiosk s
  | .twinMismatchRead kiosk => Sys2Proof.Machine.execTwinMismatchRead kiosk s
  | .twinAddress kiosk => Sys2Proof.Machine.execTwinAddress kiosk s
  | .clkStatusRead kiosk => Sys2Proof.Machine.execClkStatusRead kiosk s
  | .clkRateSet kiosk newFirst => Sys2Proof.Machine.execClkRateSet kiosk newFirst s
  | .rateChangeFirstTick => Sys2Proof.Machine.execRateChangeFirstTick s
  | .clkDpllConfig kiosk => Sys2Proof.Machine.execClkDpllConfig kiosk s
  | .clkRealign kiosk => Sys2Proof.Machine.execClkRealign kiosk s
  | .clkMeasure kiosk => Sys2Proof.Machine.execClkMeasure kiosk s
  | .clkMeasureComplete count => Sys2Proof.Machine.execClkMeasureComplete count s
  | .clkGateSet kiosk => Sys2Proof.Machine.execClkGateSet kiosk s
  | .gateCloseTimeout gate => Sys2Proof.Machine.execGateCloseTimeout gate s
  | .gateCloseAck gate => Sys2Proof.Machine.execGateCloseAck gate s
  | .pwrStateSet kiosk => Sys2Proof.Machine.execPwrStateSet kiosk s
  | .powerStateEffect => Sys2Proof.Machine.execPowerStateEffect s
  | .retainEnter => Sys2Proof.Machine.execRetainEnter s
  | .wakeComplete periods => Sys2Proof.Machine.execWakeComplete periods s
  | .pwrVcore kiosk => Sys2Proof.Machine.execPwrVcore kiosk s
  | .pwrReset kiosk => Sys2Proof.Machine.execPwrReset kiosk s
  | .pwrPinmapRead kiosk => Sys2Proof.Machine.execPwrPinmapRead kiosk s
  | .pwrPinmapProgram kiosk => Sys2Proof.Machine.execPwrPinmapProgram kiosk s
  | .fltStatusRead kiosk => Sys2Proof.Machine.execFltStatusRead kiosk s
  | .fltSourceRead kiosk => Sys2Proof.Machine.execFltSourceRead kiosk s
  | .fltInject kiosk => Sys2Proof.Machine.execFltInject kiosk s
  | .fltInjectCancel kiosk => Sys2Proof.Machine.execFltInjectCancel kiosk s
  | .fltInjectStatus kiosk => Sys2Proof.Machine.execFltInjectStatus kiosk s
  | .injectionWindowEnd => Sys2Proof.Machine.execInjectionWindowEnd s
  | .secStatus kiosk => Sys2Proof.Machine.execSecStatus kiosk s
  | .secIdentity kiosk => Sys2Proof.Machine.execSecIdentity kiosk s
  | .secSessionOpen kiosk entropy keys => Sys2Proof.Machine.execSecSessionOpen kiosk entropy keys s
  | .secSessionAuth kiosk entropy signature keys => Sys2Proof.Machine.execSecSessionAuth kiosk entropy signature keys s
  | .secSessionClose kiosk => Sys2Proof.Machine.execSecSessionClose kiosk s
  | .secEnrol kiosk => Sys2Proof.Machine.execSecEnrol kiosk s
  | .secLibKeySet kiosk => Sys2Proof.Machine.execSecLibKeySet kiosk s
  | .secLibConfig kiosk => Sys2Proof.Machine.execSecLibConfig kiosk s
  | .secLibVerify kiosk => Sys2Proof.Machine.execSecLibVerify kiosk s
  | .secKeyLoad kiosk check => Sys2Proof.Machine.execSecKeyLoad kiosk check s
  | .secKeyErase kiosk => Sys2Proof.Machine.execSecKeyErase kiosk s
  | .secRollbackCommit kiosk => Sys2Proof.Machine.execSecRollbackCommit kiosk s
  | .secApproved kiosk => Sys2Proof.Machine.execSecApproved kiosk s
  | .secZeroise kiosk => Sys2Proof.Machine.execSecZeroise kiosk s
  | .secDebugUnlock kiosk => Sys2Proof.Machine.execSecDebugUnlock kiosk s
  | .sessionIdleTimeout => Sys2Proof.Machine.execSessionIdleTimeout s
  | .sessionAuthTimeout => Sys2Proof.Machine.execSessionAuthTimeout s
  | .sessionLockoutEnd => Sys2Proof.Machine.execSessionLockoutEnd s
  | .smSelftestComplete ok => Sys2Proof.Machine.execSmSelftestComplete ok s
  | .smConditionalTestFail => Sys2Proof.Machine.execSmConditionalTestFail s
  | .smGlitch clock => Sys2Proof.Machine.execSmGlitch clock s
  | .smTamper detector => Sys2Proof.Machine.execSmTamper detector s
  | .bulkOpen kiosk => Sys2Proof.Machine.execBulkOpen kiosk s
  | .bulkClose kiosk => Sys2Proof.Machine.execBulkClose kiosk s
  | .bulkStatus kiosk => Sys2Proof.Machine.execBulkStatus kiosk s
  | .bulkCrc kiosk => Sys2Proof.Machine.execBulkCrc kiosk s
  | .bulkSpaceInfo kiosk => Sys2Proof.Machine.execBulkSpaceInfo kiosk s
  | .z640Info kiosk => Sys2Proof.Machine.execZ640Info kiosk s
  | .z640ViewSet kiosk => Sys2Proof.Machine.execZ640ViewSet kiosk s
  | .z640XpWrite kiosk => Sys2Proof.Machine.execZ640XpWrite kiosk s
  | .z640XpRead kiosk => Sys2Proof.Machine.execZ640XpRead kiosk s
  | .z640StripMute kiosk => Sys2Proof.Machine.execZ640StripMute kiosk s
  | .z640Recall kiosk => Sys2Proof.Machine.execZ640Recall kiosk s
  | .z640Status kiosk => Sys2Proof.Machine.execZ640Status kiosk s
  | .dataPortWrite channel offset data => Sys2Proof.Machine.execDataPortWrite channel offset data s
  | .dataPortRead channel offset length ded => Sys2Proof.Machine.execDataPortRead channel offset length ded s
  | .dpBurstIdleEnd channel => Sys2Proof.Machine.execDpBurstIdleEnd channel s
  | .dpCommit channel => Sys2Proof.Machine.execDpCommit channel s
  | .dpAddrWrite channel value => Sys2Proof.Machine.execDpAddrWrite channel value s
  | .dpErrorClear channel => Sys2Proof.Machine.execDpErrorClear channel s
  | .sampleCountRead => Sys2Proof.Machine.execSampleCountRead s
  | .readClearRegister offset => Sys2Proof.Machine.execReadClearRegister offset s
  | .fwLoadWrite value => Sys2Proof.Machine.execFwLoadWrite value s
  | .stagingWindowWrite offset data => Sys2Proof.Machine.execStagingWindowWrite offset data s
  | .fwVerifyComplete verdict build smVersion => Sys2Proof.Machine.execFwVerifyComplete verdict build smVersion s
  | .fwReady => Sys2Proof.Machine.execFwReady s
  | .logMarkWrite value => Sys2Proof.Machine.execLogMarkWrite value s
  | .ringProdWrite ring fw prod mem => Sys2Proof.Machine.execRingProdWrite ring fw prod mem s
  | .ringEnable ring fw ctrl => Sys2Proof.Machine.execRingEnable ring fw ctrl s
  | .fltNfaultWrite value => Sys2Proof.Machine.execFltNfaultWrite value s
  | .sysRemapWrite master value => Sys2Proof.Machine.execSysRemapWrite master value s
  | .registerWrite offset data => Sys2Proof.Machine.execRegisterWrite offset data s
  | .spiWrite addr data plain => Sys2Proof.Machine.execSpiWrite addr data plain s
  | .spiRead addr length => Sys2Proof.Machine.execSpiRead addr length s
  | .spiStatus => Sys2Proof.Machine.execSpiStatus s
  | .matrixTransaction tx => Sys2Proof.Machine.execMatrixTransaction tx s
  | .masterReset master => Sys2Proof.Machine.execMasterReset master s
  | .pcieFlr => Sys2Proof.Machine.execPcieFlr s
  | .faultLineScan broken => Sys2Proof.Machine.execFaultLineScan broken s
  | .firmwareFaultReport => Sys2Proof.Machine.execFirmwareFaultReport s
  | .nfaultPulseEnd => Sys2Proof.Machine.execNfaultPulseEnd s
  | .faultMergeFlush => Sys2Proof.Machine.execFaultMergeFlush s
  | .powerOnReset => Sys2Proof.Machine.execPowerOnReset s
  | .powerOnResetRelease => Sys2Proof.Machine.execPowerOnResetRelease s
  | .rcStable unit => Sys2Proof.Machine.execRcStable unit s
  | .bootcfgMeasure counts => Sys2Proof.Machine.execBootcfgMeasure counts s
  | .crystalDelayEnd refGood => Sys2Proof.Machine.execCrystalDelayEnd refGood s
  | .pllLock pll => Sys2Proof.Machine.execPllLock pll s
  | .ddrTrainingComplete ok cap rate => Sys2Proof.Machine.execDdrTrainingComplete ok cap rate s
  | .ddrRetrain => Sys2Proof.Machine.execDdrRetrain s
  | .quarterRelease failed => Sys2Proof.Machine.execQuarterRelease failed s
  | .districtFail district => Sys2Proof.Machine.execDistrictFail district s
  | .nresetLow ns taken => Sys2Proof.Machine.execNresetLow ns taken s
  | .pciePerst high => Sys2Proof.Machine.execPciePerst high s
  | .fwWatchdog => Sys2Proof.Machine.execFwWatchdog s
  | .nolutRestartComplete verdict => Sys2Proof.Machine.execNolutRestartComplete verdict s
  | .clockMonitorTrip monitor => Sys2Proof.Machine.execClockMonitorTrip monitor s
  | .clockMonitorRecover monitor => Sys2Proof.Machine.execClockMonitorRecover monitor s
  | .secLibVerifyComplete verdict => Sys2Proof.Machine.execSecLibVerifyComplete verdict s
  | .bootImageLoaded image => Sys2Proof.Machine.execBootImageLoaded image s
  | .networkBootTimeout => Sys2Proof.Machine.execNetworkBootTimeout s
  | .commandedReset => Sys2Proof.Machine.execCommandedReset s
  | .fwHeartbeatIncrement => Sys2Proof.Machine.execFwHeartbeatIncrement s

end Sys2Proof.Machine
end

