-- ==== Sys2Proof/Safety.lean ====
section
/-! DEFINITION. What counts as a safe run, and the terms in which the statements speak of commands. -/

namespace Sys2Proof

open Machine

/-- The command completes: it answers a next state. -/
def Completes (c : Instr) (s : State) : Prop := ∃ t, exec c s = .next t

/-- A step neither faults nor refuses. -/
def StepSafe (s : State) : Prop := ∃ t, step s = .next t

/-- Every command of a list completes in turn. -/
def RunSafe : List Instr → State → Prop
  | [], _ => True
  | c :: l, s => ∃ t, exec c s = .next t ∧ RunSafe l t

/-- The byte memory has its canonical form. -/
def MemInv (s : State) : Prop := memWf s.mat.mem = true

/-! ### Commands of a Kiosk (11 R357 to R359, 10 R319) -/

/-- The state in which an accepted command begins its effect: it is counted, a claimant whose Octot link is down runs
ahead of its peer, and the Kiosk holds the request as taken in its effect wave. -/
def begun (code k : Nat) (fwd : Bool) (r : Req) (s : State) : State :=
  let s := s.onHost fun h => { h with accepted := satAdd h.accepted 1 }
  let s := if fwd && s.twin.pair && s.twin.active then s.onTwin fun t => { t with ahead := true } else s
  onKiosk k (fun q => { q with req := some { r with taken := true, wave := effWave code r.payload (sampleNow s) } }) s

/-- The state in which an accepted command waits to take effect in both units, two waves on (10 R319). -/
def queuedForBoth (code k : Nat) (r : Req) (s : State) : State :=
  let fr : FwdRec := { type := 1, code := code, wave := sampleNow s + 2, bytes := r.payload, kiosk := k }
  let s := s.onHost fun h => { h with accepted := satAdd h.accepted 1 }
  onKiosk k (fun q => { q with req := some { r with
      taken := true
      forwarded := true
      wave := effWave code r.payload (sampleNow s + 1) } })
    (s.onTwin fun t => { t with fwdOut := t.fwdOut ++ [fr], fwdIn := t.fwdIn ++ [fr] })

/-- The request `r` waits on Kiosk `k` for the command of this code, the epoch that it expects is in force, and the
command's own checks pass. -/
def Accepts (code k : Nat) (check : List Byte → State → Option Fail) (r : Req) (s : State) : Prop :=
  heldReq code k s = some r ∧ epochOk r s = true ∧ check r.payload s = none

/-- An accepted request has the command's effect at once, and its response when it has one; a forwarded command of a
claimant whose Octot link is up is queued for both units instead. -/
def RunsOn (c : Instr) (code k : Nat) (fwd : List Byte → Bool) (check : List Byte → State → Option Fail)
    (effect : Nat → List Byte → State → Effect) : Prop :=
  ∀ (s : State) (r : Req), Accepts code k check r s →
    exec c s = .next (if fwd r.payload = true ∧ forwards s = true then queuedForBoth code k r s
      else settle k (effect k r.payload (begun code k (fwd r.payload) r s)))

/-- What sets the commands of the Kiosks apart (11 R359, R361; 10 R319). -/
structure KioskRow where
  /-- Command code. -/
  code : Nat
  /-- Kiosk. -/
  kiosk : Nat
  /-- A request with this payload is a forwarded one. -/
  fwd : List Byte → Bool
  /-- The command's own checks. -/
  check : List Byte → State → Option Fail
  /-- The command's effect. -/
  effect : Nat → List Byte → State → Effect

/-- Code, Kiosk, forwarding, checks and effect of a command of a Kiosk. -/
def kioskRow : Instr → Option KioskRow
  | .sysVersion k => some ⟨0x0001, k.val, fwdNever, emptyCheck, sysVersionEffect⟩
  | .sysEcho k => some ⟨0x0002, k.val, fwdNever, (fun _ _ => none), sysEchoEffect⟩
  | .sysEventConfig k => some ⟨0x0003, k.val, fwdNever, sysEventConfigCheck, sysEventConfigEffect⟩
  | .sysLogStatus k => some ⟨0x0004, k.val, fwdNever, emptyCheck, sysLogStatusEffect⟩
  | .sysTime k secs ns => some ⟨0x0005, k.val, fwdNever, emptyCheck, (sysTimeEffect secs ns)⟩
  | .sysKioskStatus k => some ⟨0x0006, k.val, fwdNever, emptyCheck, sysKioskStatusEffect⟩
  | .planLoad k => some ⟨0x0101, k.val, fwdAlways, planLoadCheck, planLoadEffect⟩
  | .planVerify k => some ⟨0x0102, k.val, fwdNever, planVerifyCheck, planVerifyEffect⟩
  | .planStatus k => some ⟨0x0103, k.val, fwdNever, emptyCheck, planStatusEffect⟩
  | .planLatencyRead k => some ⟨0x0104, k.val, fwdNever, planLatencyReadCheck, planLatencyReadEffect⟩
  | .planBlockInsert k => some ⟨0x0105, k.val, fwdAlways, planBlockInsertCheck, planBlockInsertEffect⟩
  | .planBlockRemove k => some ⟨0x0106, k.val, fwdAlways, planBlockRemoveCheck, planBlockRemoveEffect⟩
  | .planEqBypass k => some ⟨0x0107, k.val, fwdAlways, planEqBypassCheck, planEqBypassEffect⟩
  | .planUnload k => some ⟨0x0108, k.val, fwdAlways, emptyCheck, planUnloadEffect⟩
  | .xpNodeWrite k => some ⟨0x0201, k.val, fwdAlways, xpNodeWriteCheck, xpNodeWriteEffect⟩
  | .xpNodeRead k => some ⟨0x0202, k.val, fwdNever, xpNodeReadCheck, xpNodeReadEffect⟩
  | .xpStepTimeout k => some ⟨0x0203, k.val, (fun p => byteAt p 0 != 0), xpStepTimeoutCheck, xpStepTimeoutEffect⟩
  | .xpQueueStatus k => some ⟨0x0204, k.val, fwdNever, xpQueueStatusCheck, xpQueueStatusEffect⟩
  | .xpSceneCommit k => some ⟨0x0205, k.val, fwdAlways, xpSceneCommitCheck, xpSceneCommitEffect⟩
  | .xpSceneDiscard k => some ⟨0x0206, k.val, fwdAlways, xpSceneDiscardCheck, xpSceneDiscardEffect⟩
  | .xpSatRead k => some ⟨0x0207, k.val, fwdNever, xpSatReadCheck, xpSatReadEffect⟩
  | .xpOvlDefine k => some ⟨0x0210, k.val, fwdAlways, xpOvlDefineCheck, xpOvlDefineEffect⟩
  | .xpOvlClear k => some ⟨0x0211, k.val, fwdAlways, xpOvlClearCheck, xpOvlClearEffect⟩
  | .xpOvlSet k => some ⟨0x0212, k.val, fwdAlways, xpOvlSetCheck, xpOvlSetEffect⟩
  | .xpOvlBind k => some ⟨0x0213, k.val, fwdAlways, xpOvlBindCheck, xpOvlBindEffect⟩
  | .xpOvlStatus k => some ⟨0x0214, k.val, fwdNever, emptyCheck, xpOvlStatusEffect⟩
  | .xpAlleyStatus k => some ⟨0x0218, k.val, fwdNever, xpAlleyStatusCheck, xpAlleyStatusEffect⟩
  | .blkParamWrite k => some ⟨0x0301, k.val, fwdAlways, blkParamWriteCheck, blkParamWriteEffect⟩
  | .blkParamRead k => some ⟨0x0302, k.val, fwdNever, blkParamReadCheck, blkParamReadEffect⟩
  | .blkCoefWrite k => some ⟨0x0303, k.val, fwdAlways, blkCoefWriteCheck, blkCoefWriteEffect⟩
  | .blkSosWrite k => some ⟨0x0304, k.val, fwdAlways, blkSosWriteCheck, blkSosWriteEffect⟩
  | .blkStatus k => some ⟨0x0305, k.val, fwdNever, blkStatusCheck, blkStatusEffect⟩
  | .playerStart k => some ⟨0x0310, k.val, fwdAlways, playerStartCheck, playerStartEffect⟩
  | .playerStop k => some ⟨0x0311, k.val, fwdAlways, playerStopCheck, playerStopEffect⟩
  | .playerStatus k => some ⟨0x0312, k.val, fwdNever, playerStatusCheck, playerStatusEffect⟩
  | .playerBind k => some ⟨0x0313, k.val, fwdAlways, playerBindCheck, playerBindEffect⟩
  | .dspStatus k => some ⟨0x0401, k.val, fwdNever, dspStatusCheck, dspStatusEffect⟩
  | .dspPlacementRead k => some ⟨0x0402, k.val, fwdNever, dspPlacementReadCheck, dspPlacementReadEffect⟩
  | .dspDistrictRead k => some ⟨0x0403, k.val, fwdNever, dspDistrictReadCheck, dspDistrictReadEffect⟩
  | .dspThresholds k => some ⟨0x0404, k.val, fwdNever, dspThresholdsCheck, dspThresholdsEffect⟩
  | .dspAuditConfig k => some ⟨0x0405, k.val, fwdNever, dspAuditConfigCheck, dspAuditConfigEffect⟩
  | .dspHealthExport k => some ⟨0x0406, k.val, fwdNever, dspHealthExportCheck, dspHealthExportEffect⟩
  | .dspHealthImport k => some ⟨0x0407, k.val, fwdNever, dspHealthImportCheck, dspHealthImportEffect⟩
  | .drvLinkConfig k => some ⟨0x0501, k.val, fwdWrites, drvLinkConfigCheck, drvLinkConfigEffect⟩
  | .drvLinkStatus k => some ⟨0x0502, k.val, fwdNever, drvLinkStatusCheck, drvLinkStatusEffect⟩
  | .drvStageSet k => some ⟨0x0503, k.val, fwdNever, drvStageSetCheck, drvStageSetEffect⟩
  | .drvCtlRaw k => some ⟨0x0504, k.val, fwdNever, drvCtlRawCheck, drvCtlRawEffect⟩
  | .drvThermalSet k => some ⟨0x0505, k.val, fwdOp1, drvThermalSetCheck, drvThermalSetEffect⟩
  | .drvPilotSet k => some ⟨0x0506, k.val, fwdOp1, drvPilotSetCheck, drvPilotSetEffect⟩
  | .drvKerbSet k => some ⟨0x0507, k.val, fwdOp1, drvKerbSetCheck, drvKerbSetEffect⟩
  | .drvZLimits k => some ⟨0x0508, k.val, fwdOp1, drvZLimitsCheck, drvZLimitsEffect⟩
  | .drvMonitorRead k => some ⟨0x0509, k.val, fwdNever, drvMonitorReadCheck, drvMonitorReadEffect⟩
  | .drvChannelCtl k => some ⟨0x050A, k.val, fwdAlways, drvChannelCtlCheck, drvChannelCtlEffect⟩
  | .drvCalWrite k => some ⟨0x050B, k.val, fwdOp1, drvCalWriteCheck, drvCalWriteEffect⟩
  | .netPortConfig k => some ⟨0x0601, k.val, fwdNever, netPortConfigCheck, netPortConfigEffect⟩
  | .netPortStatus k => some ⟨0x0602, k.val, fwdNever, (portOnlyCheck 5), netPortStatusEffect⟩
  | .netRingOwner k => some ⟨0x0603, k.val, fwdNever, netRingOwnerCheck, netRingOwnerEffect⟩
  | .netFilterSet k => some ⟨0x0604, k.val, fwdNever, netFilterSetCheck, netFilterSetEffect⟩
  | .netRxOpen k => some ⟨0x0605, k.val, fwdNever, netRxOpenCheck, netRxOpenEffect⟩
  | .netTxOpen k => some ⟨0x0606, k.val, fwdNever, netTxOpenCheck, netTxOpenEffect⟩
  | .netStreamClose k => some ⟨0x0607, k.val, fwdNever, (streamCheck 1), netStreamCloseEffect⟩
  | .netStreamStatus k => some ⟨0x0608, k.val, fwdNever, (streamCheck 2), netStreamStatusEffect⟩
  | .netStatsRead k => some ⟨0x0609, k.val, fwdNever, (portOnlyCheck 5), netStatsReadEffect⟩
  | .netPtpConfig k => some ⟨0x060A, k.val, fwdNever, netPtpConfigCheck, netPtpConfigEffect⟩
  | .netPtpStatus k _ _ => some ⟨0x060B, k.val, fwdNever, emptyReq, netPtpStatusEffect⟩
  | .netWakeSet k => some ⟨0x060C, k.val, fwdNever, netWakeSetCheck, netWakeSetEffect⟩
  | .netMacsecSet k => some ⟨0x060D, k.val, fwdNever, netMacsecSetCheck, netMacsecSetEffect⟩
  | .lioPortConfig k => some ⟨0x0701, k.val, fwdNever, lioPortConfigCheck, lioPortConfigEffect⟩
  | .lioMclkSet k => some ⟨0x0702, k.val, fwdNever, lioMclkSetCheck, lioMclkSetEffect⟩
  | .censusRun k => some ⟨0x0703, k.val, fwdNever, censusRunCheck, censusRunEffect⟩
  | .censusSummary k => some ⟨0x0704, k.val, fwdNever, emptyReq, censusSummaryEffect⟩
  | .censusRead k => some ⟨0x0705, k.val, fwdNever, censusReadCheck, censusReadEffect⟩
  | .censusPlanCheck k => some ⟨0x0706, k.val, fwdNever, censusPlanCheckCheck, censusPlanCheckEffect⟩
  | .twinStatusRead k => some ⟨0x0801, k.val, fwdNever, emptyReq, twinStatusReadEffect⟩
  | .twinPolicy k => some ⟨0x0802, k.val, fwdNever, twinPolicyCheck, twinPolicyEffect⟩
  | .twinJoin k => some ⟨0x0803, k.val, fwdNever, twinJoinCheck, twinJoinEffect⟩
  | .twinPromote k => some ⟨0x0804, k.val, fwdNever, twinPromoteCheck, twinPromoteEffect⟩
  | .twinYield k => some ⟨0x0805, k.val, fwdNever, twinYieldCheck, twinYieldEffect⟩
  | .twinResolve k => some ⟨0x0806, k.val, fwdNever, twinResolveCheck, twinResolveEffect⟩
  | .twinMismatchRead k => some ⟨0x0807, k.val, fwdNever, twinMismatchReadCheck, twinMismatchReadEffect⟩
  | .twinAddress k => some ⟨0x0808, k.val, fwdNever, twinAddressCheck, twinAddressEffect⟩
  | .clkStatusRead k => some ⟨0x0901, k.val, fwdNever, clkStatusReadCheck, clkStatusReadEffect⟩
  | .clkRateSet k newFirst => some ⟨0x0902, k.val, fwdNever, clkRateSetCheck, (clkRateSetEffect newFirst)⟩
  | .clkDpllConfig k => some ⟨0x0903, k.val, fwdNever, clkDpllConfigCheck, clkDpllConfigEffect⟩
  | .clkRealign k => some ⟨0x0904, k.val, fwdNever, clkRealignCheck, clkRealignEffect⟩
  | .clkMeasure k => some ⟨0x0905, k.val, fwdNever, clkMeasureCheck, clkMeasureEffect⟩
  | .clkGateSet k => some ⟨0x0906, k.val, fwdNever, clkGateSetCheck, clkGateSetEffect⟩
  | .pwrStateSet k => some ⟨0x0907, k.val, fwdNever, pwrStateSetCheck, pwrStateSetEffect⟩
  | .pwrVcore k => some ⟨0x0908, k.val, fwdNever, pwrVcoreCheck, pwrVcoreEffect⟩
  | .pwrReset k => some ⟨0x0909, k.val, fwdNever, pwrResetCheck, pwrResetEffect⟩
  | .pwrPinmapRead k => some ⟨0x090A, k.val, fwdNever, pwrPinmapReadCheck, pwrPinmapReadEffect⟩
  | .pwrPinmapProgram k => some ⟨0x090B, k.val, fwdNever, pwrPinmapProgramCheck, pwrPinmapProgramEffect⟩
  | .fltStatusRead k => some ⟨0x0A01, k.val, fwdNever, fltStatusReadCheck, fltStatusReadEffect⟩
  | .fltSourceRead k => some ⟨0x0A02, k.val, fwdNever, fltSourceReadCheck, fltSourceReadEffect⟩
  | .fltInject k => some ⟨0x0A03, k.val, fwdNever, fltInjectCheck, fltInjectEffect⟩
  | .fltInjectCancel k => some ⟨0x0A04, k.val, fwdNever, fltInjectCancelCheck, fltInjectCancelEffect⟩
  | .fltInjectStatus k => some ⟨0x0A05, k.val, fwdNever, fltInjectStatusCheck, fltInjectStatusEffect⟩
  | .secStatus k => some ⟨0x0B01, k.val, fwdNever, (fun p _ => paramCheck [lenIs p 0]), secStatusEffect⟩
  | .secIdentity k => some ⟨0x0B02, k.val, fwdNever, secIdentityCheck, secIdentityEffect⟩
  | .secSessionOpen k entropy _ =>
    some ⟨0x0B03, k.val, fwdNever, (secSessionOpenCheck k.val), (secSessionOpenEffect entropy)⟩
  | .secSessionAuth k entropy _ _ =>
    some ⟨0x0B04, k.val, fwdNever, (secSessionAuthCheck k.val), (secSessionAuthEffect entropy)⟩
  | .secSessionClose k => some ⟨0x0B05, k.val, fwdNever, (fun p _ => paramCheck [lenIs p 0]), secSessionCloseEffect⟩
  | .secEnrol k => some ⟨0x0B06, k.val, fwdNever, secEnrolCheck, secEnrolEffect⟩
  | .secLibKeySet k => some ⟨0x0B07, k.val, fwdNever, secLibKeySetCheck, secLibKeySetEffect⟩
  | .secLibConfig k => some ⟨0x0B08, k.val, fwdNever, secLibConfigCheck, secLibConfigEffect⟩
  | .secLibVerify k => some ⟨0x0B09, k.val, fwdNever, secLibVerifyCheck, secLibVerifyEffect⟩
  | .secKeyLoad k _ => some ⟨0x0B0A, k.val, fwdNever, secKeyLoadCheck, secKeyLoadEffect⟩
  | .secKeyErase k => some ⟨0x0B0B, k.val, fwdNever, secKeyEraseCheck, secKeyEraseEffect⟩
  | .secRollbackCommit k => some ⟨0x0B0C, k.val, fwdNever, secRollbackCommitCheck, secRollbackCommitEffect⟩
  | .secApproved k => some ⟨0x0B0D, k.val, fwdNever, secApprovedCheck, secApprovedEffect⟩
  | .secZeroise k => some ⟨0x0B0E, k.val, fwdNever, secZeroiseCheck, secZeroiseEffect⟩
  | .secDebugUnlock k => some ⟨0x0B0F, k.val, fwdNever, secDebugUnlockCheck, secDebugUnlockEffect⟩
  | .bulkOpen k => some ⟨0x0C01, k.val, fwdNever, bulkOpenCheck, bulkOpenEffect⟩
  | .bulkClose k => some ⟨0x0C02, k.val, fwdNever, bulkCloseCheck, bulkCloseEffect⟩
  | .bulkStatus k => some ⟨0x0C03, k.val, fwdNever, bulkStatusCheck, bulkStatusEffect⟩
  | .bulkCrc k => some ⟨0x0C04, k.val, fwdNever, bulkCrcCheck, bulkCrcEffect⟩
  | .bulkSpaceInfo k => some ⟨0x0C05, k.val, fwdNever, bulkSpaceInfoCheck, bulkSpaceInfoEffect⟩
  | .z640Info k => some ⟨0x0D01, k.val, fwdNever, emptyCheck, z640InfoEffect⟩
  | .z640ViewSet k => some ⟨0x0D02, k.val, fwdNever, z640ViewSetCheck, z640ViewSetEffect⟩
  | .z640XpWrite k => some ⟨0x0D03, k.val, fwdAlways, z640XpWriteCheck, z640XpWriteEffect⟩
  | .z640XpRead k => some ⟨0x0D04, k.val, fwdNever, z640XpReadCheck, z640XpReadEffect⟩
  | .z640StripMute k => some ⟨0x0D05, k.val, fwdAlways, z640StripMuteCheck, z640StripMuteEffect⟩
  | .z640Recall k => some ⟨0x0D06, k.val, fwdAlways, z640RecallCheck, z640RecallEffect⟩
  | .z640Status k => some ⟨0x0D07, k.val, fwdNever, z640StatusCheck, z640StatusEffect⟩
  | _ => none

/-- The request as it is carried out at once. -/
def taken (r : Req) (s : State) : Req := { r with
  taken := true
  wave := effWave r.code r.payload (sampleNow s) }

/-- Kiosk `k` of `t` is DONE with the response of `r`: the header and the payload stand in its response buffer, and it
holds no request. -/
def Answered (k : Nat) (r : Req) (status detail : Nat) (payload : List Byte) (s t : State) : Prop :=
  let q := tget {} t.host.kiosks k
  q.st = 2 ∧ q.req = none ∧ q.tagDone = r.tag ∧
    bufBytes q.respBuf (16 + payload.length)
      = respHeader r.code r.tag.toNat payload.length (respEpoch r s) status detail ++ payload

/-- Nothing but the host interface differs. -/
def HostOnly (s t : State) : Prop := t = s.onHost fun _ => t.host

/-- A request that is not sealed, on a Kiosk whose response no reset has discarded. -/
def Plain (k : Nat) (r : Req) (s : State) : Prop := r.sealed = false ∧ (tget {} s.host.kiosks k).drop = false

/-- The command reads: an accepted plain request is answered OK at once with what the effect returns, and `only` says what else
may change. -/
def Reads (only : State → State → Prop) (c : Instr) : Prop :=
  ∀ (q : KioskRow) (s : State) (r : Req), kioskRow c = some q → Accepts q.code q.kiosk q.check r s → Plain q.kiosk r s →
    ∃ t p, (q.effect q.kiosk r.payload (begun q.code q.kiosk false r s)).2 = some p ∧ exec c s = .next t ∧
      only s t ∧ Answered q.kiosk (taken r s) 0 0 p s t

/-- The command only reads: nothing but the host interface changes. -/
def ReadsOnly (c : Instr) : Prop := Reads HostOnly c

/-- An accepted request that is not queued for both units leaves a state that `post` relates to its payload and to the state
before. -/
def Leaves (c : Instr) (post : List Byte → State → State → Prop) : Prop :=
  ∀ (q : KioskRow) (s : State) (r : Req), kioskRow c = some q → Accepts q.code q.kiosk q.check r s → forwards s = false →
    ∃ t, exec c s = .next t ∧ post r.payload s t

/-! ### Lanes (03 R97; 04 R128) -/

/-- The Lane and the double-bit-error operand of a command that issues a lane instruction. -/
def issuesOn : Instr → Option (Nat × Bool)
  | .nop lane ded => some (lane, ded)
  | .halt lane ded => some (lane, ded)
  | .rete lane ded => some (lane, ded)
  | .sosrun lane ded _ => some (lane, ded)
  | .soswait lane ded _ => some (lane, ded)
  | .mov lane ded _ _ => some (lane, ded)
  | .add lane ded _ _ _ => some (lane, ded)
  | .adds lane ded _ _ _ => some (lane, ded)
  | .sub lane ded _ _ _ => some (lane, ded)
  | .subs lane ded _ _ _ => some (lane, ded)
  | .neg lane ded _ _ => some (lane, ded)
  | .negs lane ded _ _ => some (lane, ded)
  | .abs lane ded _ _ => some (lane, ded)
  | .and lane ded _ _ _ => some (lane, ded)
  | .or lane ded _ _ _ => some (lane, ded)
  | .xor lane ded _ _ _ => some (lane, ded)
  | .not lane ded _ _ => some (lane, ded)
  | .ash lane ded _ _ _ => some (lane, ded)
  | .lsh lane ded _ _ _ => some (lane, ded)
  | .min lane ded _ _ _ => some (lane, ded)
  | .max lane ded _ _ _ => some (lane, ded)
  | .cmp lane ded _ _ => some (lane, ded)
  | .mulf lane ded _ _ _ => some (lane, ded)
  | .muli lane ded _ _ _ => some (lane, ded)
  | .addi lane ded _ _ _ => some (lane, ded)
  | .addsi lane ded _ _ _ => some (lane, ded)
  | .andi lane ded _ _ _ => some (lane, ded)
  | .ori lane ded _ _ _ => some (lane, ded)
  | .xori lane ded _ _ _ => some (lane, ded)
  | .ashi lane ded _ _ _ => some (lane, ded)
  | .lshi lane ded _ _ _ => some (lane, ded)
  | .cmpi lane ded _ _ => some (lane, ded)
  | .ldi lane ded _ _ => some (lane, ded)
  | .ldih lane ded _ _ => some (lane, ded)
  | .mpy lane ded _ _ _ _ _ _ => some (lane, ded)
  | .mac lane ded _ _ _ _ _ _ => some (lane, ded)
  | .msu lane ded _ _ _ _ _ _ => some (lane, ded)
  | .mpyn lane ded _ _ _ _ _ _ => some (lane, ded)
  | .pld lane ded _ _ => some (lane, ded)
  | .firtap lane ded _ _ _ _ _ => some (lane, ded)
  | .firtapn lane ded _ _ _ _ _ => some (lane, ded)
  | .ld lane ded _ _ _ => some (lane, ded)
  | .st lane ded _ _ _ => some (lane, ded)
  | .clra lane ded _ => some (lane, ded)
  | .movah lane ded _ _ => some (lane, ded)
  | .moval lane ded _ _ => some (lane, ded)
  | .movag lane ded _ _ => some (lane, ded)
  | .ldah lane ded _ _ => some (lane, ded)
  | .ldal lane ded _ _ => some (lane, ded)
  | .adda lane ded _ _ => some (lane, ded)
  | .suba lane ded _ _ => some (lane, ded)
  | .cpya lane ded _ _ => some (lane, ded)
  | .nega lane ded _ => some (lane, ded)
  | .asha lane ded _ _ => some (lane, ded)
  | .tsta lane ded _ => some (lane, ded)
  | .mvta lane ded _ _ _ => some (lane, ded)
  | .mvfa lane ded _ _ _ => some (lane, ded)
  | .lda lane ded _ _ _ => some (lane, ded)
  | .aadd lane ded _ _ => some (lane, ded)
  | .amod lane ded _ => some (lane, ded)
  | .mvtc lane ded _ _ => some (lane, ded)
  | .mvfc lane ded _ _ => some (lane, ded)
  | .j lane ded _ _ => some (lane, ded)
  | .call lane ded _ _ _ => some (lane, ded)
  | .jr lane ded _ _ => some (lane, ded)
  | .rep lane ded _ _ => some (lane, ded)
  | .loop lane ded _ _ => some (lane, ded)
  | .lpop lane ded => some (lane, ded)
  | .illegalOp lane ded _ => some (lane, ded)
  | _ => none

/-- A Lane as the instruction in its present slot sees it: with what the section unit has done by the slot, and with the results
visible in it. -/
def seenLane (s : State) (key : Nat) : LaneS :=
  let l := laneAt s key
  let u := sosAdvance l.slot (l.slot + 20) l
  settleTo u.slot u

/-- Registers and memories, the loop stacks aside. -/
def regsOf (c : LaneCtx) : LaneCtx := { c with
  main := { c.main with loops := [] }
  shad := { c.shad with loops := [] } }

/-- The command issues one instruction on a Lane: it takes `cost` slots, it brings the results `ws` on their way, each with
the number of slots after which it is visible, it makes its stores, and no other register or memory of the Lane changes. -/
def Issues (c : Instr) (s : State) (key : Nat) (ws : List (Nat × LaneWr)) (cost : Nat := 1)
    (stores : LaneS → LaneS := id) : Prop :=
  let l := seenLane s key
  ∃ t, exec c s = .next t ∧ (laneAt t key).slot = l.slot + cost ∧
    (laneAt t key).pend = l.pend ++ ws.map (fun w => { vis := l.slot + w.1, shad := l.shadow, w := w.2 }) ∧
    regsOf (laneAt t key).cur = regsOf (stores l).cur

/-- An exact value held in 36 bits: the nearer end of the range where it lies outside. -/
def clamp36 (x : Int) : W36 := BitVec.ofInt 36 (max (-(2 ^ 35)) (min (2 ^ 35 - 1) x))

/-- An exact value lies outside 36 bits. -/
def out36 (x : Int) : Bool := decide (x < -(2 ^ 35) ∨ 2 ^ 35 - 1 < x)

/-- A register result visible `n` slots later with N, Z, V and C. -/
def resultC (n : Nat) (d : BitVec 4) (v : W36) (ovf carry : Bool) : List (Nat × LaneWr) :=
  [(n, .d d v), (n, .flags 0b1111 (nzvc v.msb (v == 0) ovf carry))]

/-- A register result visible `n` slots later with N, Z and V; C keeps its value. -/
def resultV (n : Nat) (d : BitVec 4) (v : W36) (ovf : Bool) : List (Nat × LaneWr) :=
  [(n, .d d v), (n, .flags 0b1110 (nzvc v.msb (v == 0) ovf false))]

/-- SAT of LST is set with a result in which saturation acted. -/
def satWith (n : Nat) (sat : Bool) : List (Nat × LaneWr) := if sat then [(n, .sticky 0x400)] else []

/-- An exact sum held in an accumulator, visible two slots later; GV and the accumulator's GVAC where it left 80 bits. -/
def accResult (a : BitVec 2) (x : Int) : List (Nat × LaneWr) :=
  [(2, .ac a (BitVec.ofInt 80 (max (-(2 ^ 79)) (min (2 ^ 79 - 1) x))))]
    ++ if x < -(2 ^ 79) ∨ 2 ^ 79 - 1 < x then [(2, .sticky (0x200 ||| (0x10 <<< a.toNat)))] else []

/-- The writes of a parallel load through pointer `k` of a memory (04 R137). -/
def parWrites (l : LaneS) (m : LaneMem) (k : BitVec 3) (q : ParLoad) : List (Nat × LaneWr) :=
  [(2, .d q.d (laneRd l m (rdPt l k).toNat))]
    ++ if q.post then [(1, .pt k (stepPtr l k (rdDt l k).toInt 8192))] else []

/-- The writes of both parallel loads (04 R137); of two with one destination the one through Y is kept, as the later. -/
def bothLoads (l : LaneS) (x y : Option ParLoad) : List (Nat × LaneWr) :=
  (match x with
    | some q => parWrites l .x (q.p.zeroExtend 3) q
    | none => [])
  ++ (match y with
    | some q => parWrites l .y (4 + q.p.zeroExtend 3) q
    | none => [])

/-- The write of an access's post-step (04 R126). -/
def postWrites (l : LaneS) (m : LaneMem) : AddrMode → List (Nat × LaneWr)
  | .inc k => [(1, .pt k (stepPtr l k (rdDt l k).toInt (memSize m)))]
  | .dec k => [(1, .pt k (stepPtr l k (-(rdDt l k).toInt) (memSize m)))]
  | .incOne k => [(1, .pt k (stepPtr l k 1 (memSize m)))]
  | .decOne k => [(1, .pt k (stepPtr l k (-1) (memSize m)))]
  | .ptr _ => []
  | .disp _ _ => []
  | .abs _ => []

/-! ### Chains of sections (03 R113, R116; 05 R166) -/

/-- One section of a chain on the samples of the set in force and, during a fade, of the new set: the sections' new state, the two
outputs, and how many outputs saturated so far. -/
def chainSection (fading : Bool) (q : LaneCtx × W36 × W36 × Nat) (i : Nat) : LaneCtx × W36 × W36 × Nat :=
  let a := sectionStep (tget {} q.1.sec i) q.2.1
  let b := sectionStep (tget {} q.1.sec2 i) q.2.2.1
  ({ q.1 with
      sec := tput {} q.1.sec i a.2.2
      sec2 := if fading then tput {} q.1.sec2 i b.2.2 else q.1.sec2 }, a.1, b.1,
    q.2.2.2 + (if a.2.1 then 1 else 0) + if fading && b.2.1 then 1 else 0)

/-- A chain: its input word goes through its sections in order, and its output word takes what the last one gives, during a
fade the crossfade from the set in force to the new one. Counted with it is how many outputs saturated. -/
def chainRun (fade : Option (Nat × Nat)) (c : Chain) (q : LaneCtx × Nat) : LaneCtx × Nat :=
  let x := tget 0 q.1.x (0x80 + c.inp)
  let r := ((List.range c.count).map (c.first + ·)).foldl (chainSection fade.isSome) (q.1, x, x, q.2)
  let y := match fade with
    | some (n, f) => crossfade (n + 1) f r.2.1 r.2.2.1
    | none => r.2.1
  ({ r.1 with x := tput 0 r.1.x (0x80 + c.out) y }, r.2.2.2)

end Sys2Proof
end

