-- ==== Sys2Proof/Certificates/Slice0/Obligations.lean ====
section
/-! DEFINITION. The statements for the provers, from the rules of the spec. -/

open Sys2Proof Sys2Proof.Machine


/-! ### The block as a whole -/

/-- A step takes the command at the front of the queue and carries it out with the rest of the queue. -/
def Obligations.StepRunsFrontCommand : Prop :=
  ∀ (c : Instr) (l : List Instr) (s : State), step { s with pending := c :: l } = exec c { s with pending := l }

/-- On an empty queue a step changes nothing: the model's choice, log entry 1. -/
def Obligations.StepIdlesOnEmptyQueue : Prop := ∀ s : State, s.pending = [] → step s = .next s

/-- The reset values that the spec states, for one register group of each chapter. -/
def Obligations.ResetValues : Prop :=
  let s := State.reset
  (s.pending = [] ∧ s.wave.count = 0 ∧ s.wave.running = false ∧ s.wave.rate = none ∧ s.wave.counterValid = false)
  ∧ (s.xp.stTimeout = 20 ∧ s.xp.active = 0 ∧ s.xp.timeouts = 0 ∧ s.xp.queue = [] ∧ ∀ i, baseWord s.xp i = 0)
  ∧ (s.plan.epoch = 0 ∧ s.plan.run = none ∧ s.plan.bypass = false)
  ∧ (s.place.warn = 31 ∧ s.place.move = 20 ∧ s.place.retire = 96 ∧ s.place.shadowK = 96 ∧ s.place.audOn = true ∧
      s.place.audCycle = 20 ∧ s.place.audWin = 96 ∧ ∀ k, (tileAt s k).health = 255)
  ∧ (∀ p, (portAt s p).maxFrame = 1522 ∧ (portAt s p).wdUs = 500 ∧ (portAt s p).holdMs = 10 ∧ (portAt s p).flags = 0)
  ∧ (s.twin.pair = false ∧ s.twin.active = false ∧ s.twin.state = 0 ∧ s.twin.autoRejoin = true ∧ s.twin.startWait = 20 ∧
      s.twin.joinLimit = 60)
  ∧ (s.host.fwState = 0 ∧ s.host.bootErr = 0 ∧ s.host.classes = 0x1E ∧ ∀ k, (tget {} s.host.kiosks k).st = 7)
  ∧ (s.mat.ddrState = 0 ∧ s.clk.lock = 0 ∧ s.clk.monOk = 0 ∧ s.clk.vid = 10 ∧ s.clk.floor = 8 ∧ s.clk.ceil = 16 ∧
      s.clk.pull = 100 ∧ s.clk.stepLim = 1000 ∧ s.clk.holdAlarm = 60 ∧ s.clk.gateTo = 10)
  ∧ (s.flt.pulseUs = 10 ∧ s.flt.fatal = false ∧ s.sm.state = 0)

/-- At reset the byte memory has its canonical form and no command waits. -/
def Obligations.ResetInv : Prop := MemInv State.reset ∧ State.reset.pending = []

/-- Every step keeps the canonical form of the byte memory. -/
def Obligations.StepKeepsMemoryForm : Prop := ∀ s t : State, MemInv s → step s = .next t → MemInv t

/-- No command puts commands into the queue or takes any from it. -/
def Obligations.CommandsKeepQueue : Prop := ∀ (c : Instr) (s t : State), exec c s = .next t → t.pending = s.pending

/-- Every command but a transaction of the matrix completes in every state, so that no command is refused. -/
def Obligations.OnlyMatrixTransactionsStop : Prop :=
  ∀ (c : Instr) (s : State), (∀ tx, c ≠ .matrixTransaction tx) → Completes c s

/-- 04 R122 to R148: the P word of a lane instruction decodes to that instruction, with every operand that its encoding
admits. -/
def Obligations.LaneDecodeEncode : Prop :=
  ∀ (c : Instr) (w : W36), laneEncode c = some w → laneOperandsOk c = true →
    laneDecode (laneCtx c).1 (laneCtx c).2 w = some c

/-- 04 R123, R133 to R144: words written out from the tables of the encodings. -/
def Obligations.LaneWordExamples : Prop :=
  laneDecode 3 false 0x000000000 = some (.nop 3 false)
  ∧ laneDecode 3 false 0x010000000 = some (.halt 3 false)
  ∧ laneDecode 0 false 0x104C94000 = some (.add 0 false 3 2 5)
  ∧ laneDecode 0 false 0x20230000F = some (.addi 0 false 2 3 15)
  ∧ laneDecode 0 false 0x480022EAC
      = some (.pld 0 false (some { d := 1, p := 1, post := true }) (some { d := 5, p := 1, post := true }))
  ∧ laneDecode 0 false 0xC00000000 = none
/-! ### Lanes -/

/-- 04 R133, R134, R128: the register operations, on the registers as the instruction sees them. -/
def Obligations.LaneRegisterArithmetic : Prop :=
  ∀ (s : State) (key : Nat) (d a b : BitVec 4), canIssue s key = true →
    let x := rdD (seenLane s key) a
    let y := rdD (seenLane s key) b
    let sh : Int := max (-36) (min (y.truncate 7 : BitVec 7).toInt 36)
    let carry := decide (2 ^ 36 ≤ x.toNat + y.toNat)
    let borrow := decide (x.toNat < y.toNat)
    let sum := x.toInt + y.toInt
    let dif := x.toInt - y.toInt
    let least := decide (x.toInt = -(2 ^ 35))
    Issues (.mov key false d a) s key (resultV 1 d x false)
    ∧ Issues (.add key false d a b) s key (resultC 1 d (x + y) (out36 sum) carry)
    ∧ Issues (.adds key false d a b) s key (resultC 1 d (clamp36 sum) (out36 sum) carry ++ satWith 1 (out36 sum))
    ∧ Issues (.sub key false d a b) s key (resultC 1 d (x - y) (out36 dif) borrow)
    ∧ Issues (.subs key false d a b) s key (resultC 1 d (clamp36 dif) (out36 dif) borrow ++ satWith 1 (out36 dif))
    ∧ Issues (.cmp key false a b) s key [(1, .flags 0b1111 (nzvc (x - y).msb (x - y == 0) (out36 dif) borrow))]
    ∧ Issues (.neg key false d a) s key (resultV 1 d (-x) least)
    ∧ Issues (.negs key false d a) s key (resultV 1 d (clamp36 (-x.toInt)) least ++ satWith 1 least)
    ∧ Issues (.abs key false d a) s key (resultV 1 d (clamp36 (max x.toInt (-x.toInt))) least ++ satWith 1 least)
    ∧ Issues (.and key false d a b) s key (resultV 1 d (x &&& y) false)
    ∧ Issues (.or key false d a b) s key (resultV 1 d (x ||| y) false)
    ∧ Issues (.xor key false d a b) s key (resultV 1 d (x ^^^ y) false)
    ∧ Issues (.not key false d a) s key (resultV 1 d (~~~x) false)
    ∧ Issues (.min key false d a b) s key (resultV 1 d (if x.toInt ≤ y.toInt then x else y) false)
    ∧ Issues (.max key false d a b) s key (resultV 1 d (if x.toInt ≤ y.toInt then y else x) false)
    ∧ Issues (.ash key false d a b) s key
        (if 0 ≤ sh then
          resultV 1 d (clamp36 (x.toInt * 2 ^ sh.toNat)) (out36 (x.toInt * 2 ^ sh.toNat))
            ++ satWith 1 (out36 (x.toInt * 2 ^ sh.toNat))
        else resultV 1 d (BitVec.ofInt 36 (roundEven x.toInt (2 ^ (-sh).toNat))) false)
    ∧ Issues (.lsh key false d a b) s key
        (resultV 1 d (if 0 ≤ sh then x <<< sh.toNat else x >>> (-sh).toNat) false)
    ∧ (let p := roundEven (x.toInt * y.toInt * 8) (2 ^ 36)
      Issues (.mulf key false d a b) s key (resultV 2 d (clamp36 p) (out36 p) ++ satWith 2 (out36 p)))
    ∧ (let p := x.toInt * y.toInt
      Issues (.muli key false d a b) s key (resultV 2 d (clamp36 p) (out36 p) ++ satWith 2 (out36 p)))

/-- 04 R135, R136: the immediate operations are the register operations with the immediate in place of Db, and LDI and LDIH
change no flag. -/
def Obligations.LaneImmediates : Prop :=
  ∀ (s : State) (key : Nat) (d a : BitVec 4) (imm : BitVec 20) (k : BitVec 7) (v : BitVec 24) (h : BitVec 12),
    canIssue s key = true →
    let x := rdD (seenLane s key) a
    let y : W36 := imm.signExtend 36
    let z : W36 := imm.zeroExtend 36
    let sh : Int := max (-36) (min k.toInt 36)
    let carry := decide (2 ^ 36 ≤ x.toNat + y.toNat)
    let sum := x.toInt + imm.toInt
    let dif := x.toInt - imm.toInt
    Issues (.addi key false d a imm) s key (resultC 1 d (x + y) (out36 sum) carry)
    ∧ Issues (.addsi key false d a imm) s key (resultC 1 d (clamp36 sum) (out36 sum) carry ++ satWith 1 (out36 sum))
    ∧ Issues (.cmpi key false a imm) s key
        [(1, .flags 0b1111 (nzvc (x - y).msb (x - y == 0) (out36 dif) (decide (x.toNat < y.toNat))))]
    ∧ Issues (.andi key false d a imm) s key (resultV 1 d (x &&& z) false)
    ∧ Issues (.ori key false d a imm) s key (resultV 1 d (x ||| z) false)
    ∧ Issues (.xori key false d a imm) s key (resultV 1 d (x ^^^ z) false)
    ∧ Issues (.ashi key false d a k) s key
        (if 0 ≤ sh then
          resultV 1 d (clamp36 (x.toInt * 2 ^ sh.toNat)) (out36 (x.toInt * 2 ^ sh.toNat))
            ++ satWith 1 (out36 (x.toInt * 2 ^ sh.toNat))
        else resultV 1 d (BitVec.ofInt 36 (roundEven x.toInt (2 ^ (-sh).toNat))) false)
    ∧ Issues (.lshi key false d a k) s key
        (resultV 1 d (if 0 ≤ sh then x <<< sh.toNat else x >>> (-sh).toNat) false)
    ∧ Issues (.ldi key false d v) s key [(1, .d d (v.signExtend 36))]
    ∧ Issues (.ldih key false d h) s key
        [(1, .d d (BitVec.ofNat 36 (h.toNat * 2 ^ 24 + (rdD (seenLane s key) d).toNat % 2 ^ 24)))]

/-- 04 R137, 03 R94, R98: the multiplies, with the accumulator operand that may be forwarded from the slot before, and the
parallel loads. -/
def Obligations.LaneMultiplies : Prop :=
  ∀ (s : State) (key : Nat) (frac : Bool) (ac : BitVec 2) (dx dy : BitVec 4) (x y : Option ParLoad),
    canIssue s key = true →
    let l := seenLane s key
    let p : Int := (rdD l dx).toInt * (rdD l dy).toInt * (if frac then 8 else 1)
    let a : Int := (match l.mac with
      | some (t, sh, r, v) => if t + 1 = l.slot ∧ sh = l.shadow ∧ r = ac then v else rdAc l ac
      | none => rdAc l ac).toInt
    Issues (.mpy key false frac ac dx dy x y) s key (accResult ac p ++ bothLoads l x y)
    ∧ Issues (.mac key false frac ac dx dy x y) s key (accResult ac (a + p) ++ bothLoads l x y)
    ∧ Issues (.msu key false frac ac dx dy x y) s key (accResult ac (a - p) ++ bothLoads l x y)
    ∧ Issues (.mpyn key false frac ac dx dy x y) s key (accResult ac (-p) ++ bothLoads l x y)
    ∧ Issues (.pld key false x y) s key (bothLoads l x y)

/-- 04 R138, 03 R90: a filter tap with one delay-line move, the pointers being different. -/
def Obligations.LaneFilterTaps : Prop :=
  ∀ (s : State) (key : Nat) (ac : BitVec 2) (fromP move : Bool) (ix ic : BitVec 3), canIssue s key = true → ix ≠ ic →
    let l := seenLane s key
    let m : LaneMem := if fromP then .p else .y
    let t := laneRd l .x (rdPt l ix).toNat
    let p : Int := t.toInt * (laneRd l m (rdPt l ic).toNat).toInt * 8
    let a : Int := (macOperand l ac).toInt
    let back := (stepPtr l ix (-(rdDt l ix).toInt) 8192).toNat
    let steps : List (Nat × LaneWr) := [(1, .pt ix (stepPtr l ix (rdDt l ix).toInt 8192)),
      (1, .pt ic (stepPtr l ic (rdDt l ic).toInt (if fromP then 4096 else 8192)))]
    let cost := if fromP then (if fromCache l then 1 else 2) else 1
    let stores : LaneS → LaneS := fun q => if move then laneWrX back t q else q
    Issues (.firtap key false ac fromP move ix ic) s key (accResult ac (a + p) ++ steps) cost stores
    ∧ Issues (.firtapn key false ac fromP move ix ic) s key (accResult ac (a - p) ++ steps) cost stores

/-- 04 R126, R139: a load brings the word at the mode's address, two slots on; a store puts the word of a D register, or an
accumulator's rounded and saturated high field, at the mode's address at once. -/
def Obligations.LaneLoadsAndStores : Prop :=
  ∀ (s : State) (key : Nat) (m : LaneMem) (toY : Bool) (mode : AddrMode) (d : BitVec 4) (r : BitVec 2),
    canIssue s key = true →
    let l := seenLane s key
    let n : LaneMem := if toY then .y else .x
    let high := roundEven (rdAc l r).toInt (2 ^ 36)
    Issues (.ld key false m mode d) s key ([(2, .d d (laneRd l m (modeAddr l m mode)))] ++ postWrites l m mode)
        (if m = .p then (if fromCache l then 1 else 2) else 1)
    ∧ Issues (.st key false toY mode (.d d)) s key (postWrites l n mode) 1 (laneStore toY (modeAddr l n mode) (rdD l d))
    ∧ Issues (.st key false toY mode (.ac r)) s key (postWrites l n mode ++ satWith 1 (out36 high)) 1
        (laneStore toY (modeAddr l n mode) (clamp36 high))

/-- 04 R140, R128, 03 R94, R95: the accumulator operations. -/
def Obligations.LaneAccumulators : Prop :=
  ∀ (s : State) (key : Nat) (d : BitVec 4) (a b : BitVec 2) (k : BitVec 7), canIssue s key = true →
    let l := seenLane s key
    let x := rdAc l a
    let y := rdAc l b
    let v := rdD l d
    let high := roundEven x.toInt (2 ^ 36)
    Issues (.clra key false a) s key [(2, .ac a 0)]
    ∧ Issues (.movah key false d a) s key ([(1, .d d (clamp36 high))] ++ satWith 1 (out36 high))
    ∧ Issues (.moval key false d a) s key [(1, .d d (BitVec.ofNat 36 (x.toNat % 2 ^ 36)))]
    ∧ Issues (.movag key false d a) s key [(1, .d d (BitVec.ofInt 36 (x.toInt / 2 ^ 72)))]
    ∧ Issues (.ldah key false a d) s key [(2, .ac a (BitVec.ofInt 80 (v.toInt * 2 ^ 36)))]
    ∧ Issues (.ldal key false a d) s key [(2, .ac a (BitVec.ofNat 80 (x.toNat / 2 ^ 36 * 2 ^ 36 + v.toNat)))]
    ∧ Issues (.adda key false a b) s key (accResult a (x.toInt + y.toInt))
    ∧ Issues (.suba key false a b) s key (accResult a (x.toInt - y.toInt))
    ∧ Issues (.cpya key false a b) s key [(2, .ac a y)]
    ∧ Issues (.nega key false a) s key (accResult a (-x.toInt))
    ∧ Issues (.asha key false a k) s key (accResult a (if 0 ≤ k.toInt then x.toInt * 2 ^ k.toInt.toNat
        else roundEven x.toInt (2 ^ (-k.toInt).toNat)))
    ∧ Issues (.tsta key false a) s key [(1, .flags 0b1111 (nzvc x.msb (x == 0) false false))]

/-- 04 R125, R141, R142: address and control registers. -/
def Obligations.LaneAddressAndControlRegisters : Prop :=
  ∀ (s : State) (key : Nat) (d : BitVec 4) (reg : BitVec 3) (imm : BitVec 14), canIssue s key = true →
    let l := seenLane s key
    let v := rdD l d
    let w : BitVec 14 := v.truncate 14
    let upTo (n : BitVec 14) : BitVec 14 := if 8192 < n.toNat then 8192 else n
    Issues (.mvta key false 0 reg d) s key [(1, .pt reg (w.truncate 13))]
    ∧ Issues (.mvta key false 1 reg d) s key [(1, .bs reg (w.truncate 13))]
    ∧ Issues (.mvta key false 2 reg d) s key [(1, .ln reg (upTo w))]
    ∧ Issues (.mvta key false 3 reg d) s key [(1, .dt reg w)]
    ∧ Issues (.lda key false 0 reg imm) s key [(1, .pt reg (imm.truncate 13))]
    ∧ Issues (.lda key false 1 reg imm) s key [(1, .bs reg (imm.truncate 13))]
    ∧ Issues (.lda key false 2 reg imm) s key [(1, .ln reg (upTo imm))]
    ∧ Issues (.lda key false 3 reg imm) s key [(1, .dt reg imm)]
    ∧ Issues (.mvfa key false d 0 reg) s key [(1, .d d ((rdPt l reg).zeroExtend 36))]
    ∧ Issues (.mvfa key false d 1 reg) s key [(1, .d d ((rdBs l reg).zeroExtend 36))]
    ∧ Issues (.mvfa key false d 2 reg) s key [(1, .d d ((rdLn l reg).zeroExtend 36))]
    ∧ Issues (.mvfa key false d 3 reg) s key [(1, .d d ((rdDt l reg).signExtend 36))]
    ∧ Issues (.aadd key false reg imm) s key [(1, .pt reg (stepPtr l reg imm.toInt 8192))]
    ∧ Issues (.amod key false reg) s key [(1, .pt reg (stepPtr l reg (rdDt l reg).toInt 8192))]
    ∧ Issues (.mvtc key false .lst d) s key [(1, .lst v)]
    ∧ Issues (.mvtc key false .lctl d) s key [(1, .lctl v)]
    ∧ Issues (.mvtc key false .epc d) s key [(1, .epc (v.truncate 12))]
    ∧ Issues (.mvfc key false d .lst) s key [(1, .d d (lstRead l))]
    ∧ Issues (.mvfc key false d .lctl) s key [(1, .d d l.cur.lctl)]
    ∧ Issues (.mvfc key false d .epc) s key [(1, .d d (l.cur.epc.zeroExtend 36))]

/-- 03 R97: a D register in a later slot holds the last result for it, in its bank, that is visible by then; without one it
holds what it held. -/
def Obligations.LaneResultsBecomeVisible : Prop :=
  ∀ (l : LaneS) (n : Nat) (bank : Bool) (r : BitVec 4),
    tget 0 (bankOf (settleTo n l).cur bank).d r.toNat =
      (l.pend.filter fun p => decide (p.vis ≤ n)).foldl (fun v p => match p.w with
        | .d q w => if q = r ∧ p.shad = bank then w else v
        | _ => v) (tget 0 (bankOf l.cur bank).d r.toNat)

/-- 03 R101: the pointer after a post-step. -/
def Obligations.LanePostStep : Prop :=
  ∀ (l : LaneS) (k : BitVec 3) (m : Int) (size : Nat), size = 4096 ∨ size = 8192 →
    let pt : Int := (rdPt l k).toNat
    let bs : Int := (rdBs l k).toNat
    let ln : Int := (rdLn l k).toNat
    ((stepPtr l k m size).toNat : Int) = if ln = 0 then (pt + m) % size else (bs + (pt - bs + m) % ln) % size
/-- 03 R97, R100, 04 R129, R143: a branch issues its delay slot next, and goes to its target after it when its condition holds;
a taken call writes its own address plus 2 to the link register. -/
def Obligations.LaneBranches : Prop :=
  ∀ (s : State) (key : Nat) (cond d : BitVec 4) (target : BitVec 12), canIssue s key = true → cond ≠ 15 →
    let l := seenLane s key
    l.delay = .none → atLoopEnd l = false →
    let taken := condTrue l.cur.lst cond
    (∃ t, exec (.j key false cond target) s = .next t ∧ (laneAt t key).pc = l.pc + 1 ∧
        (laneAt t key).delay = .branch (if taken then some target else none) ∧ (laneAt t key).pend = l.pend)
    ∧ (∃ t, exec (.jr key false cond d) s = .next t ∧ (laneAt t key).pc = l.pc + 1 ∧
        (laneAt t key).delay = .branch (if taken then some ((rdD l d).truncate 12) else none) ∧ (laneAt t key).pend = l.pend)
    ∧ (∃ t, exec (.call key false cond d target) s = .next t ∧ (laneAt t key).pc = l.pc + 1 ∧
        (laneAt t key).delay = .branch (if taken then some target else none) ∧
        (laneAt t key).pend = l.pend ++ if taken then
          [{ vis := l.slot + 1, shad := l.shadow, w := .d d ((l.pc + 2).zeroExtend 36) }] else [])

/-- 03 R97, R108: the instruction in a delay slot is followed by the branch's target, by the next address where the branch is
not taken and no loop ends there, or, for RETE, by the address in EPC with the main bank selected. -/
def Obligations.LaneDelaySlot : Prop :=
  ∀ (s : State) (key : Nat) (target : BitVec 12), canIssue s key = true →
    let l := seenLane s key
    (l.delay = .branch (some target) →
      ∃ t, exec (.nop key false) s = .next t ∧ (laneAt t key).pc = target ∧ (laneAt t key).delay = .none)
    ∧ (l.delay = .branch none → atLoopEnd l = false →
      ∃ t, exec (.nop key false) s = .next t ∧ (laneAt t key).pc = l.pc + 1 ∧ (laneAt t key).delay = .none)
    ∧ (l.delay = .none → atLoopEnd l = false →
      ∃ t, exec (.nop key false) s = .next t ∧ (laneAt t key).pc = l.pc + 1 ∧ (laneAt t key).delay = .none ∧
        (laneAt t key).slot = l.slot + 1 ∧ (laneAt t key).pend = l.pend)
    ∧ (l.delay = .rete → l.haltWait = false →
      ∃ t, exec (.nop key false) s = .next t ∧ (laneAt t key).pc = (settleTo (l.slot + 1) l).cur.epc ∧
        (laneAt t key).shadow = false ∧ (laneAt t key).evSrc = 0 ∧ (laneAt t key).delay = .none)

/-- 04 R145, R147, R148: a loop of count n passes n times over its body; a count of 0 skips it, a fifth entry stops the block,
and LPOP pops the top entry. -/
def Obligations.LaneLoops : Prop :=
  ∀ (s : State) (key : Nat) (count : BitVec 16) (len : BitVec 8) (d : BitVec 4) (last : BitVec 12), canIssue s key = true →
    let l := seenLane s key
    l.delay = .none → atLoopEnd l = false →
    let fin : BitVec 12 := l.pc + 1 + len.zeroExtend 12
    (l.pc.toNat + len.toNat + 1 ≤ 0xFFF → count = 0 →
      ∃ t, exec (.rep key false count len) s = .next t ∧ (laneAt t key).pc = fin + 1 ∧ loopsOf (laneAt t key) = loopsOf l)
    ∧ (l.pc.toNat + len.toNat + 1 ≤ 0xFFF → count ≠ 0 → (loopsOf l).length < 4 →
      ∃ t, exec (.rep key false count len) s = .next t ∧ (laneAt t key).pc = l.pc + 1 ∧
        loopsOf (laneAt t key) = { first := l.pc + 1, last := fin, count := count, rep := true } :: loopsOf l)
    ∧ (l.pc.toNat + len.toNat + 1 ≤ 0xFFF → count ≠ 0 → 4 ≤ (loopsOf l).length →
      ∃ t, exec (.rep key false count len) s = .next t ∧ (laneAt t key).phase = .over ∧ (laneAt t key).st = 3)
    ∧ (l.pc.toNat < last.toNat → (rdD l d).truncate 16 ≠ (0 : BitVec 16) → (loopsOf l).length < 4 →
      ∃ t, exec (.loop key false d last) s = .next t ∧ (laneAt t key).pc = l.pc + 1 ∧
        loopsOf (laneAt t key) =
          { first := l.pc + 1, last := last, count := (rdD l d).truncate 16, rep := false } :: loopsOf l)
    ∧ (l.pc.toNat < last.toNat → (rdD l d).truncate 16 = (0 : BitVec 16) →
      ∃ t, exec (.loop key false d last) s = .next t ∧ (laneAt t key).pc = last + 1 ∧ loopsOf (laneAt t key) = loopsOf l)
    ∧ (∀ e rest, loopsOf l = e :: rest →
      ∃ t, exec (.lpop key false) s = .next t ∧ (laneAt t key).pc = l.pc + 1 ∧ loopsOf (laneAt t key) = rest)

/-- 04 R146: the last instruction of a body goes back to its first address while more than one pass is left, and one pass fewer
is left then; the last pass ends the loop. -/
def Obligations.LaneLoopEnd : Prop :=
  ∀ (s : State) (key : Nat) (e : LoopE) (rest : List LoopE), canIssue s key = true →
    let l := seenLane s key
    l.delay = .none → loopsOf l = e :: rest → e.last = l.pc →
    (1 < e.count.toNat → ∃ t, exec (.nop key false) s = .next t ∧ (laneAt t key).pc = e.first ∧
      loopsOf (laneAt t key) = { e with count := e.count - 1 } :: rest)
    ∧ (e.count.toNat ≤ 1 → (∀ q ∈ rest, q.last ≠ l.pc) → ∃ t, exec (.nop key false) s = .next t ∧
      (laneAt t key).pc = l.pc + 1 ∧ loopsOf (laneAt t key) = rest)

/-- 03 R108, R115, 04 R130 to R132: HALT, RETE, SOSRUN and SOSWAIT outside a delay slot and the end of a loop. -/
def Obligations.LaneHaltReteAndSectionUnit : Prop :=
  ∀ (s : State) (key : Nat) (g : BitVec 3), canIssue s key = true →
    let l := seenLane s key
    (l.delay = .none → atLoopEnd l = false → l.shadow = false → l.sosQ = [] →
      ∃ t, exec (.halt key false) s = .next t ∧ (laneAt t key).phase = .halting ∧ (laneAt t key).haltAt = l.pc)
    ∧ (l.delay = .none → atLoopEnd l = false → l.evSrc ≠ 0 →
      ∃ t, exec (.rete key false) s = .next t ∧ (laneAt t key).delay = .rete ∧ (laneAt t key).pc = l.pc + 1)
    ∧ (l.cur.lctl.getLsbD 0 = true → (∀ q ∈ l.sosQ, q.1 ≠ g) →
      ∃ t, exec (.sosrun key false g) s = .next t ∧ (laneAt t key).sosQ = l.sosQ ++ [(g, l.slot)])
    ∧ ((∃ q ∈ l.sosQ, q.1 = g) →
      ∃ t, exec (.soswait key false g) s = .next t ∧ (laneAt t key).sosWait = some g ∧ canIssue t key = false)
    ∧ ((∀ q ∈ l.sosQ, q.1 ≠ g) →
      ∃ t, exec (.soswait key false g) s = .next t ∧ (laneAt t key).sosWait = none)

/-- 04 R123: a reserved word, and a branch with the reserved condition code, is a no-operation that raises the NOTE ILLEGAL_OP,
once per block load; in either case it takes one slot and changes no register. -/
def Obligations.LaneIllegalWord : Prop :=
  ∀ (s : State) (key : Nat) (word : W36) (d : BitVec 4) (target : BitVec 12) (c : Instr), canIssue s key = true →
    (c = .illegalOp key false word ∧ laneDecode key false word = none) ∨ c = .j key false 15 target ∨
      c = .call key false 15 d target ∨ c = .jr key false 15 d →
    let l := seenLane s key
    ∃ t, exec c s = .next t ∧ (laneAt t key).pend = l.pend ∧
      (laneAt t key).slot = l.slot + 1 ∧ regsOf (laneAt t key).cur = regsOf l.cur ∧
      10 ∈ (laneAt t key).noted ∧
      (10 ∈ l.noted ∨ ∃ r ∈ t.flt.lineQ, r.src = 0x0302 ∧ r.obj = blockOf key)

/-- A lane instruction changes its own Lane and the fault collector, and nothing else. -/
def Obligations.LaneInstructionsChangeTheirLaneOnly : Prop :=
  ∀ (c : Instr) (s t : State) (key : Nat) (ded : Bool), issuesOn c = some (key, ded) → exec c s = .next t →
    t = { s with lanes := t.lanes, flt := t.flt } ∧ (∀ i, i ≠ key → laneAt t i = laneAt s i) ∧
      (laneAt t key).cmt = (laneAt s key).cmt

/-- 03 R88: an instruction whose fetch or read meets a double-bit error discards the wave of its Lane, and SEVERE is
reported. -/
def Obligations.LaneDoubleBitError : Prop :=
  ∀ (c : Instr) (s : State) (key : Nat), issuesOn c = some (key, true) → canIssue s key = true →
    (∀ word, c = .illegalOp key true word → laneDecode key true word = none) →
    ∃ t, exec c s = .next t ∧ (laneAt t key).phase = .over ∧ (laneAt t key).cause = 1 ∧
      ∃ r ∈ t.flt.lineQ, r.src = 0x0305 ∧ r.obj = blockOf key

/-- 03 R82, R139: an instruction keeps every word of the memories of its Lane, as the section unit has left them by its slot, but
those that a store, or the move of a filter tap, writes. -/
def Obligations.LaneMemoryFrame : Prop :=
  ∀ (c : Instr) (s t : State) (key : Nat) (ded : Bool) (m : LaneMem) (a : Nat),
    issuesOn c = some (key, ded) → exec c s = .next t →
    (∀ toY mode src, c = .st key ded toY mode src →
      m = .p ∨ m ≠ (if toY then LaneMem.y else LaneMem.x) ∨
        a % 8192 ≠ modeAddr (seenLane s key) (if toY then .y else .x) mode % 8192) →
    (∀ ac fromP ix ic, c = .firtap key ded ac fromP true ix ic ∨ c = .firtapn key ded ac fromP true ix ic →
      m ≠ .x ∨ a % 8192 ≠ tapMoveAddr (seenLane s key) ix % 8192) →
    laneRd (laneAt t key) m a = laneRd (if canIssue s key = true ∧ ded = false then seenLane s key else laneAt s key) m a

/-- 03 R86, R103, R106, R107: an event is taken in one slot: EPC takes the address of the next instruction, the shadow bank is
selected, the PEND bit of the source is cleared, and the PC goes to its vector; PRIORITY comes before PARAM and PARAM before
AUDIT. -/
def Obligations.LaneTakesEvent : Prop :=
  ∀ (s : State) (key : Nat), s.wave.live = true → (laneAt s key).slot < laneBudget s → mustTake (laneAt s key) = true →
    let l := seenLane s key
    let src : BitVec 2 := if l.evPend.getLsbD 2 then 1 else if l.evPend.getLsbD 1 then 2 else 3
    ∃ t, exec (.laneEventTake key) s = .next t ∧ (laneAt t key).shadow = true ∧ (laneAt t key).evSrc = src ∧
      (laneAt t key).pc = BitVec.ofNat 12 (4 * src.toNat) ∧
      (laneAt t key).cur.epc = (if l.phase = .halting then l.haltAt else l.pc) ∧
      (laneAt t key).evPend = l.evPend &&& ~~~(if src = 1 then 4 else if src = 2 then 2 else 1) ∧
      (laneAt t key).slot = l.slot + 1 ∧ (laneAt t key).phase = .run

/-- 04 R130, 01 R25: a Lane whose program has ended with no event, no section group and no result outstanding commits its
context. -/
def Obligations.LaneWaveCompletes : Prop :=
  ∀ (s : State) (key : Nat), s.wave.live = true →
    let l := laneAt s key
    l.phase = .halting → l.evPend = 0 → l.evSrc = 0 → l.sosQ = [] → l.slot ≤ laneBudget s →
    ∃ t, exec (.laneWaveComplete key) s = .next t ∧ (laneAt t key).phase = .done ∧
      (laneAt t key).cmt = (settleAll l).cur ∧ (laneAt t key).cur = (settleAll l).cur ∧
      t = { s with lanes := t.lanes, sig := t.sig, flt := t.flt } ∧ (∀ i, i ≠ key → laneAt t i = laneAt s i)

/-- 03 R118, R120: a Lane that reaches its budget without having completed HALT discards the wave, its block stops, and SEVERE
is reported; one that has completed HALT by the last slot of the budget does not. -/
def Obligations.LaneBudgetOverrun : Prop :=
  ∀ (s : State) (key : Nat), s.wave.live = true →
    (laneAt s key).phase = .run ∨ (laneAt s key).phase = .halting → laneBudget s ≤ (laneAt s key).slot →
    let l := laneAt s key
    let halted := l.phase = .halting ∧ l.evPend = 0 ∧ l.evSrc = 0 ∧ l.sosQ = [] ∧ l.slot = laneBudget s
    (halted → exec (.budgetOverrun key) s = .next s)
    ∧ (¬ halted → ∃ t, exec (.budgetOverrun key) s = .next t ∧ (laneAt t key).phase = .over ∧ (laneAt t key).st = 3 ∧
      (laneAt t key).cmt = l.cmt ∧ (∃ r ∈ t.flt.lineQ, r.src = 0x0306 ∧ r.obj = blockOf key) ∧
      t = { s with lanes := t.lanes, flt := t.flt } ∧ (∀ i, i ≠ key → laneAt t i = laneAt s i))

/-- 03 R111 to R116: a group that has not begun runs its chains in order and leaves the queue; what waits for it goes on. -/
def Obligations.LaneSectionGroupCompletes : Prop :=
  ∀ (s : State) (key slot t0 : Nat) (g : BitVec 3) (rest : List (BitVec 3 × Nat)), s.wave.live = true →
    let l := laneAt s key
    l.phase = .run ∨ l.phase = .halting → l.sosQ = (g, t0) :: rest → l.sosRun = none →
    (∀ c ∈ groupChains l g, c.count ≠ 0) →
    let u := (groupChains l g).foldl (fun q c => chainRun l.fade c q) (l.cur, 0)
    ∃ t, exec (.sosGroupComplete key slot false) s = .next t ∧ (laneAt t key).sosQ = rest ∧
      (laneAt t key).cur = u.1 ∧ (laneAt t key).pend.length = l.pend.length + u.2 ∧
      (laneAt t key).sosWait = (if l.sosWait = some g then none else l.sosWait) ∧
      l.slot ≤ (laneAt t key).slot ∧
      (laneAt t key).slot ≤ max l.slot (max (max (t0 + 1) l.sosFree)
        (max t0 l.sosDone + 39 * ((groupChains l g).map (·.count)).sum)) ∧
      t = { s with lanes := t.lanes } ∧ (∀ i, i ≠ key → laneAt t i = laneAt s i)

/-- 03 R113: one section on one sample. -/
def Obligations.SectionRecurrence : Prop :=
  ∀ (k : Section) (x : W36),
    let sum := k.b0.toInt * x.toInt + k.b1.toInt * k.x1.toInt + k.b2.toInt * k.x2.toInt
      - k.a1.toInt * k.y1.toInt - k.a2.toInt * k.y2.toInt
    let y := clamp36 (roundEven sum (2 ^ 33))
    sectionStep k x = (y, out36 (roundEven sum (2 ^ 33)), { k with x1 := x, x2 := k.x1, y1 := y, y2 := k.y1 })

/-! ### Kiosks -/

/-- 11 R357 to R359, 10 R319: an accepted request of a command of a Kiosk has the command's effect at once and its response
when it has one; a forwarded one of a claimant whose Octot link is up waits to take effect in both units. -/
def Obligations.KioskCommandsAccepted : Prop :=
  ∀ (c : Instr) (q : KioskRow), kioskRow c = some q → RunsOn c q.code q.kiosk q.fwd q.check q.effect

/-- 11 R358, R359: a request that expects another epoch is answered EPOCH_MISMATCH, one that fails the command's own checks
with what they find; CLK_GATE_SET, whose refusal is also shown in a sticky bit, is left to the statement of gates. -/
def Obligations.KioskCommandsTurnedAway : Prop :=
  ∀ (c : Instr) (q : KioskRow) (s : State) (r : Req), kioskRow c = some q → (∀ k, c ≠ .clkGateSet k) →
    heldReq q.code q.kiosk s = some r →
    (epochOk r s = false → exec c s = .next (answerFail q.kiosk { status := 0x0005 } s))
    ∧ (epochOk r s = true → ∀ f, q.check r.payload s = some f → exec c s = .next (answerFail q.kiosk f s))

/-- 11 R357, R358 and the chapters of the commands: the commands that only read are answered at once and change nothing but
the host interface; NET_PTP_STATUS takes free values for readings of its own, so that their counter advances. -/
def Obligations.KioskReads : Prop :=
  ∀ (k : Fin 32) (secs : BitVec 48) (ns : BitVec 32),
    ReadsOnly (.sysVersion k) ∧ ReadsOnly (.sysEcho k) ∧ ReadsOnly (.sysLogStatus k) ∧ ReadsOnly (.sysTime k secs ns)
    ∧ ReadsOnly (.sysKioskStatus k) ∧ ReadsOnly (.planVerify k) ∧ ReadsOnly (.planStatus k) ∧ ReadsOnly (.planLatencyRead k)
    ∧ ReadsOnly (.xpNodeRead k) ∧ ReadsOnly (.xpOvlStatus k) ∧ ReadsOnly (.xpAlleyStatus k) ∧ ReadsOnly (.blkParamRead k)
    ∧ ReadsOnly (.playerStatus k) ∧ ReadsOnly (.dspStatus k) ∧ ReadsOnly (.dspDistrictRead k)
    ∧ ReadsOnly (.drvMonitorRead k) ∧ ReadsOnly (.netPortStatus k) ∧ ReadsOnly (.netStatsRead k)
    ∧ Reads (fun s t => t = { s with host := t.host, free := t.free }) (.netPtpStatus k () ()) ∧ ReadsOnly (.censusSummary k) ∧ ReadsOnly (.censusRead k)
    ∧ ReadsOnly (.censusPlanCheck k) ∧ ReadsOnly (.twinStatusRead k) ∧ ReadsOnly (.twinMismatchRead k)
    ∧ ReadsOnly (.clkStatusRead k) ∧ ReadsOnly (.pwrPinmapRead k) ∧ ReadsOnly (.fltStatusRead k)
    ∧ ReadsOnly (.fltInjectStatus k) ∧ ReadsOnly (.secStatus k) ∧ ReadsOnly (.secIdentity k) ∧ ReadsOnly (.bulkStatus k)
    ∧ ReadsOnly (.bulkSpaceInfo k) ∧ ReadsOnly (.z640Info k) ∧ ReadsOnly (.z640XpRead k) ∧ ReadsOnly (.z640Status k)

/-- 11 R366, 02 R73, R79, 05 R173, R183, 06 R212, R217, 07 R252, 08 R290, 13 R436, R440, 15 R486, 11 R373: what some commands
that set registers leave in them. -/
def Obligations.KioskSettings : Prop :=
  ∀ k : Fin 32,
    Leaves (.sysEventConfig k) (fun p s t => t.host.classes
      = if byteAt p 0 = 1 then BitVec.ofNat 5 (fld p 1 1) else s.host.classes)
    ∧ Leaves (.xpStepTimeout k) (fun p s t => t.xp.stTimeout = if byteAt p 0 = 0 then s.xp.stTimeout else byteAt p 0)
    ∧ Leaves (.xpOvlBind k) (fun p s t => t.xp.bind = s.xp.bind ∧
      tget none t.xp.bindNext (byteAt p 0).toNat = some (if byteAt p 1 = 0xFF then none
        else some { level := (byteAt p 1).toNat, brokenActs := byteAt p 2 == 1 }))
    ∧ (∀ (s : State) (w : BitVec 64) (i : Nat) (b : Option Bind), s.xp.bindNext = [(i, some b)] →
      tget none (bindAct w s).xp.bind i = b ∧ (tget {} (bindAct w s).xp.pri i).follows = some w ∧
        (bindAct w s).xp.bindNext = [])
    ∧ Leaves (.playerStop k) (fun p s t => (tget {} s.plan.players (byteAt p 0).toNat).st = 2 →
      (tget {} t.plan.players (byteAt p 0).toNat).st = 3 ∧
        (tget {} t.plan.players (byteAt p 0).toNat).stopAt = nextWave s + 96)
    ∧ Leaves (.playerBind k) (fun p _ t => (tget {} t.plan.players (byteAt p 0).toNat).bound
      = if byteAt p 1 = 0xFF then none else some (byteAt p 1).toNat)
    ∧ Leaves (.dspThresholds k) (fun p _ t => byteAt p 0 = 1 →
      t.place.thrNext = some (BitVec.ofNat 8 (fld p 1 1), BitVec.ofNat 8 (fld p 2 1), BitVec.ofNat 8 (fld p 3 1),
        BitVec.ofNat 16 (fld p 4 2)) ∧ t.place.shadowK = BitVec.ofNat 16 (fld p 4 2))
    ∧ Leaves (.dspAuditConfig k) (fun p _ t => byteAt p 0 = 1 → t.place.audOn = (byteAt p 1 == 1) ∧
      t.place.audCycle = BitVec.ofNat 16 (fld p 2 2) ∧ t.place.audWin = BitVec.ofNat 16 (fld p 4 2))
    ∧ Leaves (.drvKerbSet k) (fun p _ t => byteAt p 1 = 1 → (chanAt t (byteAt p 0).toNat).kerb
      = { floor := fld p 2 1, vPeak := fld p 4 2, release := fld p 6 2 })
    ∧ Leaves (.netRingOwner k) (fun p _ t => (ringAt t (fld p 0 1)).owner = some (byteAt p 1 == 1))
    ∧ Leaves (.clkDpllConfig k) (fun p _ t => byteAt p 0 = 1 → t.clk.realign = (byteAt p 1 == 1) ∧
      t.clk.pull = fld p 2 2 ∧ t.clk.stepLim = fld p 4 4 ∧ t.clk.holdAlarm = fld p 8 2)
    ∧ Leaves (.pwrVcore k) (fun p s t => byteAt p 0 = 1 → t.clk.floor = fld p 1 1 ∧ t.clk.ceil = fld p 2 1 ∧
      t.clk.vid = max (fld p 1 1) (min s.clk.vid (fld p 2 1)))
    ∧ Leaves (.secRollbackCommit k) (fun p _ t => t.sm.rollback = fld p 0 1)
    ∧ Leaves (.z640ViewSet k) (fun p _ t => byteAt p 0 = 1 → t.host.view = (byteAt p 1 == 1) ∧
      t.host.rowBase = fld p 4 2 ∧ t.host.strips = fld p 6 2 ∧ t.host.colBase = fld p 8 2 ∧ t.host.buses = fld p 10 2)

/-- 11 R357: a doorbell on an IDLE or DONE Kiosk takes up the request in its buffer, one on a BUSY Kiosk is counted and
marked, and one outside READY or on an OFFLINE Kiosk does nothing. -/
def Obligations.KioskDoorbells : Prop :=
  ∀ (s : State) (k : Fin 32), hostUp s = true → k ≠ 0 →
    let q := tget {} s.host.kiosks k.val
    (s.host.fwState ≠ 5 ∨ q.st = 7 → exec (.kioskDoorbell k ()) s = .next s)
    ∧ (s.host.fwState = 5 → q.st = 1 → ∃ t, exec (.kioskDoorbell k ()) s = .next t ∧ HostOnly s t ∧
      (tget {} t.host.kiosks k.val).dbErr = true ∧ t.host.dbErrors = satAdd s.host.dbErrors 1 ∧
      (tget {} t.host.kiosks k.val).req = q.req)
    ∧ (let u := onKiosk k.val (fun x => { x with
        st := 1
        req := some (bufRequest q) }) s
      s.host.fwState = 5 → q.st ≠ 1 → q.st ≠ 7 → q.req = none → k ≠ 31 → fld (bufBytes q.reqBuf 256) 4 2 ≤ 240 →
      earlyCheck k.val (bufRequest q) u = none → exec (.kioskDoorbell k ()) s = .next u)

/-! ### Waves, the crosspoint, plans, players and clocks -/

/-- 01 R19, R21, R35, R22, R24, 13 R433, R440: the launch of a wave, the tick, the completion of a tile and the effect waves
of a power state and of a rate. -/
def Obligations.WavesAndTicks : Prop :=
  (∀ s : State, mayLaunch (nextTick s) s = true → exec .waveLaunch s = .next (launch (nextTick s) s))
  ∧ (∀ (s : State) (pins : List PriPin) (tdm : List (Nat × BitVec 32)) (late : List (Fin 64)) (deds : List MemAt)
      (ddr : List (Nat × Nat × BitVec 40)), ticking s = true → rateIdle s = false →
      let u := ddr.foldl ddrLost (deds.foldl (fun u m => doubleBit m u) s)
      exec (.mediaTick pins tdm late deds ddr) s
        = .next (tick (nextTick u) pins tdm (latePlayers late ddr) (lostPlayers deds) u))
  ∧ (∀ (s : State) (site : Nat) (slack : BitVec 8) (ecc ded : List Nat) (differs : Bool), s.wave.live = true →
      site < 0x10000 → s.wave.done.contains site = false → s.wave.dropped.contains site = false →
      (workAt s site).placed = true →
      (workMix site = true →
        exec (.tileComplete site slack ecc ded differs) s
          = .next (compareSites site differs (completeSquare site slack ecc ded s)))
      ∧ (workMix site = false → (laneAt s site).phase = .done →
        exec (.tileComplete site slack ecc ded differs) s
          = .next (compareSites site differs (noteSlack site slack ecc.length (markDone site s)))))
  ∧ (∀ (s : State) (w : BitVec 64), w.toNat ≤ (nextTick s).toNat →
      (s.clk.powDue = some (.hush, w) → exec .powerStateEffect s = .next (enterHush w s))
      ∧ (s.clk.powDue = some (.run, w) → exec .powerStateEffect s = .next (enterRun w s)))
  ∧ (∀ (s : State) (r : Rate) (last first : BitVec 64), s.clk.rateDue = some (r, last, first) → rateIdle s = true →
      pllOk s = true → ∃ t, exec .rateChangeFirstTick s = .next t ∧ t.wave.rate = some r ∧ t.wave.ticked = false ∧
        nextTick t = first ∧ t.clk.rateDue = none ∧ t.clk.dpll.isSome = true)

/-- 01 R35: the value of the sample counter at the next tick is one above its value now; the first tick after it has started
is 0, and a step or a new rate names the value. -/
def Obligations.SampleCounterValue : Prop :=
  ∀ s : State,
    (s.wave.step = none → s.wave.firstTick = none → s.wave.ticked = true → nextTick s = s.wave.count + 1)
    ∧ (s.wave.step = none → s.wave.firstTick = none → s.wave.ticked = false → nextTick s = 0)
    ∧ (s.wave.step = none → ∀ v, s.wave.firstTick = some v → nextTick s = v)
    ∧ (∀ v, s.wave.step = some v → nextTick s = v)

/-- 02 R45 to R47, R52 to R58: what the crosspoint does in its waves. A timeout is counted when its Square has completed the
wave. -/
def Obligations.CrosspointEvents : Prop :=
  (∀ (s : State) (i : Fin 5242880) (e : QEntry), queueFind s.xp i.val = some e → squareOpen s (sqOf s i.val) = true →
      timeoutDue s e = true → ∃ t, exec (.xpEntryTimeout i) s = .next t ∧ baseWord t.xp e.idx = e.word ∧
        queueFind t.xp i.val = none ∧ ∃ u ∈ t.xp.undo, u.idx = e.idx ∧ u.timed = true)
  ∧ (∀ (s : State) (q : Nat) (u : Undo), s.xp.undo = [u] → sqOf s u.idx = q → u.timed = true →
      (squareCommit q s).xp.undo = [] ∧ (squareCommit q s).xp.timeouts = satAdd s.xp.timeouts 1)
  ∧ (∀ (s : State) (q : Fin 80) (w : BitVec 64), (tget {} s.xp.toLog q.val).last = some w →
      0 < (tget {} s.xp.toLog q.val).held → w.toNat + 4096 ≤ (sampleNow s).toNat →
      ∃ t, exec (.xpTimeoutLog q) s = .next t ∧ (tget {} t.xp.toLog q.val).last = some (sampleNow s) ∧
        (tget {} t.xp.toLog q.val).held = 0 ∧ t.xp.queue = s.xp.queue)
  ∧ (∀ (s : State) (c : Sched), s.xp.scheds.find? (schedDue s) = some c → s.wave.live = true → squaresBegun s = false →
      let u := sceneApply c.tag c.same (s.onXp fun x => { x with scheds := x.scheds.erase c })
      let n := (s.xp.queue.filter fun e => e.held && e.tag == c.tag).length
      (c.asap = none → exec .sceneCommitRun s = .next u)
      ∧ (∀ k, c.asap = some k → k < 32 → exec .sceneCommitRun s
        = .next (u.onXp fun x => { x with replies := x.replies ++ [(k, le 8 s.wave.num.toNat ++ le 4 n)] })))
  ∧ (∀ (s : State), s.wave.live = true →
      ∃ t, exec .overlayLevelChange s = .next t ∧
        t.xp.lvlCmds = s.xp.lvlCmds.filter (fun c => !decide (c.wave.toNat ≤ (sampleNow s).toNat)) ∧
        t.xp.cmdSet = (lvlDue (sampleNow s) s.xp).foldl (fun m c => (m ||| c.setM) &&& ~~~ c.clrM) s.xp.cmdSet)
  ∧ (∀ (s : State) (i : Fin 5242880) (r : Trans), tget none s.xp.trans i.val = some r →
      squareOpen s (sqOf s i.val) = true → transTimeoutDue s i.val r = true →
      ∃ t, exec (.overlayTransitionTimeout i) s = .next t ∧ tget none t.xp.trans i.val = none ∧
        (∀ j, j ≠ i.val → tget none t.xp.trans j = tget none s.xp.trans j) ∧ t = s.onXp fun _ => t.xp)
  ∧ (∀ (s : State) (pins : List PriPin), s.wave.rate = none →
      exec (.priReadingNoRate pins) s
        = .next (priReadAll 0 pins (s.onXp fun x => { x with noRate := x.noRate + 1 })))
  ∧ (∀ (s : State) (k : Fin 8), (tget {} s.xp.pri k.val).broken = false → priLimit s ≤ (tget {} s.xp.pri k.val).invalidFor →
      priActs s.xp k.val = false →
      ∃ t, exec (.priBroken k) s = .next t ∧ (tget {} t.xp.pri k.val).broken = true ∧
        (tget {} t.xp.pri k.val).follows = some (if s.wave.rate.isNone then 0 else sampleNow s + 1))

/-- 05 R171, R172: a player starts at its wave, falls silent at its stop, and loops, goes on or stops at the end of its
entry. -/
def Obligations.PlayerEvents : Prop :=
  ∀ (s : State) (p : Fin 64),
    let q := tget {} s.plan.players p.val
    (q.st = 1 → s.wave.live = true → q.startAt.toNat ≤ s.wave.num.toNat →
      exec (.playerBegin p) s = .next (playFirst (onPlayer p.val (fun q => { q with st := 2, pos := 0 }) s) p.val))
    ∧ (q.st = 3 → s.wave.live = true → q.stopAt.toNat ≤ s.wave.num.toNat ∨
        (∃ r, playRec s p.val = some r ∧ crosses s r.row = true) →
      exec (.playerStopEffect p) s = .next (playSilence p.val s))
    ∧ (libSamples s q.entry ≤ q.pos → q.st = 2 →
      ∃ t, exec (.playerEntryEnd p) s = .next t ∧
        tget {} t.plan.players p.val =
          (if q.mode = 2 then { q with pos := 0 }
          else if q.mode = 1 ∧ 1 < q.loops then { q with pos := 0, loops := q.loops - 1 }
          else { q with st := 0, loops := 0, byLevel := false })
        ∧ ∀ j, j ≠ p.val → tget {} t.plan.players j = tget {} s.plan.players j)
    ∧ (libSamples s q.entry ≤ q.pos → q.st = 3 →
      ∃ t, exec (.playerEntryEnd p) s = .next t ∧
        tget {} t.plan.players p.val = { q with st := 0, loops := 0, byLevel := false })

/-- 05 R156, R160, R166 to R168, R175, R180: staging, the effect of a plan and of its unload, equalisation, the change of
blocks and the end of a fade. -/
def Obligations.PlanEvents : Prop :=
  (∀ (s : State) (q : Staged) (f : Fail) (first : BitVec 64), s.plan.staged = some q → q.effect = none →
      rateWaits q s = false → stagedFail q s = some f →
      exec (.planStaged first) s = .next (answerFail q.kiosk f (s.onPlan fun p => { p with staged := none })))
  ∧ (∀ (s : State) (q : Staged) (first : BitVec 64), s.plan.staged = some q → q.effect = none →
      rateWaits q s = false → stagedFail q s = none →
      ∃ t, exec (.planStaged first) s = .next t ∧ ∃ p, t.plan.staged = some p ∧ p.img = q.img ∧
        p.rateChange = (s.wave.rate != some q.img.rate) ∧
        (p.rateChange = false → p.effect = some (if q.atSample = 0 then accWave s + 2 else q.atSample)))
  ∧ (∀ (s : State) (q : Staged) (w : BitVec 64), s.plan.staged = some q → q.effect = some w → waveCome w s = true →
      q.rateChange = false →
      exec .planTakeEffect s = .next (takeEffect q.img q.rateChange (sampleNow s) s))
  ∧ (∀ (s : State) (w : BitVec 64), s.plan.unload = some w → waveCome w s = true →
      exec .planUnloadEffect s = .next (unloadPlan s))
  ∧ (∀ (s : State) (r : BitVec 64) (i : Image), s.plan.restart = some r → s.plan.run = some i → s.wave.live = true →
      (r.toNat + 64 ≤ s.wave.num.toNat → (s.plan.bypassDue.any (·.1)) = false →
        ∃ t, exec .eqPublishH s = .next t ∧ t.plan.lat =
          (if latChanged i s.plan.lat (latPublish i (classLatency i) s.plan.lat) = 0 then s.plan.lat
          else latPublish i (classLatency i) s.plan.lat) ∧ t = { s with plan := t.plan, flt := t.flt })
      ∧ (r.toNat + 66 ≤ s.wave.num.toNat →
        ∃ t, exec .eqSettle s = .next t ∧ t.plan.restart = none ∧ t.plan.eqOn = true ∧
          t.plan.lat = latTable i (classLatency i) ∧ t.wave.settled = true))
  ∧ (∀ (s : State) (q : Swap) (i : Image), s.plan.swap = some q → s.plan.run = some i → swapDue q i s = true →
      let u := raise 0x0005 0 s.wave.num (swapChain q i s)
      (u.plan.eqOn = true → exec .blockSwap s = .next u)
      ∧ (u.plan.eqOn = false → exec .blockSwap s = .next (swapTable q.img u)))
  ∧ (∀ (s : State) (b : Fin 1024) (i : Image) (k : Nat) (n f : Nat), s.plan.run = some i →
      (∀ c, imgBlock i b.val = some c → c.type ≠ 6) → laneCopies s b.val = [k] → (laneAt s k).fade = some (n, f) → f ≤ n →
      ∃ t, exec (.fadeEnd b) s = .next t ∧ (laneAt t k).fade = none ∧
        (laneAt t k).cur.sec = (laneAt s k).cur.sec2 ∧ (laneAt t k).cmt.sec = (laneAt s k).cmt.sec2 ∧
        (laneAt t k).writes = (laneAt s k).fadeWait ++ (laneAt s k).writes ∧ (laneAt t k).fadeWait = [])

/-! ### Placement, memories and the Octot pair -/

/-- 06 R188 to R202, R205, R212, 01 R15, R16, 13 R436: what the placement engine does. A shadow run that has ended is judged at
the flip that follows. -/
def Obligations.PlacementEvents : Prop :=
  (∀ (s : State) (speeds : List (Nat × Nat)), s.wave.live = true → s.wave.num.toNat % 256 = 255 →
      (nolutDown s = false → ∃ t, exec (.slackWindowEnd speeds) s = .next t ∧ t.place.window = s.wave.num - 255 ∧
        t.place.thrNext = none ∧
        ∀ w m r k, s.place.thrNext = some (w, m, r, k) →
          t.place.warn = w ∧ t.place.move = m ∧ t.place.retire = r ∧ t.place.shadowK = k)
      ∧ (nolutDown s = true → exec (.slackWindowEnd speeds) s = .next (windowDrop s)))
  ∧ (∀ (s : State) (w : Nat), exec (.contextTransferComplete w) s = .next (s.onPlace fun p => { p with
      moving := p.moving.map fun m => if m.work = w ∧ m.j = none then { m with j := some (nextWave s) } else m }))
  ∧ (∀ (s : State) (w : Nat) (m : MoveS) (equal : Bool), runOver s .planned w = some m → s.wave.done.contains w = true →
      s.wave.done.contains (0x10000 + w) = true →
      exec (.shadowRunEnd w equal) s = .next (s.onPlace fun p => { p with
        moving := p.moving.map fun x => if x = m then { m with ended := some equal } else x }))
  ∧ (∀ (s : State) (d : Fin 52) (x w t : Nat), s.place.audOn = true → s.wave.live = true → s.plan.run.isSome = true →
      heldDistrict s d.val = false → migrating s < 8 → nolutDown s = false → occupants s d.val ≠ [] →
      (tget {} s.place.dist d.val).auditAt + s.place.audCycle.toNat * 100000 / (occupants s d.val).length ≤ s.clk.now →
      auditPick s d.val = some (x, w) → auditOn s d.val = some t →
      ∃ q, exec (.auditStart d) s = .next (startMove .audit w (d.val, 0xFF, t, (workAt s w).slot) s.place.audWin.toNat
          (nextWave s) (onDist d.val (fun _ => q) s)) ∧
        q.auditTile = t + 1 ∧ q.auditAt = s.clk.now)
  ∧ (∀ (s : State) (w : Nat) (m : MoveS), runOver s .audit w = some m →
      let u := auditWrap m.dd m.ss ((endMove m s).onPlace fun p => { p with nWindows := satAdd p.nWindows 1 })
      (m.equal = true → exec (.auditWindowEnd w true) s = .next (onWork w (fun k => { k with unaudited := false }) u))
      ∧ (∀ eq, (m.equal && eq) = false → exec (.auditWindowEnd w eq) s = .next (startTie w m.dd m.dt u)))
  ∧ (∀ (s : State) (w : Nat) (m : MoveS), (s.place.moving.find? fun m => m.work == w && m.kind == .tieBreak) = some m →
      let u := s.onPlace fun p => { p with moving := p.moving.filter (· != m) }
      exec (.tieBreakComplete w 0) s = .next (tileLoses w m.od 0xFF m.ot u)
      ∧ exec (.tieBreakComplete w 1) s = .next (noteAudit (decideMove w (16 + m.dd * 8 + m.dt) (tileLoses w m.sd m.ss m.st u)))
      ∧ exec (.tieBreakComplete w 2) s = .next (unresolved w u))
  ∧ (∀ s : State, s.place.healthAt + 1000000 ≤ s.clk.now → nolutDown s = false →
      exec .healthUpdate s = .next ((List.range 416).foldl (fun u k => updateTile k u)
        (s.onPlace fun p => { p with healthAt := s.clk.now })))
  ∧ (∀ s : State, s.place.saveAt + 86400000000 ≤ s.clk.now → nolutDown s = false →
      exec .healthSave s = .next (raise 0x0006 0 0 (s.onPlace fun p => { p with saveAt := s.clk.now })))
  ∧ (∀ (s : State) (w : Nat) (x : Nat × Nat × Nat × Nat), (s.place.works.any fun p => p.1 == w && !p.2.placed) = true →
      nolutDown s = false →
      ((workAt s w).pin = none → bestSlot s w allDistricts = some x →
        exec (.workReplace w) s = .next (endShortfall (pinCheck w (settleWork w x s))))
      ∧ (∀ d, (workAt s w).pin = some d → siteIn s w d = some x →
        exec (.workReplace w) s = .next (endShortfall (pinCheck w (settleWork w x s))))
      ∧ (∀ d, (workAt s w).pin = some d → siteIn s w d = none → bestSlot s w allDistricts = some x →
        exec (.workReplace w) s = .next (endShortfall (pinCheck w (settleWork w x s)))))
  ∧ (∀ (s : State) (k : Fin 416),
      let spent := (tileAt s k.val).spareUsed || s.wave.repairs.contains k.val
      ∃ t, exec (.cellRepair k) s = .next t ∧
        (spent = true → (tileAt t k.val).dead = true ∧ (tileAt t k.val).health = 0 ∧ t.wave = s.wave) ∧
        (spent = false → s.wave.live = true → t = s.onWave (fun w => { w with repairs := w.repairs ++ [k.val] })) ∧
        (spent = false → s.wave.live = false → (tileAt t k.val).spareUsed = true))
  ∧ (∀ s : State, s.host.fwState = 5 → s.clk.vReqAt + 600000000 ≤ s.clk.now → s.clk.floor < s.clk.vid →
      exec .vcoreLower s = .next (s.onClk fun c => { c with vid := c.vid - 1, vReqAt := c.now }))
  ∧ (∀ (s : State) (k : Nat) (m : MoveS), s.place.moving = [m] → m.kind = .planned → m.ended = some (k == 0) →
      shadowEnds s = if m.equal = true ∧ k = 0 then takeOver m s else startTie m.work m.dd m.dt (abandon m s))

/-- 12 R387, R392 to R395, R398, 14 R447, 13 R437: what the scrubbers, the repair of rows and the temperature sensors do. -/
def Obligations.MemoryEvents : Prop :=
  (∀ (s : State) (m : MemAt), s.clk.por = false → s.clk.power ≠ .retain →
      exec (.edramScrub m true) s = .next (doubleBit m s) ∧ exec (.edramScrub m false) s = .next (corrected m s))
  ∧ (∀ (s : State) (n : Nat) (double : Bool), s.clk.por = false → s.clk.power ≠ .retain →
      s.mat.scrubbed + 60000000 ≤ s.clk.now →
      ∃ t, exec (.sramScrub n double) s = .next t ∧ t.mat.ce = satAdd s.mat.ce n ∧ t.mat.scrubbed = s.clk.now ∧
        t.mat.ue = (if double then satAdd s.mat.ue 1 else s.mat.ue) ∧ t.mat.mem = s.mat.mem)
  ∧ (∀ (s : State) (n d : Nat), s.mat.ddrState = 2 → s.mat.patrolled + 86400000000 ≤ s.clk.now →
      exec (.ddrPatrolScrub n d) s = .next (s.onMat fun x => { x with
        ce := satAdd x.ce n
        ue := satAdd x.ue d
        patrolled := s.clk.now }))
  ∧ (∀ (s : State) (m : MemAt), s.clk.por = false →
      (sparesOut m s = true → m.region = 0 → ∃ t, exec (.edramRowRepair m true) s = .next t ∧
        (tileAt t m.bank).dead = true ∧ (tileAt t m.bank).health = 0)
      ∧ (sparesOut m s = true → m.region ≠ 0 → s.mat.sparesTold.contains (bankKey m) = false →
        ∃ t, exec (.edramRowRepair m true) s = .next t ∧ t.mat.spares = true ∧
          t.mat.sparesTold = s.mat.sparesTold ++ [bankKey m])
      ∧ (sparesOut m s = false → s.wave.live = true → exec (.edramRowRepair m true) s = .next (rowSwap m s))
      ∧ (sparesOut m s = false → s.wave.live = false → exec (.edramRowRepair m true) s = .next (repairAll (rowSwap m s))))
  ∧ (∀ (s : State) (k : Fin 16) (tj : Int), s.clk.por = false →
      exec (.tjThresholdCross k tj) s = .next (sensorHot k.val tj s))
  ∧ (∀ (s : State) (q : Fin 4) (tj : Int), s.clk.por = false → tget 0 s.mat.rose q.val + 1000000 ≤ s.clk.now →
      exec (.edramRefreshRelax q tj) s = .next (coolEnd (s.onMat fun x => { x with
        tj := tput 0 x.tj q.val tj
        refresh := tput 0 x.refresh q.val (min (tget 0 x.refresh q.val) (refreshCode (tj + 3))) })))
  ∧ (∀ (s : State) (k : Fin 16) (tj : Int), s.clk.por = false → 140 < tj →
      exec (.tjCrit k tj) s = .next (raise 0x090C k.val (BitVec.ofInt 64 tj) (sensorHot k.val tj s)))

/-- 10 R314, R323, R325 to R327, R331, R334: the states of a unit of a pair. -/
def Obligations.PairStates : Prop :=
  (∀ (s : State) (t0 : Nat), s.twin.joinFrom = some t0 → s.twin.pair = true → s.twin.state = 1 → s.twin.linkUp = false →
      s.twin.stay = false → nolutDown s = false → t0 + s.twin.startWait * 100000 * (if s.twin.unit then 2 else 1) ≤ s.clk.now →
      exec .twinStartWait s = .next (becomeClaimant (if s.twin.highAcc = 0 then 1 else claimSucc s.twin.highAcc) s))
  ∧ (∀ s : State, s.twin.state = 3 → s.twin.runInEnd.toNat ≤ (sampleNow s).toNat →
      ∃ t, exec .twinRunInEnd s = .next t ∧ t.twin.state = 4 ∧ t.twin.seedPut = [] ∧ t.twin.seedLeft = seedItems s ∧
        t.twin.joinAt = s.clk.now)
  ∧ (∀ (s : State) (b : Fin 1024), s.twin.state = 4 → s.twin.seedLeft.contains (2, b.val) = true →
      s.twin.seedPut.contains b.val = false →
      exec (.seedItemTimeout b) s = .next (s.onTwin fun t => { t with seedOver := b.val :: t.seedOver }))
  ∧ (∀ s : State, s.twin.state = 5 → s.twin.linkUp = true → 4800 ≤ s.twin.convRun →
      ∃ t, exec .twinReady s = .next t ∧ t.twin.state = 6 ∧ t.twin.claim = claimPred s.twin.peer.claim)
  ∧ (∀ s : State, s.twin.state = 4 ∨ s.twin.state = 5 → s.twin.joinAt + s.twin.joinLimit * 1000000 ≤ s.clk.now →
      ∃ t, exec .joinFailed s = .next t ∧ t.twin.state = 1 ∧ t.twin.failed = true ∧ t.twin.joinAt = s.clk.now)
  ∧ (∀ s : State, s.twin.failed = true → s.twin.autoRejoin = true → s.twin.state = 1 → s.twin.linkUp = true →
      nolutDown s = false → s.twin.joinAt + s.twin.joinLimit * 1000000 ≤ s.clk.now → exec .twinAutoRejoin s = .next (startJoin s))
  ∧ (∀ (s : State) (p : BitVec 64) (c : BitVec 16) (swap : Bool), s.twin.promAt = some (p, c, swap) →
      p.toNat ≤ (sampleNow s).toNat →
      let u := s.onTwin fun t => { t with promAt := none, lastProm := p }
      (s.twin.active = true → exec .twinPromotion s = .next (standDown p swap u))
      ∧ (s.twin.active = false → nolutDown s = false → s.plan.staged = none → exec .twinPromotion s
          = .next (becomeClaimant c (u.onTwin fun t => { t with promotions := satAdd t.promotions 1 }))))
  ∧ (∀ (s : State) (w : BitVec 64), s.twin.dropAt = some w → w.toNat ≤ (sampleNow s).toNat →
      exec .twinClaimDrop s = .next (rejoin (s.onTwin fun t => { t with dropAt := none })))

/-- 10 R315 to R320, R328, R329, 07 R226: frames that arrive, lanes that fail, the decision of wave n + 8 and a forwarded
command. -/
def Obligations.PairFrames : Prop :=
  (∀ (s : State) (k : Fin 2) (h : List Byte) (recs : List FwdRec) (good : Bool), s.twin.pair = true →
      (good && fld h 0 4 == 0x4F435431 && h.length == 368) = false →
      exec (.octotFrameReceive k good h recs) s
        = .next (s.onTwin fun t => { t with laneGood := tput 0 t.laneGood k.val 0 }))
  ∧ (∀ (s : State) (k : Fin 2) (h : List Byte) (recs : List FwdRec), s.twin.pair = true → s.twin.state ≠ 2 →
      fld h 0 4 = 0x4F435431 → h.length = 368 → tget 0 s.twin.laneGood k.val < 15 →
      s.twin.heardAt ≠ some (octParse h (recs.filter fun r => r.type != 6)).sample →
      exec (.octotFrameReceive k true h recs) s = .next (octTake (octParse h (recs.filter fun r => r.type != 6))
        (s.onTwin fun t => { t with
          heard := t.heard ||| BitVec.ofNat 2 (2 ^ k.val)
          laneGood := tput 0 t.laneGood k.val (tget 0 t.laneGood k.val + 1) })))
  ∧ (∀ (s : State) (k : Fin 2), s.twin.laneUp.getLsbD k.val = true → 8 ≤ tget 0 s.twin.laneBad k.val →
      exec (.octotLane k) s = .next (octEval (raise 0x0801 k.val 0 (s.onTwin fun t => { t with
        laneUp := t.laneUp &&& ~~~ (BitVec.ofNat 2 (2 ^ k.val)) }))))
  ∧ (∀ (s : State) (l : Fin 32) (comma : Bool) (frame : List Byte), exec (.upstreamFrameReceive l comma frame) s
      = .next (quorumPromote (stageTells l.val (upstreamFrame l.val comma frame s))))
  ∧ (∀ (s : State) (d : Decision), s.twin.decide = some d → d.sample.toNat + 8 ≤ (sampleNow s).toNat →
      nolutDown s = false → promBusy (d.sample + 8) s = true →
      ∃ t, exec .twinDecision s = .next t ∧ t.twin.decide = none)
  ∧ (∀ (s : State) (d : Decision), s.twin.decide = some d → d.sample.toNat + 8 ≤ (sampleNow s).toNat →
      nolutDown s = false → promBusy (d.sample + 8) s = false →
      (s.twin.own.flags.getLsbD 4 || s.twin.own.flags.getLsbD 5) = true →
      (s.twin.peer.flags.getLsbD 4 || s.twin.peer.flags.getLsbD 5) = false →
      (d.active = true → ∃ t, exec .twinDecision s = .next t ∧ t.twin.decide = none ∧ t.twin.outcome = 2 ∧
        t.twin.promAt = some (d.sample + 9, claimSucc (if s.twin.active then s.twin.claim else s.twin.peer.claim), false)))
  ∧ (∀ s : State, exec .forwardedCommandApply s = .next (forwardAll s))

/-! ### Drive links, stages and the network -/

/-- 07 R226, R228, R240, R242 to R247, R255: links that are lost, requests without an answer, the windows of temperature and
impedance, and the probe of a shorted channel. -/
def Obligations.DriveEvents : Prop :=
  (∀ (s : State) (l : Fin 32), (linkAt s l.val).up = true → 8 ≤ (linkAt s l.val).bad →
      ∃ t, exec (.linkLoss l) s = .next t ∧ (linkAt t l.val).up = false ∧ (linkAt t l.val).aclRun = 0 ∧
        (linkAt t l.val).upLosses = satAdd (linkAt s l.val).upLosses 1 ∧ t.drv.linkLoss = true)
  ∧ (∀ (s : State) (l : Fin 32) (r : CtlReq), (linkAt s l.val).req = some r → 64 ≤ r.waits → r.repeats = 3 →
      r.owner < 32 →
      ∃ u, (linkAt u l.val).req = none ∧ (linkAt u l.val).ctlTo = satAdd (linkAt s l.val).ctlTo 1 ∧ u.drv.ctlTo = true ∧
        u.host = s.host ∧ exec (.ctlTimeout l) s = .next (answerFail r.owner { status := 0x0033 } u))
  ∧ (∀ s : State, s.drv.frames = true → s.wave.count.toNat ≠ 0 →
      16 * (s.drv.thermWin + 1) + 3 ≤ s.wave.count.toNat →
      exec .thermalUpdate s = .next ((List.range 128).foldl (fun u c => thermChan c u)
        (s.onDrv fun d => { d with thermWin := (s.wave.count.toNat - 3) / 16 })))
  ∧ (∀ (s : State) (c : Fin 128), s.drv.frames = true → pilotOn s (chanAt s c.val).pilot = true →
      (chanAt s c.val).short ≠ .probe →
      (chanAt s c.val).pilAt.toNat + (chanAt s c.val).pilot.window * (hz s / 4) ≤ s.wave.count.toNat →
      let ok := readingOk (chanAt s c.val)
        (pilotW s (pilotHz (chanAt s c.val).pilot) ((chanAt s c.val).pilot.window * (hz s / 4)))
      (ok = false → ∃ u, (chanAt u c.val).noRead = (chanAt s c.val).noRead + 1 ∧ (chanAt u c.val).readOk = false ∧
        (chanAt u c.val).pilAt = s.wave.count ∧ u = s.onDrv (fun _ => u.drv) ∧
        exec (.pilotWindowEnd c () () () ()) s = .next (if (chanAt s c.val).noRead + 1 = 4 then raise 0x0504 c.val 0 u else u))
      ∧ (ok = true → exec (.pilotWindowEnd c () () () ()) s = .next (pilotNextWindow c.val
        (takeReading c.val ((chanAt s c.val).pilot.mode == 1) (onChan c.val (fun q => { q with noRead := 0 }) s)))))
  ∧ (∀ (s : State) (c : Fin 128), probeDue s c.val = true → exec (.shortProbeStart c) s = .next (probeStart c.val s))
  ∧ (∀ (s : State) (c : Fin 128), (chanAt s c.val).short = .probe →
      (chanAt s c.val).shortAt.toNat + hz s / 5 ≤ s.wave.count.toNat + 1 →
      let q := chanAt s c.val
      let zz := zSquare q (Config.free s.free)
      let ok := readingOk q (pilotW s (probePilot s q.pilot).2 (hz s / 5)) = true ∧
        q.z.shortL * q.z.shortL * zz.2 ≤ zz.1 ∧ q.probeBad = false
      (ok → ∃ t, exec (.shortProbeEnd c () ()) s = .next t ∧ (chanAt t c.val).short = .none ∧
        (chanAt t c.val).resume = some (s.wave.count + 96))
      ∧ (¬ ok → ∃ t, exec (.shortProbeEnd c () ()) s = .next t ∧ (chanAt t c.val).short = .waiting ∧
        (chanAt t c.val).shortAt = s.wave.count + 1))
  ∧ (∀ (s : State) (c : Fin 128) (w : BitVec 64), (chanAt s c.val).resume = some w → (chanAt s c.val).short = .none →
      (chanAt s c.val).trip = false → (chanAt s c.val).muteDue = none → w.toNat ≤ (s.wave.count + 1).toNat →
      ∃ t, exec (.channelResume c) s = .next t ∧ (chanAt t c.val).resume = none ∧
        (∀ j, j ≠ c.val → chanAt t j = chanAt s j) ∧ t = s.onDrv (fun _ => t.drv))

/-- 07 R225, R231 to R237: what a drive stage does with its frames, and the frames that it sends. -/
def Obligations.StageEvents : Prop :=
  (∀ (s : State) (l : Fin 32) (b : Bool) (frame : List Byte), frame.length = 35 →
      (crc16 (frame.take 33)).toNat = fldBe frame 33 2 →
      exec (.stageDownstreamFrame l b frame) s = .next (onStage l.val (fun t =>
        stageControl (stagePeriod b (inGood frame) t) b (BitVec.ofNat 32 (Config.free s.free)) ((frame.drop 25).take 8))
        { s with free := s.free + 1 }))
  ∧ (∀ (s : State) (l : Fin 32) (b : Bool) (frame : List Byte),
      frame.length ≠ 35 ∨ (crc16 (frame.take 33)).toNat ≠ fldBe frame 33 2 →
      exec (.stageDownstreamFrame l b frame) s
        = .next (onStage l.val (stagePeriod b (fun i => inBad { i with err := i.err + 1 })) s))
  ∧ (∀ (s : State) (l : Fin 32) (b : Bool), exec (.stageFrameMissing l b) s = .next (onStage l.val (stagePeriod b inBad) s))
  ∧ (∀ (s : State) (l : Fin 32), (stageAt s l.val).acc = none →
      exec (.stageMuteNoInput l) s = .next (onStage l.val (fun t => { t with muteAll := true }) s))
  ∧ (∀ (s : State) (l : Fin 32) (k : Fin 4),
      exec (.stageCurrentLimit l k) s
        = .next (onStage l.val (fun t => { t with oc := t.oc ||| BitVec.ofNat 4 (2 ^ k.val) }) s)
      ∧ (BitVec.ofNat 4 (2 ^ k.val)).getLsbD k.val = true)
  ∧ (∀ (s : State) (l : Fin 32) (supply : Bool) (ot trips : BitVec 4) (v i : List (BitVec 24)),
      ∃ t, exec (.stageUpstreamSend l supply ot trips v i) s = .next (onStage l.val (fun _ => t) s) ∧
        (let q := { stageAt s l.val with ot := ot, trips := trips, rd := t.rd }
        t.playedSc = (stageNext q).1 ∧ t.playMute = (stageNext q).2.1 ∧ t.played = (stageNext q).2.2 ∧ t.ot = ot ∧
          t.trips = trips ∧ t.oc = 0 ∧ t.up = upFrame q false supply ot v i ∧ t.upB = upFrame q true supply ot v i))
  ∧ (∀ (s : State) (l j : Fin 32) (f : StageS → StageS), stageAt (onStage l.val f s) l.val = f (stageAt s l.val) ∧
      (j ≠ l → stageAt (onStage l.val f s) j.val = stageAt s j.val) ∧
      onStage l.val f s = s.onDrv (fun _ => (onStage l.val f s).drv))

/-- 08 R261, R272, R273, R276 to R280, R283: frames on a network port and the writes of a ring's registers. -/
def Obligations.NetworkFrames : Prop :=
  (∀ (s : State) (p : Fin 5) (frame : List Byte) (secs : BitVec 34) (ns : BitVec 30),
      (portAt s p.val).flags.getLsbD 0 = true → (portAt s p.val).link = true → s.clk.power = .run ∨ s.clk.power = .hush →
      let long := (portAt s p.val).maxFrame + macsecAdds s p.val frame < frame.length
      let time := secs.toNat * 2 ^ 30 + ns.toNat
      let u := countPort p.val 1 frame.length (countPort p.val 0 1 s)
      (frame.length < 64 → exec (.rxFrame p frame () secs ns) s = .next (countPort p.val 3 1 s))
      ∧ (64 ≤ frame.length → ¬ long → fcsGood frame = false →
        exec (.rxFrame p frame () secs ns) s = .next (countPort p.val 2 1 s))
      ∧ (p = 4 → 64 ≤ frame.length → long ∨ fcsGood frame = true →
        exec (.rxFrame p frame () secs ns) s = .next (rxDeliver 4 frame false time u))
      ∧ (p ≠ 4 → 64 ≤ frame.length → long ∨ fcsGood frame = true →
        (∀ f mark, (macsecRx p.val frame u).2 = some (f, mark) →
          exec (.rxFrame p frame () secs ns) s = .next (rxDeliver p.val f mark time (macsecRx p.val frame u).1))
        ∧ ((macsecRx p.val frame u).2 = none → exec (.rxFrame p frame () secs ns) s = .next (macsecRx p.val frame u).1)))
  ∧ (∀ (s : State) (p : Fin 5) (filled : List Nat), portFree (txDrain p.val s) p.val = true →
      let u := txDrain p.val s
      (∀ f l, (portAt u p.val).fwTx = f :: l → exec (.txFrameStart p filled) s = .next (txStartFw p.val f u))
      ∧ ((portAt u p.val).fwTx = [] → ∀ r l,
        (txOrder p.val (portAt u p.val).turn).find? (fun r => txReady u (txRing p.val r) (filled.getD r 0)) = some r →
        txHead u (txRing p.val r) = some l → exec (.txFrameStart p filled) s = .next (txStartRing p.val r l u)))
  ∧ (∀ (s : State) (p : Fin 5) (g n len : Nat) (secs : BitVec 34) (ns : BitVec 30), (portAt s p.val).sending = some g →
      (portAt s p.val).fwOut = none → (ringAt s g).inFly = some (n, len) →
      let u := countPort p.val 15 len (countPort p.val 14 1 s)
      let asked := bitOf (fld (dmaRead s (ringDesc (ringAt s g) ((ringAt s g).cons.toNat + n - 1)) 16) 10 2) 1
      exec (.txFrameComplete p secs ns) s = .next (sendEnd p.val (txBack g n (3 + if asked then 32 else 0)
        (if asked then secs.toNat * 2 ^ 30 + ns.toNat else 0) u)))
  ∧ (∀ (s : State) (p : Fin 5) (g n len sent : Nat), (portAt s p.val).sending = some g →
      (ringAt s g).inFly = some (n, len) →
      let v := onPort p.val (fun q => { q with wire := badFcs (q.wire.take (min sent (q.wire.length - 4))) }) s
      exec (.txUnderrun ⟨p, sent⟩) s = .next (sendEnd p.val (txBack g n 5 0
        (onRing g (fun r => { r with txStart := if r.txStart.toNat < 38 then r.txStart + 1 else r.txStart })
          (stickPort p.val 6 (stickRing g 1 (countPort p.val 16 1 v)))))))
  ∧ (∀ (s : State) (g : Fin 136) (fw : Bool) (prod : BitVec 16) (mem : List (Nat × List Byte)),
      exec (.ringProdWrite g fw prod mem) s = .next (ringWrite fw g.val 0x0C (prod.zeroExtend 32) (placeMem fw mem s)))
  ∧ (∀ (s : State) (g : Fin 136) (fw : Bool) (ctrl : BitVec 32),
      exec (.ringEnable g fw ctrl) s = .next (ringWrite fw g.val 0x08 ctrl s))

/-- 08 R265, R266, R280, R281, R286, R288, 13 R434: pause, links, wakes and streams. -/
def Obligations.NetworkEvents : Prop :=
  (∀ (s : State) (p : Fin 5) (e : Nat), (portAt s p.val).pauseEnd = some e → e < (s.clk.now + 1) * 100000 →
      exec (.pauseExpire p) s = .next (pauseSet p.val 0 s))
  ∧ (∀ (s : State) (p : Fin 5) (e b : Nat), (portAt s p.val).pauseEnd = some e → (portAt s p.val).pausedAt = some b →
      b + (portAt s p.val).wdUs ≤ s.clk.now → s.clk.now * 100000 < e →
      ∃ u, (portAt u p.val).pauseEnd = none ∧ (portAt u p.val).pausedAt = none ∧
        (portAt u p.val).holdAt = some s.clk.now ∧ u = { s with net := u.net, flt := u.flt } ∧
        exec (.pauseWatchdog p) s = .next (txDrain p.val u))
  ∧ (∀ (s : State) (p : Fin 5) (b : Nat), (portAt s p.val).holdAt = some b →
      b + (portAt s p.val).holdMs * 1000 ≤ s.clk.now →
      ∃ t, exec (.pauseHoldoffEnd p) s = .next t ∧ portAt t p.val = { portAt s p.val with holdAt := none } ∧
        (∀ j, j ≠ p.val → portAt t j = portAt s j))
  ∧ (∀ (s : State) (p : Fin 5), exec (.linkDown p false) s = .next (linkSet p.val false s)
      ∧ ((portAt s p.val).flags.getLsbD 0 = true → s.clk.power = .run → p = 4 ∨ s.clk.lock.getLsbD 3 = true →
        exec (.linkDown p true) s = .next (linkSet p.val true s)))
  ∧ (∀ (s : State) (frame : List Byte) (c : Nat), fcsGood frame = true → wakeMatch s frame = some c →
      s.clk.power = .retain →
      exec (.wakeFrame frame) s = .next (wakeBegin 1 (s.onNet fun n => { n with wakeCause := BitVec.ofNat 8 c })))
  ∧ (∀ s : State, s.clk.power = .retain → s.clk.wakeS ≠ 0 → s.clk.retAt + s.clk.wakeS * 1000000 ≤ s.clk.now →
      exec .wakeTimer s = .next (wakeBegin 2 (s.onNet fun n => { n with wakeCause := 0 })))
  ∧ (∀ (s : State) (k : Fin 512), (rxAt s k.val).state = 1 ∨ (rxAt s k.val).state = 2 →
      (rxAt s k.val).lastAt.toNat + 8 * packetLen s (rxAt s k.val).ptime ≤ s.wave.count.toNat →
      ∃ t, exec (.streamLoss k) s = .next t ∧ rxAt t k.val = { rxAt s k.val with state := 3, paths := 0, buf := [] } ∧
        (∀ j, j ≠ k.val → rxAt t j = rxAt s j))
  ∧ (∀ (s : State) (k : Fin 512) (n : BitVec 64) (ws : List W36), (txAt s k.val).ready = some (n, false, ws) →
      ∃ t, exec (.streamPacketQueue k) s = .next t ∧ txAt t k.val = { txAt s k.val with ready := none } ∧
        (∀ j, j ≠ k.val → txAt t j = txAt s j))
  ∧ (∀ (s : State) (k : Fin 512) (n : BitVec 64) (ws : List W36), (txAt s k.val).ready = some (n, true, ws) →
      let u := onTx k.val (fun t => { t with ready := none }) s
      let a := txAt s k.val
      let x : TxPkt := {
        stream := k.val
        first := n
        ts := txTs a n
        seq := txSeq s a n
        at64 := s.wave.count
        rtp := rtpBytes u a n ws
        len := streamFrame a.chans (packetLen s a.ptime) a.extId a.vlan a.l24 }
      exec (.streamPacketQueue k) s = .next ((pathPorts a.ports).foldl (fun v p =>
        txDrain p (onPort p (fun q => { q with queue := q.queue ++ [pktFor v a p x] }) v)) u))
  ∧ (∀ (s : State) (p : Fin 4), ∃ t, exec (.streamPacketStale p) s = .next t ∧
      (portAt t p.val).queue = (portAt s p.val).queue.filter fun x => !pktStale s x)

/-! ### Host interface, power, faults and security -/

/-- 09 R300, R301, R304: the census of local modules and of stages. -/
def Obligations.CensusEvents : Prop :=
  (∀ (s : State) (answers : List (Fin 32 × List Byte)), nolutDown s = false → s.lio.busy = true → s.lio.probe = true →
      exec (.censusProbe answers) s = .next (censusEnd ((List.range 32).foldl (fun u m =>
        probeModule true m ((answers.find? fun a => a.1.val == m).map (·.2)) u) (s.onLio fun x => { x with
          probe := false
          probeAt := s.clk.now }))))
  ∧ (∀ (s : State) (m : Fin 32) (b : List Byte), nolutDown s = false → (modAt s m.val).st = 1 →
      (dmirCrc b = true → exec (.censusReadComplete m b) s = .next (moduleDone m.val (dmirRead m.val b s)))
      ∧ (dmirCrc b = false → exec (.censusReadComplete m b) s = .next (readFailed m.val s))
      ∧ exec (.censusReadRetry m) s = .next (readFailed m.val s))
  ∧ (∀ (s : State) (b : Fin 4), exec (.i2cBusStuck b true) s = .next s
      ∧ exec (.i2cBusStuck b false) s = .next ((List.range 8).foldl (fun u a =>
        moduleDone (8 * b.val + a) (unreadable (8 * b.val + a) u)) (raise 0x0705 (8 * b.val) 0 (stickLio 1 s))))
  ∧ (∀ (s : State) (l : Fin 32), nolutDown s = false → (modAt s (32 + l.val)).st = 1 →
      (linkAt s l.val).dmir.length = 256 →
      exec (.stageDmirReadComplete l) s = .next (moduleDone (32 + l.val) (dmirRead (32 + l.val) (linkAt s l.val).dmir
        (onLink l.val (fun k => { k with dmir := [] }) s))))
  ∧ (∀ (s : State) (l : Fin 32) (b : Nat), (modAt s (32 + l.val)).retryAt = some b → b ≤ s.clk.now →
      nolutDown s = false → (linkAt s l.val).up = true → (modAt s (32 + l.val)).st = 3 →
      exec (.stageDmirRetry l) s = .next (dmirStart l.val s))

/-- 11 R357, R362, R363, 00 R9, R11, 01 R36, 11 R351, R352, R369 to R371: what the host does through the Kiosks, the
registers, the SPI port and the Data Port. -/
def Obligations.HostAccesses : Prop :=
  (∀ (s : State) (k : Fin 32), hostUp s = true → exec (.kioskDoorbell k ()) s = .next (doorbell k.val s))
  ∧ (∀ (s : State) (r : Rec) (l : List Rec), s.host.fwState = 5 → (tget {} s.host.kiosks 0).st ≠ 3 → s.host.k0 = r :: l →
      ∃ t, exec .kiosk0EventPost s = .next t ∧ t.host.k0 = l ∧ (tget {} t.host.kiosks 0).st = 3 ∧
        (tget {} t.host.kiosks 0).tagDone = r.seq.truncate 16)
  ∧ (∀ s : State, s.host.fwState = 5 →
      ((tget {} s.host.kiosks 0).st = 3 → ∃ t, exec .kiosk0Ack s = .next t ∧ t = s.onHost (fun _ => t.host) ∧
        (tget {} t.host.kiosks 0).st = 0)
      ∧ ((tget {} s.host.kiosks 0).st ≠ 3 → ∃ t, exec .kiosk0Ack s = .next t ∧ (tget {} t.host.kiosks 0).st = 2 ∧
        t.host.rejected = satAdd s.host.rejected 1))
  ∧ (∀ (s : State) (o : BitVec 24) (d : List (Option Byte)), hostUp s = true →
      exec (.registerWrite o d) s = .next (hostWrite (o.toNat / 4 * 4) (d.take 4) s))
  ∧ (∀ (s : State) (o : BitVec 24), hostUp s = true →
      ∃ t, exec (.readClearRegister o) s = .next t ∧ t.host.rdata = (hostRead (o.toNat / 4 * 4) s).1)
  ∧ (∀ s : State, hostUp s = true → ∃ t, exec .sampleCountRead s = .next t ∧ t.host.rdata = (hostRead 0x200008 s).1)
  ∧ (∀ (s : State) (v : BitVec 32), hostUp s = true →
      exec (.logMarkWrite v) s = .next (s.onHost fun h => { h with mark := v }))
  ∧ (∀ (s : State) (a : BitVec 32) (d : List Byte), hostUp s = true → spiGood a = true → d ≠ [] →
      let n := d.take (spiLen a d.length)
      let u := spiDone (decide (n.length < d.length)) s
      (spiBar2 a = true → exec (.spiWrite a d ()) s = .next (bar2Write (spiOff a) (n.map some) u))
      ∧ (spiBar2 a = false → exec (.spiWrite a d ()) s = .next ((wordsOf (spiOff a) n.length).foldl (fun u w =>
        hostWrite w (wordPart (spiOff a) n w) u) u)))
  ∧ (∀ (s : State) (a : BitVec 32) (n : Nat), hostUp s = true → spiGood a = true → n ≠ 0 →
      ∃ t, exec (.spiRead a n) s = .next t ∧ t.host.rdata.length = n)
  ∧ (∀ s : State, hostUp s = true → ∃ t, exec .spiStatus s = .next t ∧ HostOnly s t ∧
      t.host.rdata = le 1 (b2n (s.host.fwState == 5) + 2 * b2n (hostIrq s) + 4 * b2n s.host.spiErr))
  ∧ (∀ (s : State) (c : Fin 4) (o : BitVec 24) (d : List (Option Byte)),
      exec (.dataPortWrite c o d) s = .next (dpWrite c.val o.toNat d s))
  ∧ (∀ (s : State) (c : Fin 4) (o : BitVec 24) (n : Nat) (ded : Option Nat),
      exec (.dataPortRead c o n ded) s = .next ((dpRead c.val o.toNat n ded s).2.onHost fun h => { h with
        rdata := (dpRead c.val o.toNat n ded s).1 }))
  ∧ (∀ (s : State) (c : Fin 4), exec (.dpCommit c) s = .next (dpEnd c.val s)
      ∧ ((dpAt s c.val).burstNext.isSome = true → (dpAt s c.val).burstAt + 2 ≤ s.clk.now →
        exec (.dpBurstIdleEnd c) s = .next (dpEnd c.val s))
      ∧ (∀ v, exec (.dpAddrWrite c v) s = .next (dpSetAddr c.val v s))
      ∧ (∃ t, exec (.dpErrorClear c) s = .next t ∧ dpAt t c.val = { dpAt s c.val with error := false } ∧
        ∀ j, j ≠ c.val → dpAt t j = dpAt s j))

/-- 11 R353 to R355, 12 R397, 13 R418, R424, R425, 15 R467: the steps of the boot. -/
def Obligations.BootSteps : Prop :=
  (∀ s : State, ∃ t, exec .powerOnReset s = .next t ∧
      t = { State.reset with
        pending := s.pending
        free := s.free
        sm := t.sm
        mat := { State.reset.mat with mem := t.mat.mem }
        drv := { State.reset.drv with stages := s.drv.stages }
        clk := { State.reset.clk with pins := s.clk.pins } })
  ∧ (∀ s : State, exec .powerOnResetRelease s = .next (s.onClk fun c => { c with por := false }))
  ∧ (∀ (s : State) (unit : Bool), s.clk.por = false → s.clk.rcOk = false →
      ∃ t, exec (.rcStable unit) s = .next t ∧ t.clk.rcOk = true ∧ t.clk.boot = 2 ∧ t.twin.unit = unit)
  ∧ (∀ (s : State) (counts : List (BitVec 6)), s.clk.boot = 2 → counts.length = 8 →
      ∃ t, exec (.bootcfgMeasure counts) s = .next t ∧ t.clk.boot = 3 ∧
        t.clk.bootCount = BitVec.ofNat 6 (bootMedian (counts.map (·.toNat))) ∧
        t.host.bootSrc = bootCodeOf (bootMedian (counts.map (·.toNat))) / 4)
  ∧ (∀ s : State, s.clk.boot = 3 →
      (∃ t, exec (.crystalDelayEnd true) s = .next t ∧ t.clk.boot = 4 ∧ t.clk.refOk = true ∧ t.clk.xtal = true)
      ∧ (∃ t, exec (.crystalDelayEnd false) s = .next t ∧ t.clk.boot = 5 ∧ t.clk.onRc = true ∧ t.clk.xtal = true))
  ∧ (∀ s : State, s.clk.boot = 5 → s.sm.state = 0 → s.sm.request = false →
      exec (.smSelftestComplete true) s = .next (bootRom (s.onSm fun m => { m with state := if m.tampered then 3 else 1 }))
      ∧ exec (.smSelftestComplete false) s = .next (raise 0x0B03 0 0 s))
  ∧ (∀ (s : State) (v : BitVec 32), hostUp s = true → exec (.fwLoadWrite v) s = .next (fwLoad v s))
  ∧ (∀ (s : State) (o : BitVec 26) (d : List (Option Byte)), hostUp s = true →
      exec (.stagingWindowWrite o d) s = .next (stagingWrite o.toNat d s))
  ∧ (∀ (s : State) (b : List Byte), s.host.fwState = 2 → ∃ t, exec (.bootImageLoaded (some b)) s = .next t ∧
      t.host.fwState = 3 ∧ t.host.bootErr = 0 ∧ t.mat.mem = memWrite s.mat.mem stagingAt (b.take 2097152))
  ∧ (∀ s : State, s.host.fwState = 2 → s.host.bootSrc = 0 → ∃ t, exec (.bootImageLoaded none) s = .next t ∧
      t.host.fwState = 6 ∧ t.host.bootErr = 4 ∧ HostOnly s t)
  ∧ (∀ s : State, s.host.fwState = 2 → s.host.bootSrc = 2 → ∃ t, exec .networkBootTimeout s = .next t ∧
      t.host.fwState = 6 ∧ t.host.bootErr = 5 ∧ HostOnly s t)
  ∧ (∀ (s : State) (build : BitVec 64) (v : BitVec 32), s.host.fwState = 3 →
      (imageErr s stagingAt = 0 → ∃ t, exec (.fwVerifyComplete () build v) s = .next t ∧ t.host.fwState = 4 ∧
        t.host.fwBuild = build ∧ t.sm.version = v)
      ∧ (imageErr s stagingAt ≠ 0 → ∃ t, exec (.fwVerifyComplete () build v) s = .next t ∧
        t.host.bootErr = imageErr s stagingAt ∧ t.host.fwState = (if s.host.bootSrc = 1 then 1 else 6) ∧ HostOnly s t))
  ∧ (∀ (s : State) (cap rate : Nat), s.host.fwState = 4 → s.mat.ddrState ≤ 1 → 1 ≤ cap → cap ≤ 5 → 1 ≤ rate → rate ≤ 4 →
      (∃ t, exec (.ddrTrainingComplete true cap rate) s = .next t ∧ t.mat.ddrState = 2 ∧ t.mat.ddrCap = cap ∧
        t.mat.ddrRate = rate)
      ∧ (∃ u, exec (.ddrTrainingComplete false cap rate) s = .next (raise 0x1008 0 0 (ddrFail u)) ∧ u.mat.ddrCap = cap))
  ∧ (∀ s : State, s.mat.ddrState = 2 → exec .ddrRetrain s = .next (s.onMat fun m => { m with retrain := s.clk.now }))
  ∧ (∀ (s : State) (failed : List (Fin 416)), s.host.fwState = 4 → s.clk.quarters < 4 → 2 ≤ s.mat.ddrState →
      ∃ t, exec (.quarterRelease failed) s = .next t ∧ t.clk.quarters = s.clk.quarters + 1 ∧
        (∀ k ∈ failed, quarterOf (k.val / 8) = s.clk.quarters → (tileAt t k.val).retired = true))
  ∧ (∀ (s : State) (d : Fin 52), s.host.fwState = 4 → quarterOf d.val = s.clk.quarters →
      exec (.districtFail d) s
        = .next (raise 0x040D (distObj d.val) 0 ((List.range 8).foldl (fun u t => retireTile d.val t u) s)))
  ∧ (∀ s : State, s.host.fwState = 4 → s.clk.quarters = 4 → s.clk.restart = false →
      exec .fwReady s = .next (fwReady (copyImage s)))

/-- 13 R404, R407 to R415, R417: time from the network, the loops and the clock monitors. -/
def Obligations.ClockEvents : Prop :=
  (∀ s : State, s.clk.restart = false →
      (s.clk.dpll = some 0 → exec (.ptpTimeAvailable ()) s = .next (dpllSet 1 (ptpUsable true s)))
      ∧ (s.clk.dpll = some 2 → exec (.ptpTimeAvailable ()) s = .next (ptpUsable true s)))
  ∧ (∀ s : State, (realignLost (ptpUsable false s)).clk.dpll = some 2 →
      exec (.ptpTimeLost ()) s = .next (raise 0x0901 0 0 (dpllSet 3
        ((realignLost (ptpUsable false s)).onClk fun c => { c with holdAt := c.now }))))
  ∧ (∀ s : State, s.clk.dpll = some 3 → s.clk.holdAt + s.clk.holdAlarm * 1000000 ≤ s.clk.now →
      exec .holdoverLong s = .next (raise 0x0903 0 0 s))
  ∧ (∀ (s : State) (target : BitVec 64) (phase ppb : BitVec 32), s.clk.dpll = some 1 → s.net.ptp.usable = true →
      s.clk.restart = false →
      let u := dpllSet 2 (s.onClk fun c => { c with
        lastLock := sampleNow s
        phase := phase
        ppb := ppb })
      (u.wave.counterValid = true → exec (.dpllLock target phase ppb) s = .next u)
      ∧ (u.wave.counterValid = false → u.clk.relock = false →
        exec (.dpllLock target phase ppb) s = .next (stepTo target u)))
  ∧ (∀ (s : State) (phase : BitVec 32), s.clk.dpll = some 3 → s.clk.restart = false →
      let u := (ptpUsable true s).onClk fun c => { c with phase := phase }
      phase.toInt.natAbs ≤ u.clk.stepLim * 1000 →
      exec (.ptpTimeReturn () phase) s
        = .next (holdoverEnds (dpllSet 2 (u.onClk fun c => { c with lastLock := sampleNow u }))))
  ∧ (∀ (s : State) (target : BitVec 64), s.clk.realDue = true → s.net.ptp.usable = true → s.clk.dpll.isSome = true →
      s.clk.restart = false →
      let v := noteRealign target s
      let u := holdoverEnds (dpllSet 2 (stepTo target (v.onClk fun c => { c with lastLock := target })))
      exec (.realignStep target) s = .next ((waitingKiosks u 0x0904 fun _ => true).foldl (fun w k =>
        answerOk k (le 8 target.toNat ++ le 8 v.clk.lastStep.toNat) w) u))
  ∧ (∀ (s : State), s.clk.por = false →
      (s.clk.monOk.getLsbD 0 = true → exec (.clockMonitorTrip 0) s = .next (clockAbsent s))
      ∧ (s.clk.monOk.getLsbD 3 = true → exec (.clockMonitorTrip 3) s = .next (mediaTrips s))
      ∧ (s.clk.monOk.getLsbD 4 = true → exec (.clockMonitorTrip 4) s = .next (ddrTrips s))
      ∧ (s.clk.monOk.getLsbD 5 = true → exec (.clockMonitorTrip 5) s = .next (sdsFail (monTripped 5 s))))
  ∧ (∀ (s : State) (k : Fin 6), s.clk.por = false → s.clk.rcOk = true → s.clk.monOk.getLsbD k.val = false →
      ∃ t, exec (.clockMonitorRecover k) s = .next t ∧ t.clk.monOk.getLsbD k.val = true)
  ∧ (∀ (s : State) (k : Fin 4), s.clk.por = false → s.clk.rcOk = true → s.clk.refOk = true →
      s.clk.lock.getLsbD k.val = false → s.clk.power ≠ .retain →
      ∃ t, exec (.pllLock k) s = .next t ∧ t.clk.lock = s.clk.lock ||| BitVec.ofNat 4 (2 ^ k.val) ∧
        t.clk.monOk.getLsbD (k.val + 2) = true)
  ∧ (∀ (s : State) (g : Fin 16), (takeClosing g.val s).1 ≠ [] → (s.mat.out.any fun q => txGate q.tx g.val) = false →
      let u := (takeClosing g.val s).2.onClk fun c => { c with gates := c.gates &&& ~~~ BitVec.ofNat 16 (2 ^ g.val) }
      exec (.gateCloseAck g) s
        = .next ((takeClosing g.val s).1.foldl (fun v q => answerOk q.2.1 (le 4 (clkGates u).toNat) v) u))
  ∧ (∀ (s : State) (g : Fin 16), (s.clk.closing.any fun q => q.1 == g.val && decide (q.2.2 + s.clk.gateTo ≤ s.clk.now))
      = true →
      let r := takeClosing g.val s
      exec (.gateCloseTimeout g) s = .next (r.1.foldl (fun v q => answerFail q.2.1 { status := 0x0061 } v)
        (gateRefused (r.2.onMat fun m => { m with gateRef := true }))))
  ∧ (∀ (s : State) (n : BitVec 32) (d ref cycles k : Nat), s.clk.meas = some (d, ref, cycles, k) →
      exec (.clkMeasureComplete n) s = .next (answerOk k (le 4 n.toNat ++ zeros 4
        ++ le 8 (n.toNat * nominalHz s ref * 1000 / cycles)) (s.onClk fun c => { c with
          meas := none
          measCnt := n })))

/-- 13 R419 to R423, R433, R434, R437, 11 R353, R377: resets, the watchdog and RETAIN. -/
def Obligations.ResetsAndPower : Prop :=
  (∀ (s : State) (taken : Bool) (ns : Nat), s.clk.por = false → 1000 ≤ ns →
      exec (.nresetLow ns taken) s = .next (systemReset 1 s))
  ∧ (∀ (s : State) (taken : Bool) (ns : Nat), s.clk.por = false → ns < 850 → exec (.nresetLow ns taken) s = .next s)
  ∧ (∀ s : State, exec (.pciePerst true) s = .next (s.onMat fun m => { m with pcie := true })
      ∧ (s.flt.fatal = false →
        exec (.pciePerst false) s = .next (hostLost (setCause 7 (s.onMat fun m => { m with pcie := false })))))
  ∧ (∀ s : State, s.flt.fatal = false → s.mat.pcie = true →
      exec .pcieFlr s = .next (masterReset 2 (hostLost (setCause 8 s))))
  ∧ (∀ s : State, s.host.fwState = 5 → s.host.served + 1000000 ≤ s.clk.now →
      exec .fwWatchdog s = .next (nolutReset (setCause 4 (raise 0x090A 0 0 s))))
  ∧ (∀ s : State, s.host.fwState = 5 →
      exec .fwHeartbeatIncrement s = .next (s.onHost fun h => { h with
        beat := h.beat + 1
        served := s.clk.now }))
  ∧ (∀ s : State, s.clk.restart = true → s.host.fwState = 4 →
      (imageErr s copyAt = 0 → exec (.nolutRestartComplete ()) s = .next (fwReady s))
      ∧ (imageErr s copyAt ≠ 0 → exec (.nolutRestartComplete ()) s = .next (raise 0x090B 0 0 s)
        ∧ exec .fwReady s = .next s))
  ∧ (∀ (s : State) (t0 : Nat), t0 + 1000 ≤ s.clk.now → s.flt.fatal = false →
      (s.clk.resetDue = some (0, t0) → exec .commandedReset s = .next (systemReset 3 s))
      ∧ (s.clk.resetDue = some (1, t0) → exec .commandedReset s = .next (nolutReset (setCause 5 s))))
  ∧ (∀ (s : State) (w : BitVec 64), s.clk.power = .hush → s.clk.powDue = some (.retain, w) → s.clk.wakeSrc = 0 →
      ∃ t, exec .retainEnter s = .next t ∧ t.clk.power = .retain ∧ t.clk.powDue = none ∧ t.clk.lock = 0 ∧
        t.clk.dpll = none ∧ t.wave.counterValid = false ∧ t.mat.pcie = false)
  ∧ (∀ (s : State) (n : BitVec 64), s.clk.power = .waking →
      ∃ t, exec (.wakeComplete n) s = .next t ∧ t.clk.power = .hush ∧ t.clk.wakeSrc = 0 ∧ t.clk.lock = 0xF ∧
        t.wave.count = (if s.wave.rate.isSome then s.wave.count + n else s.wave.count) ∧ t.net.rings = [])

/-- 14 R443 to R445, R451, R453, R455: scans, records and the nFAULT pin. -/
def Obligations.FaultEvents : Prop :=
  (∀ (s : State) (broken : List (Nat × Nat)), ∃ t, exec (.faultLineScan broken) s = .next t ∧
      (s.clk.por = true ∨ s.clk.rcOk = false → s.host.fwState ≠ 5 ∨ ptpCfg s 5 = 0 →
        t = s.onClk fun c => { c with now := c.now + 1 }))
  ∧ (∀ (s : State) (broken : List (Nat × Nat)), s.clk.por = false → s.clk.rcOk = true → s.flt.lineQ = [] →
      s.flt.broken = [] → readBroken (s.onClk fun c => { c with now := c.now + 1 }) broken = [] →
      s.host.fwState ≠ 5 ∨ ptpCfg s 5 = 0 →
      ∃ t, exec (.faultLineScan broken) s = .next t ∧ t.clk.now = s.clk.now + 1 ∧ t.flt.seenBrk = [] ∧ t.flt.lineQ = [] ∧
        t.host = s.host)
  ∧ (∀ (s : State) (r : Rep) (l : List Rep), s.flt.fwQ = r :: l →
      exec .firmwareFaultReport s = .next (collect r (s.onFlt fun f => { f with fwQ := l })))
  ∧ (∀ s : State, (∀ m ∈ s.flt.merges, s.clk.now < m.at_ + 1000) → exec .faultMergeFlush s = .next s)
  ∧ (∀ (s : State) (m : Merge), s.flt.merges = [m] → m.at_ + 1000 ≤ s.clk.now → m.count ≠ 0 →
      exec .faultMergeFlush s = .next (flushMerge m (s.onFlt fun f => { f with
        merges := [{ m with at_ := s.clk.now, count := 0 }] })))
  ∧ (∀ (s : State) (b : Nat), s.flt.pulse = some b → b ≤ s.clk.now →
      exec .nfaultPulseEnd s = .next (s.onFlt fun f => { f with pulse := none }))
  ∧ (∀ (s : State) (j : Inj) (i : Fin 4), tget none s.flt.inj i.val = some j → j.until_ ≤ s.clk.now →
      (∀ k, k ≠ i.val → tget none s.flt.inj k = none) → exec .injectionWindowEnd s = .next (closeInj i.val s))
  ∧ (∀ (s : State) (v : BitVec 32),
      let us := v.toNat / 2 ^ 16 % 2 ^ 14
      ∃ t, exec (.fltNfaultWrite v) s = .next t ∧ t = s.onFlt (fun _ => t.flt) ∧
        t.flt.pulseUs = (if 1 ≤ us ∧ us ≤ 10000 then us else s.flt.pulseUs) ∧
        t.flt.assert_ = (if s.flt.fatal then s.flt.assert_ else v.getLsbD 0))

/-- 15 R467, R472, R474, R477, R479: the security module on its own. -/
def Obligations.SecurityEvents : Prop :=
  (∀ s : State, s.sm.state = 1 → exec .smConditionalTestFail s
      = .next (raise 0x0B01 0 0x10 (zeroVolatile ((smFail (leaveApproved s)).onSm fun m => { m with state := 2 }))))
  ∧ (∀ (s : State) (clock : Bool), detects s = true →
      let u := raise 0x0B01 0 0 (smFail (s.onSm fun m => { m with
        glitch := true
        glitches := s.clk.now :: m.glitches.filter fun t => decide (s.clk.now < t + 1000000) }))
      exec (.smGlitch clock) s = .next (if 4 ≤ u.sm.glitches.length then tamper u else u))
  ∧ (∀ (s : State) (d : Fin 3), detects s = true → ∃ t, exec (.smTamper d) s = .next t ∧ t.sm.tampered = true ∧
      t.sm.state = 3)
  ∧ (∀ (s : State) (q : Sess), s.sm.session = some q → q.lastAt + q.idle * 1000000 ≤ s.clk.now →
      ∃ t, exec .sessionIdleTimeout s = .next t ∧ t.sm.session = none)
  ∧ (∀ (s : State) (o : Opening), s.sm.opening = some o → o.time + 10000000 ≤ s.clk.now →
      exec .sessionAuthTimeout s = .next (s.onSm fun m => { m with opening := none }))
  ∧ (∀ (s : State) (b : Nat), s.sm.lockAt = some b → b + 60000000 ≤ s.clk.now →
      exec .sessionLockoutEnd s = .next (s.onSm fun m => { m with lockAt := none }))
  ∧ (∀ (s : State) (e k : Nat), s.sm.verifying = some (e, k) →
      let v := s.onSm fun m => { m with verifying := none }
      (libRecordOk v e = true → libSigned v e = true → ∃ u, e ∈ u.sm.verified ∧ u.sm.verifying = none ∧
        exec (.secLibVerifyComplete ()) s = .next (answerOk k (le 1 1 ++ zeros 3 ++ le 4 (fld (libRecord u e) 12 4)) u))
      ∧ (libRecordOk v e = false ∨ libSigned v e = false → ∃ u, e ∉ u.sm.verified ∧ u.sm.verifying = none ∧
        exec (.secLibVerifyComplete ()) s = .next (answerFail k { status := 0x0056 } u)))

/-- 12 R382 to R388, 13 R426: the matrix. A transaction that is well formed and reaches no device whose behaviour the spec leaves
out is issued; one that does forces the release of a domain that is not good, where it is the write of a debug access register
for that (log 167), and ends in a fault otherwise; masters are reset. -/
def Obligations.MatrixCommands : Prop :=
  (∀ (s : State) (tx : BusTx), s.clk.por = false → txOk tx = true →
      (txDevice s tx = false → exec (.matrixTransaction tx) s = .next (txIssue tx s))
      ∧ (txDevice s tx = true → exec (.matrixTransaction tx) s = match forcedNow s tx with
        | some d => .next (releaseEarly d s)
        | none => .fault (.unspecifiedDevice tx.addr.toNat)))
  ∧ (∀ (s : State) (m : Fin 8) (v : Bool),
      (permitted s m.val .priv = true → exec (.sysRemapWrite m v) s = .next (s.onMat fun x => { x with remap := v }))
      ∧ (permitted s m.val .priv = false →
        exec (.sysRemapWrite m v) s = .next (busErr m.val false 0x21000000 true 0 s)))
  ∧ (∀ (s : State) (m : Fin 8), canReset m.val = true → exec (.masterReset m) s = .next (masterReset m.val s))

/-! ### What commands leave alone -/

/-- The groups of registers that these commands change; every other group stays as it is, in every state. -/
def Obligations.CommandFrames : Prop :=
  (∀ (s t : State) (i : Fin 5242880), exec (.xpEntryTimeout i) s = .next t → t = { s with xp := t.xp, flt := t.flt })
  ∧ (∀ (s t : State) (q : Fin 80), exec (.xpTimeoutLog q) s = .next t → t = { s with xp := t.xp, flt := t.flt })
  ∧ (∀ (s t : State) (i : Fin 5242880), exec (.overlayTransitionTimeout i) s = .next t → t = { s with xp := t.xp })
  ∧ (∀ (s t : State) (p : Fin 64), exec (.playerEntryEnd p) s = .next t → t = { s with plan := t.plan })
  ∧ (∀ s t : State, exec .eqPublishH s = .next t → t = { s with plan := t.plan, flt := t.flt })
  ∧ (∀ s t : State, exec .eqSettle s = .next t → t = { s with plan := t.plan, wave := t.wave, flt := t.flt })
  ∧ (∀ (s t : State) (w : Nat), exec (.contextTransferComplete w) s = .next t → t = { s with place := t.place })
  ∧ (∀ s t : State, exec .healthSave s = .next t → t = { s with place := t.place, flt := t.flt })
  ∧ (∀ s t : State, exec .vcoreLower s = .next t → t = { s with clk := t.clk })
  ∧ (∀ (s t : State) (l : Fin 32) (b : Bool) (f : List Byte), exec (.stageDownstreamFrame l b f) s = .next t →
      t = { s with drv := t.drv, free := t.free })
  ∧ (∀ (s t : State) (l : Fin 32) (b : Bool), exec (.stageFrameMissing l b) s = .next t → t = { s with drv := t.drv })
  ∧ (∀ (s t : State) (l : Fin 32), exec (.stageMuteNoInput l) s = .next t → t = { s with drv := t.drv })
  ∧ (∀ (s t : State) (l : Fin 32) (k : Fin 4), exec (.stageCurrentLimit l k) s = .next t → t = { s with drv := t.drv })
  ∧ (∀ (s t : State) (k : Fin 512), exec (.streamLoss k) s = .next t →
      t = { s with net := t.net, sig := t.sig, flt := t.flt })
  ∧ (∀ (s t : State) (p : Fin 5), exec (.pauseHoldoffEnd p) s = .next t → t = { s with net := t.net })
  ∧ (∀ s t : State, exec .twinRunInEnd s = .next t → t = { s with twin := t.twin })
  ∧ (∀ (s t : State) (b : Fin 1024), exec (.seedItemTimeout b) s = .next t → t = { s with twin := t.twin })
  ∧ (∀ s t : State, exec .twinReady s = .next t → t = { s with twin := t.twin })
  ∧ (∀ s t : State, exec .joinFailed s = .next t → t = { s with twin := t.twin, flt := t.flt })
  ∧ (∀ s t : State, exec .kiosk0EventPost s = .next t → HostOnly s t)
  ∧ (∀ s t : State, exec .kiosk0Ack s = .next t → HostOnly s t)
  ∧ (∀ (s t : State) (v : BitVec 32), exec (.logMarkWrite v) s = .next t → HostOnly s t)
  ∧ (∀ s t : State, exec .spiStatus s = .next t → HostOnly s t)
  ∧ (∀ s t : State, exec .networkBootTimeout s = .next t → HostOnly s t)
  ∧ (∀ s t : State, exec .fwHeartbeatIncrement s = .next t → HostOnly s t)
  ∧ (∀ (s t : State) (n : Nat) (d : Bool), exec (.sramScrub n d) s = .next t → t = { s with mat := t.mat, flt := t.flt })
  ∧ (∀ (s t : State) (n d : Nat), exec (.ddrPatrolScrub n d) s = .next t → t = { s with mat := t.mat })
  ∧ (∀ s t : State, exec .ddrRetrain s = .next t → t = { s with mat := t.mat })
  ∧ (∀ s t : State, exec .holdoverLong s = .next t → t = { s with flt := t.flt })
  ∧ (∀ (s t : State) (b : Bool), exec (.crystalDelayEnd b) s = .next t → t = { s with clk := t.clk })
  ∧ (∀ (s t : State) (v : BitVec 32), exec (.fltNfaultWrite v) s = .next t → t = { s with flt := t.flt })
  ∧ (∀ s t : State, exec .nfaultPulseEnd s = .next t → t = { s with flt := t.flt })
  ∧ (∀ s t : State, exec .sessionAuthTimeout s = .next t → t = { s with sm := t.sm })
  ∧ (∀ s t : State, exec .sessionLockoutEnd s = .next t → t = { s with sm := t.sm })

/-- 11 R354, 12 R379, R381: a write to the staging window, while an image is awaited, puts its bytes there, one after the other
from its offset on and as far as the window reaches; every other byte of memory, and all that is not memory, stays. -/
def Obligations.StagingWindowBytes : Prop :=
  ∀ (s : State) (o : BitVec 26) (d : List (Option Byte)), hostUp s = true → s.host.fwState = 1 →
    ∃ t, exec (.stagingWindowWrite o d) s = .next t ∧ t = s.onMat (fun _ => t.mat) ∧
      ∀ a, memByte t.mat.mem a =
        (match if stagingAt + o.toNat ≤ a ∧ a < stagingAt + 2097152 then d.getD (a - (stagingAt + o.toNat)) none else none with
          | some b => b
          | none => memByte s.mat.mem a)
end

