-- ==== Sys2Proof/Laws/State.lean ====
section
/-! SUPPORT. One law per part of State and update function (each true by computation), and the parts of the state after reset. -/

namespace Sys2Proof.Laws

open Sys2Proof.Machine

@[simp] theorem onPending_pending (s : State) (f : List Instr → List Instr) : (s.onPending f).pending = f s.pending := rfl
@[simp] theorem onPending_free (s : State) (f : List Instr → List Instr) : (s.onPending f).free = s.free := rfl
@[simp] theorem onPending_wave (s : State) (f : List Instr → List Instr) : (s.onPending f).wave = s.wave := rfl
@[simp] theorem onPending_sig (s : State) (f : List Instr → List Instr) : (s.onPending f).sig = s.sig := rfl
@[simp] theorem onPending_xp (s : State) (f : List Instr → List Instr) : (s.onPending f).xp = s.xp := rfl
@[simp] theorem onPending_lanes (s : State) (f : List Instr → List Instr) : (s.onPending f).lanes = s.lanes := rfl
@[simp] theorem onPending_plan (s : State) (f : List Instr → List Instr) : (s.onPending f).plan = s.plan := rfl
@[simp] theorem onPending_place (s : State) (f : List Instr → List Instr) : (s.onPending f).place = s.place := rfl
@[simp] theorem onPending_drv (s : State) (f : List Instr → List Instr) : (s.onPending f).drv = s.drv := rfl
@[simp] theorem onPending_net (s : State) (f : List Instr → List Instr) : (s.onPending f).net = s.net := rfl
@[simp] theorem onPending_lio (s : State) (f : List Instr → List Instr) : (s.onPending f).lio = s.lio := rfl
@[simp] theorem onPending_twin (s : State) (f : List Instr → List Instr) : (s.onPending f).twin = s.twin := rfl
@[simp] theorem onPending_host (s : State) (f : List Instr → List Instr) : (s.onPending f).host = s.host := rfl
@[simp] theorem onPending_mat (s : State) (f : List Instr → List Instr) : (s.onPending f).mat = s.mat := rfl
@[simp] theorem onPending_clk (s : State) (f : List Instr → List Instr) : (s.onPending f).clk = s.clk := rfl
@[simp] theorem onPending_flt (s : State) (f : List Instr → List Instr) : (s.onPending f).flt = s.flt := rfl
@[simp] theorem onPending_sm (s : State) (f : List Instr → List Instr) : (s.onPending f).sm = s.sm := rfl

@[simp] theorem onFree_pending (s : State) (f : Nat → Nat) : (s.onFree f).pending = s.pending := rfl
@[simp] theorem onFree_free (s : State) (f : Nat → Nat) : (s.onFree f).free = f s.free := rfl
@[simp] theorem onFree_wave (s : State) (f : Nat → Nat) : (s.onFree f).wave = s.wave := rfl
@[simp] theorem onFree_sig (s : State) (f : Nat → Nat) : (s.onFree f).sig = s.sig := rfl
@[simp] theorem onFree_xp (s : State) (f : Nat → Nat) : (s.onFree f).xp = s.xp := rfl
@[simp] theorem onFree_lanes (s : State) (f : Nat → Nat) : (s.onFree f).lanes = s.lanes := rfl
@[simp] theorem onFree_plan (s : State) (f : Nat → Nat) : (s.onFree f).plan = s.plan := rfl
@[simp] theorem onFree_place (s : State) (f : Nat → Nat) : (s.onFree f).place = s.place := rfl
@[simp] theorem onFree_drv (s : State) (f : Nat → Nat) : (s.onFree f).drv = s.drv := rfl
@[simp] theorem onFree_net (s : State) (f : Nat → Nat) : (s.onFree f).net = s.net := rfl
@[simp] theorem onFree_lio (s : State) (f : Nat → Nat) : (s.onFree f).lio = s.lio := rfl
@[simp] theorem onFree_twin (s : State) (f : Nat → Nat) : (s.onFree f).twin = s.twin := rfl
@[simp] theorem onFree_host (s : State) (f : Nat → Nat) : (s.onFree f).host = s.host := rfl
@[simp] theorem onFree_mat (s : State) (f : Nat → Nat) : (s.onFree f).mat = s.mat := rfl
@[simp] theorem onFree_clk (s : State) (f : Nat → Nat) : (s.onFree f).clk = s.clk := rfl
@[simp] theorem onFree_flt (s : State) (f : Nat → Nat) : (s.onFree f).flt = s.flt := rfl
@[simp] theorem onFree_sm (s : State) (f : Nat → Nat) : (s.onFree f).sm = s.sm := rfl

@[simp] theorem onWave_pending (s : State) (f : WaveS → WaveS) : (s.onWave f).pending = s.pending := rfl
@[simp] theorem onWave_free (s : State) (f : WaveS → WaveS) : (s.onWave f).free = s.free := rfl
@[simp] theorem onWave_wave (s : State) (f : WaveS → WaveS) : (s.onWave f).wave = f s.wave := rfl
@[simp] theorem onWave_sig (s : State) (f : WaveS → WaveS) : (s.onWave f).sig = s.sig := rfl
@[simp] theorem onWave_xp (s : State) (f : WaveS → WaveS) : (s.onWave f).xp = s.xp := rfl
@[simp] theorem onWave_lanes (s : State) (f : WaveS → WaveS) : (s.onWave f).lanes = s.lanes := rfl
@[simp] theorem onWave_plan (s : State) (f : WaveS → WaveS) : (s.onWave f).plan = s.plan := rfl
@[simp] theorem onWave_place (s : State) (f : WaveS → WaveS) : (s.onWave f).place = s.place := rfl
@[simp] theorem onWave_drv (s : State) (f : WaveS → WaveS) : (s.onWave f).drv = s.drv := rfl
@[simp] theorem onWave_net (s : State) (f : WaveS → WaveS) : (s.onWave f).net = s.net := rfl
@[simp] theorem onWave_lio (s : State) (f : WaveS → WaveS) : (s.onWave f).lio = s.lio := rfl
@[simp] theorem onWave_twin (s : State) (f : WaveS → WaveS) : (s.onWave f).twin = s.twin := rfl
@[simp] theorem onWave_host (s : State) (f : WaveS → WaveS) : (s.onWave f).host = s.host := rfl
@[simp] theorem onWave_mat (s : State) (f : WaveS → WaveS) : (s.onWave f).mat = s.mat := rfl
@[simp] theorem onWave_clk (s : State) (f : WaveS → WaveS) : (s.onWave f).clk = s.clk := rfl
@[simp] theorem onWave_flt (s : State) (f : WaveS → WaveS) : (s.onWave f).flt = s.flt := rfl
@[simp] theorem onWave_sm (s : State) (f : WaveS → WaveS) : (s.onWave f).sm = s.sm := rfl

@[simp] theorem onSig_pending (s : State) (f : SigS → SigS) : (s.onSig f).pending = s.pending := rfl
@[simp] theorem onSig_free (s : State) (f : SigS → SigS) : (s.onSig f).free = s.free := rfl
@[simp] theorem onSig_wave (s : State) (f : SigS → SigS) : (s.onSig f).wave = s.wave := rfl
@[simp] theorem onSig_sig (s : State) (f : SigS → SigS) : (s.onSig f).sig = f s.sig := rfl
@[simp] theorem onSig_xp (s : State) (f : SigS → SigS) : (s.onSig f).xp = s.xp := rfl
@[simp] theorem onSig_lanes (s : State) (f : SigS → SigS) : (s.onSig f).lanes = s.lanes := rfl
@[simp] theorem onSig_plan (s : State) (f : SigS → SigS) : (s.onSig f).plan = s.plan := rfl
@[simp] theorem onSig_place (s : State) (f : SigS → SigS) : (s.onSig f).place = s.place := rfl
@[simp] theorem onSig_drv (s : State) (f : SigS → SigS) : (s.onSig f).drv = s.drv := rfl
@[simp] theorem onSig_net (s : State) (f : SigS → SigS) : (s.onSig f).net = s.net := rfl
@[simp] theorem onSig_lio (s : State) (f : SigS → SigS) : (s.onSig f).lio = s.lio := rfl
@[simp] theorem onSig_twin (s : State) (f : SigS → SigS) : (s.onSig f).twin = s.twin := rfl
@[simp] theorem onSig_host (s : State) (f : SigS → SigS) : (s.onSig f).host = s.host := rfl
@[simp] theorem onSig_mat (s : State) (f : SigS → SigS) : (s.onSig f).mat = s.mat := rfl
@[simp] theorem onSig_clk (s : State) (f : SigS → SigS) : (s.onSig f).clk = s.clk := rfl
@[simp] theorem onSig_flt (s : State) (f : SigS → SigS) : (s.onSig f).flt = s.flt := rfl
@[simp] theorem onSig_sm (s : State) (f : SigS → SigS) : (s.onSig f).sm = s.sm := rfl

@[simp] theorem onXp_pending (s : State) (f : XpS → XpS) : (s.onXp f).pending = s.pending := rfl
@[simp] theorem onXp_free (s : State) (f : XpS → XpS) : (s.onXp f).free = s.free := rfl
@[simp] theorem onXp_wave (s : State) (f : XpS → XpS) : (s.onXp f).wave = s.wave := rfl
@[simp] theorem onXp_sig (s : State) (f : XpS → XpS) : (s.onXp f).sig = s.sig := rfl
@[simp] theorem onXp_xp (s : State) (f : XpS → XpS) : (s.onXp f).xp = f s.xp := rfl
@[simp] theorem onXp_lanes (s : State) (f : XpS → XpS) : (s.onXp f).lanes = s.lanes := rfl
@[simp] theorem onXp_plan (s : State) (f : XpS → XpS) : (s.onXp f).plan = s.plan := rfl
@[simp] theorem onXp_place (s : State) (f : XpS → XpS) : (s.onXp f).place = s.place := rfl
@[simp] theorem onXp_drv (s : State) (f : XpS → XpS) : (s.onXp f).drv = s.drv := rfl
@[simp] theorem onXp_net (s : State) (f : XpS → XpS) : (s.onXp f).net = s.net := rfl
@[simp] theorem onXp_lio (s : State) (f : XpS → XpS) : (s.onXp f).lio = s.lio := rfl
@[simp] theorem onXp_twin (s : State) (f : XpS → XpS) : (s.onXp f).twin = s.twin := rfl
@[simp] theorem onXp_host (s : State) (f : XpS → XpS) : (s.onXp f).host = s.host := rfl
@[simp] theorem onXp_mat (s : State) (f : XpS → XpS) : (s.onXp f).mat = s.mat := rfl
@[simp] theorem onXp_clk (s : State) (f : XpS → XpS) : (s.onXp f).clk = s.clk := rfl
@[simp] theorem onXp_flt (s : State) (f : XpS → XpS) : (s.onXp f).flt = s.flt := rfl
@[simp] theorem onXp_sm (s : State) (f : XpS → XpS) : (s.onXp f).sm = s.sm := rfl

@[simp] theorem onLanes_pending (s : State) (f : Tab LaneS → Tab LaneS) : (s.onLanes f).pending = s.pending := rfl
@[simp] theorem onLanes_free (s : State) (f : Tab LaneS → Tab LaneS) : (s.onLanes f).free = s.free := rfl
@[simp] theorem onLanes_wave (s : State) (f : Tab LaneS → Tab LaneS) : (s.onLanes f).wave = s.wave := rfl
@[simp] theorem onLanes_sig (s : State) (f : Tab LaneS → Tab LaneS) : (s.onLanes f).sig = s.sig := rfl
@[simp] theorem onLanes_xp (s : State) (f : Tab LaneS → Tab LaneS) : (s.onLanes f).xp = s.xp := rfl
@[simp] theorem onLanes_lanes (s : State) (f : Tab LaneS → Tab LaneS) : (s.onLanes f).lanes = f s.lanes := rfl
@[simp] theorem onLanes_plan (s : State) (f : Tab LaneS → Tab LaneS) : (s.onLanes f).plan = s.plan := rfl
@[simp] theorem onLanes_place (s : State) (f : Tab LaneS → Tab LaneS) : (s.onLanes f).place = s.place := rfl
@[simp] theorem onLanes_drv (s : State) (f : Tab LaneS → Tab LaneS) : (s.onLanes f).drv = s.drv := rfl
@[simp] theorem onLanes_net (s : State) (f : Tab LaneS → Tab LaneS) : (s.onLanes f).net = s.net := rfl
@[simp] theorem onLanes_lio (s : State) (f : Tab LaneS → Tab LaneS) : (s.onLanes f).lio = s.lio := rfl
@[simp] theorem onLanes_twin (s : State) (f : Tab LaneS → Tab LaneS) : (s.onLanes f).twin = s.twin := rfl
@[simp] theorem onLanes_host (s : State) (f : Tab LaneS → Tab LaneS) : (s.onLanes f).host = s.host := rfl
@[simp] theorem onLanes_mat (s : State) (f : Tab LaneS → Tab LaneS) : (s.onLanes f).mat = s.mat := rfl
@[simp] theorem onLanes_clk (s : State) (f : Tab LaneS → Tab LaneS) : (s.onLanes f).clk = s.clk := rfl
@[simp] theorem onLanes_flt (s : State) (f : Tab LaneS → Tab LaneS) : (s.onLanes f).flt = s.flt := rfl
@[simp] theorem onLanes_sm (s : State) (f : Tab LaneS → Tab LaneS) : (s.onLanes f).sm = s.sm := rfl

@[simp] theorem onPlan_pending (s : State) (f : PlanS → PlanS) : (s.onPlan f).pending = s.pending := rfl
@[simp] theorem onPlan_free (s : State) (f : PlanS → PlanS) : (s.onPlan f).free = s.free := rfl
@[simp] theorem onPlan_wave (s : State) (f : PlanS → PlanS) : (s.onPlan f).wave = s.wave := rfl
@[simp] theorem onPlan_sig (s : State) (f : PlanS → PlanS) : (s.onPlan f).sig = s.sig := rfl
@[simp] theorem onPlan_xp (s : State) (f : PlanS → PlanS) : (s.onPlan f).xp = s.xp := rfl
@[simp] theorem onPlan_lanes (s : State) (f : PlanS → PlanS) : (s.onPlan f).lanes = s.lanes := rfl
@[simp] theorem onPlan_plan (s : State) (f : PlanS → PlanS) : (s.onPlan f).plan = f s.plan := rfl
@[simp] theorem onPlan_place (s : State) (f : PlanS → PlanS) : (s.onPlan f).place = s.place := rfl
@[simp] theorem onPlan_drv (s : State) (f : PlanS → PlanS) : (s.onPlan f).drv = s.drv := rfl
@[simp] theorem onPlan_net (s : State) (f : PlanS → PlanS) : (s.onPlan f).net = s.net := rfl
@[simp] theorem onPlan_lio (s : State) (f : PlanS → PlanS) : (s.onPlan f).lio = s.lio := rfl
@[simp] theorem onPlan_twin (s : State) (f : PlanS → PlanS) : (s.onPlan f).twin = s.twin := rfl
@[simp] theorem onPlan_host (s : State) (f : PlanS → PlanS) : (s.onPlan f).host = s.host := rfl
@[simp] theorem onPlan_mat (s : State) (f : PlanS → PlanS) : (s.onPlan f).mat = s.mat := rfl
@[simp] theorem onPlan_clk (s : State) (f : PlanS → PlanS) : (s.onPlan f).clk = s.clk := rfl
@[simp] theorem onPlan_flt (s : State) (f : PlanS → PlanS) : (s.onPlan f).flt = s.flt := rfl
@[simp] theorem onPlan_sm (s : State) (f : PlanS → PlanS) : (s.onPlan f).sm = s.sm := rfl

@[simp] theorem onPlace_pending (s : State) (f : PlaceS → PlaceS) : (s.onPlace f).pending = s.pending := rfl
@[simp] theorem onPlace_free (s : State) (f : PlaceS → PlaceS) : (s.onPlace f).free = s.free := rfl
@[simp] theorem onPlace_wave (s : State) (f : PlaceS → PlaceS) : (s.onPlace f).wave = s.wave := rfl
@[simp] theorem onPlace_sig (s : State) (f : PlaceS → PlaceS) : (s.onPlace f).sig = s.sig := rfl
@[simp] theorem onPlace_xp (s : State) (f : PlaceS → PlaceS) : (s.onPlace f).xp = s.xp := rfl
@[simp] theorem onPlace_lanes (s : State) (f : PlaceS → PlaceS) : (s.onPlace f).lanes = s.lanes := rfl
@[simp] theorem onPlace_plan (s : State) (f : PlaceS → PlaceS) : (s.onPlace f).plan = s.plan := rfl
@[simp] theorem onPlace_place (s : State) (f : PlaceS → PlaceS) : (s.onPlace f).place = f s.place := rfl
@[simp] theorem onPlace_drv (s : State) (f : PlaceS → PlaceS) : (s.onPlace f).drv = s.drv := rfl
@[simp] theorem onPlace_net (s : State) (f : PlaceS → PlaceS) : (s.onPlace f).net = s.net := rfl
@[simp] theorem onPlace_lio (s : State) (f : PlaceS → PlaceS) : (s.onPlace f).lio = s.lio := rfl
@[simp] theorem onPlace_twin (s : State) (f : PlaceS → PlaceS) : (s.onPlace f).twin = s.twin := rfl
@[simp] theorem onPlace_host (s : State) (f : PlaceS → PlaceS) : (s.onPlace f).host = s.host := rfl
@[simp] theorem onPlace_mat (s : State) (f : PlaceS → PlaceS) : (s.onPlace f).mat = s.mat := rfl
@[simp] theorem onPlace_clk (s : State) (f : PlaceS → PlaceS) : (s.onPlace f).clk = s.clk := rfl
@[simp] theorem onPlace_flt (s : State) (f : PlaceS → PlaceS) : (s.onPlace f).flt = s.flt := rfl
@[simp] theorem onPlace_sm (s : State) (f : PlaceS → PlaceS) : (s.onPlace f).sm = s.sm := rfl

@[simp] theorem onDrv_pending (s : State) (f : DrvS → DrvS) : (s.onDrv f).pending = s.pending := rfl
@[simp] theorem onDrv_free (s : State) (f : DrvS → DrvS) : (s.onDrv f).free = s.free := rfl
@[simp] theorem onDrv_wave (s : State) (f : DrvS → DrvS) : (s.onDrv f).wave = s.wave := rfl
@[simp] theorem onDrv_sig (s : State) (f : DrvS → DrvS) : (s.onDrv f).sig = s.sig := rfl
@[simp] theorem onDrv_xp (s : State) (f : DrvS → DrvS) : (s.onDrv f).xp = s.xp := rfl
@[simp] theorem onDrv_lanes (s : State) (f : DrvS → DrvS) : (s.onDrv f).lanes = s.lanes := rfl
@[simp] theorem onDrv_plan (s : State) (f : DrvS → DrvS) : (s.onDrv f).plan = s.plan := rfl
@[simp] theorem onDrv_place (s : State) (f : DrvS → DrvS) : (s.onDrv f).place = s.place := rfl
@[simp] theorem onDrv_drv (s : State) (f : DrvS → DrvS) : (s.onDrv f).drv = f s.drv := rfl
@[simp] theorem onDrv_net (s : State) (f : DrvS → DrvS) : (s.onDrv f).net = s.net := rfl
@[simp] theorem onDrv_lio (s : State) (f : DrvS → DrvS) : (s.onDrv f).lio = s.lio := rfl
@[simp] theorem onDrv_twin (s : State) (f : DrvS → DrvS) : (s.onDrv f).twin = s.twin := rfl
@[simp] theorem onDrv_host (s : State) (f : DrvS → DrvS) : (s.onDrv f).host = s.host := rfl
@[simp] theorem onDrv_mat (s : State) (f : DrvS → DrvS) : (s.onDrv f).mat = s.mat := rfl
@[simp] theorem onDrv_clk (s : State) (f : DrvS → DrvS) : (s.onDrv f).clk = s.clk := rfl
@[simp] theorem onDrv_flt (s : State) (f : DrvS → DrvS) : (s.onDrv f).flt = s.flt := rfl
@[simp] theorem onDrv_sm (s : State) (f : DrvS → DrvS) : (s.onDrv f).sm = s.sm := rfl

@[simp] theorem onNet_pending (s : State) (f : NetS → NetS) : (s.onNet f).pending = s.pending := rfl
@[simp] theorem onNet_free (s : State) (f : NetS → NetS) : (s.onNet f).free = s.free := rfl
@[simp] theorem onNet_wave (s : State) (f : NetS → NetS) : (s.onNet f).wave = s.wave := rfl
@[simp] theorem onNet_sig (s : State) (f : NetS → NetS) : (s.onNet f).sig = s.sig := rfl
@[simp] theorem onNet_xp (s : State) (f : NetS → NetS) : (s.onNet f).xp = s.xp := rfl
@[simp] theorem onNet_lanes (s : State) (f : NetS → NetS) : (s.onNet f).lanes = s.lanes := rfl
@[simp] theorem onNet_plan (s : State) (f : NetS → NetS) : (s.onNet f).plan = s.plan := rfl
@[simp] theorem onNet_place (s : State) (f : NetS → NetS) : (s.onNet f).place = s.place := rfl
@[simp] theorem onNet_drv (s : State) (f : NetS → NetS) : (s.onNet f).drv = s.drv := rfl
@[simp] theorem onNet_net (s : State) (f : NetS → NetS) : (s.onNet f).net = f s.net := rfl
@[simp] theorem onNet_lio (s : State) (f : NetS → NetS) : (s.onNet f).lio = s.lio := rfl
@[simp] theorem onNet_twin (s : State) (f : NetS → NetS) : (s.onNet f).twin = s.twin := rfl
@[simp] theorem onNet_host (s : State) (f : NetS → NetS) : (s.onNet f).host = s.host := rfl
@[simp] theorem onNet_mat (s : State) (f : NetS → NetS) : (s.onNet f).mat = s.mat := rfl
@[simp] theorem onNet_clk (s : State) (f : NetS → NetS) : (s.onNet f).clk = s.clk := rfl
@[simp] theorem onNet_flt (s : State) (f : NetS → NetS) : (s.onNet f).flt = s.flt := rfl
@[simp] theorem onNet_sm (s : State) (f : NetS → NetS) : (s.onNet f).sm = s.sm := rfl

@[simp] theorem onLio_pending (s : State) (f : LioS → LioS) : (s.onLio f).pending = s.pending := rfl
@[simp] theorem onLio_free (s : State) (f : LioS → LioS) : (s.onLio f).free = s.free := rfl
@[simp] theorem onLio_wave (s : State) (f : LioS → LioS) : (s.onLio f).wave = s.wave := rfl
@[simp] theorem onLio_sig (s : State) (f : LioS → LioS) : (s.onLio f).sig = s.sig := rfl
@[simp] theorem onLio_xp (s : State) (f : LioS → LioS) : (s.onLio f).xp = s.xp := rfl
@[simp] theorem onLio_lanes (s : State) (f : LioS → LioS) : (s.onLio f).lanes = s.lanes := rfl
@[simp] theorem onLio_plan (s : State) (f : LioS → LioS) : (s.onLio f).plan = s.plan := rfl
@[simp] theorem onLio_place (s : State) (f : LioS → LioS) : (s.onLio f).place = s.place := rfl
@[simp] theorem onLio_drv (s : State) (f : LioS → LioS) : (s.onLio f).drv = s.drv := rfl
@[simp] theorem onLio_net (s : State) (f : LioS → LioS) : (s.onLio f).net = s.net := rfl
@[simp] theorem onLio_lio (s : State) (f : LioS → LioS) : (s.onLio f).lio = f s.lio := rfl
@[simp] theorem onLio_twin (s : State) (f : LioS → LioS) : (s.onLio f).twin = s.twin := rfl
@[simp] theorem onLio_host (s : State) (f : LioS → LioS) : (s.onLio f).host = s.host := rfl
@[simp] theorem onLio_mat (s : State) (f : LioS → LioS) : (s.onLio f).mat = s.mat := rfl
@[simp] theorem onLio_clk (s : State) (f : LioS → LioS) : (s.onLio f).clk = s.clk := rfl
@[simp] theorem onLio_flt (s : State) (f : LioS → LioS) : (s.onLio f).flt = s.flt := rfl
@[simp] theorem onLio_sm (s : State) (f : LioS → LioS) : (s.onLio f).sm = s.sm := rfl

@[simp] theorem onTwin_pending (s : State) (f : TwinS → TwinS) : (s.onTwin f).pending = s.pending := rfl
@[simp] theorem onTwin_free (s : State) (f : TwinS → TwinS) : (s.onTwin f).free = s.free := rfl
@[simp] theorem onTwin_wave (s : State) (f : TwinS → TwinS) : (s.onTwin f).wave = s.wave := rfl
@[simp] theorem onTwin_sig (s : State) (f : TwinS → TwinS) : (s.onTwin f).sig = s.sig := rfl
@[simp] theorem onTwin_xp (s : State) (f : TwinS → TwinS) : (s.onTwin f).xp = s.xp := rfl
@[simp] theorem onTwin_lanes (s : State) (f : TwinS → TwinS) : (s.onTwin f).lanes = s.lanes := rfl
@[simp] theorem onTwin_plan (s : State) (f : TwinS → TwinS) : (s.onTwin f).plan = s.plan := rfl
@[simp] theorem onTwin_place (s : State) (f : TwinS → TwinS) : (s.onTwin f).place = s.place := rfl
@[simp] theorem onTwin_drv (s : State) (f : TwinS → TwinS) : (s.onTwin f).drv = s.drv := rfl
@[simp] theorem onTwin_net (s : State) (f : TwinS → TwinS) : (s.onTwin f).net = s.net := rfl
@[simp] theorem onTwin_lio (s : State) (f : TwinS → TwinS) : (s.onTwin f).lio = s.lio := rfl
@[simp] theorem onTwin_twin (s : State) (f : TwinS → TwinS) : (s.onTwin f).twin = f s.twin := rfl
@[simp] theorem onTwin_host (s : State) (f : TwinS → TwinS) : (s.onTwin f).host = s.host := rfl
@[simp] theorem onTwin_mat (s : State) (f : TwinS → TwinS) : (s.onTwin f).mat = s.mat := rfl
@[simp] theorem onTwin_clk (s : State) (f : TwinS → TwinS) : (s.onTwin f).clk = s.clk := rfl
@[simp] theorem onTwin_flt (s : State) (f : TwinS → TwinS) : (s.onTwin f).flt = s.flt := rfl
@[simp] theorem onTwin_sm (s : State) (f : TwinS → TwinS) : (s.onTwin f).sm = s.sm := rfl

@[simp] theorem onHost_pending (s : State) (f : HostS → HostS) : (s.onHost f).pending = s.pending := rfl
@[simp] theorem onHost_free (s : State) (f : HostS → HostS) : (s.onHost f).free = s.free := rfl
@[simp] theorem onHost_wave (s : State) (f : HostS → HostS) : (s.onHost f).wave = s.wave := rfl
@[simp] theorem onHost_sig (s : State) (f : HostS → HostS) : (s.onHost f).sig = s.sig := rfl
@[simp] theorem onHost_xp (s : State) (f : HostS → HostS) : (s.onHost f).xp = s.xp := rfl
@[simp] theorem onHost_lanes (s : State) (f : HostS → HostS) : (s.onHost f).lanes = s.lanes := rfl
@[simp] theorem onHost_plan (s : State) (f : HostS → HostS) : (s.onHost f).plan = s.plan := rfl
@[simp] theorem onHost_place (s : State) (f : HostS → HostS) : (s.onHost f).place = s.place := rfl
@[simp] theorem onHost_drv (s : State) (f : HostS → HostS) : (s.onHost f).drv = s.drv := rfl
@[simp] theorem onHost_net (s : State) (f : HostS → HostS) : (s.onHost f).net = s.net := rfl
@[simp] theorem onHost_lio (s : State) (f : HostS → HostS) : (s.onHost f).lio = s.lio := rfl
@[simp] theorem onHost_twin (s : State) (f : HostS → HostS) : (s.onHost f).twin = s.twin := rfl
@[simp] theorem onHost_host (s : State) (f : HostS → HostS) : (s.onHost f).host = f s.host := rfl
@[simp] theorem onHost_mat (s : State) (f : HostS → HostS) : (s.onHost f).mat = s.mat := rfl
@[simp] theorem onHost_clk (s : State) (f : HostS → HostS) : (s.onHost f).clk = s.clk := rfl
@[simp] theorem onHost_flt (s : State) (f : HostS → HostS) : (s.onHost f).flt = s.flt := rfl
@[simp] theorem onHost_sm (s : State) (f : HostS → HostS) : (s.onHost f).sm = s.sm := rfl

@[simp] theorem onMat_pending (s : State) (f : MatS → MatS) : (s.onMat f).pending = s.pending := rfl
@[simp] theorem onMat_free (s : State) (f : MatS → MatS) : (s.onMat f).free = s.free := rfl
@[simp] theorem onMat_wave (s : State) (f : MatS → MatS) : (s.onMat f).wave = s.wave := rfl
@[simp] theorem onMat_sig (s : State) (f : MatS → MatS) : (s.onMat f).sig = s.sig := rfl
@[simp] theorem onMat_xp (s : State) (f : MatS → MatS) : (s.onMat f).xp = s.xp := rfl
@[simp] theorem onMat_lanes (s : State) (f : MatS → MatS) : (s.onMat f).lanes = s.lanes := rfl
@[simp] theorem onMat_plan (s : State) (f : MatS → MatS) : (s.onMat f).plan = s.plan := rfl
@[simp] theorem onMat_place (s : State) (f : MatS → MatS) : (s.onMat f).place = s.place := rfl
@[simp] theorem onMat_drv (s : State) (f : MatS → MatS) : (s.onMat f).drv = s.drv := rfl
@[simp] theorem onMat_net (s : State) (f : MatS → MatS) : (s.onMat f).net = s.net := rfl
@[simp] theorem onMat_lio (s : State) (f : MatS → MatS) : (s.onMat f).lio = s.lio := rfl
@[simp] theorem onMat_twin (s : State) (f : MatS → MatS) : (s.onMat f).twin = s.twin := rfl
@[simp] theorem onMat_host (s : State) (f : MatS → MatS) : (s.onMat f).host = s.host := rfl
@[simp] theorem onMat_mat (s : State) (f : MatS → MatS) : (s.onMat f).mat = f s.mat := rfl
@[simp] theorem onMat_clk (s : State) (f : MatS → MatS) : (s.onMat f).clk = s.clk := rfl
@[simp] theorem onMat_flt (s : State) (f : MatS → MatS) : (s.onMat f).flt = s.flt := rfl
@[simp] theorem onMat_sm (s : State) (f : MatS → MatS) : (s.onMat f).sm = s.sm := rfl

@[simp] theorem onClk_pending (s : State) (f : ClkS → ClkS) : (s.onClk f).pending = s.pending := rfl
@[simp] theorem onClk_free (s : State) (f : ClkS → ClkS) : (s.onClk f).free = s.free := rfl
@[simp] theorem onClk_wave (s : State) (f : ClkS → ClkS) : (s.onClk f).wave = s.wave := rfl
@[simp] theorem onClk_sig (s : State) (f : ClkS → ClkS) : (s.onClk f).sig = s.sig := rfl
@[simp] theorem onClk_xp (s : State) (f : ClkS → ClkS) : (s.onClk f).xp = s.xp := rfl
@[simp] theorem onClk_lanes (s : State) (f : ClkS → ClkS) : (s.onClk f).lanes = s.lanes := rfl
@[simp] theorem onClk_plan (s : State) (f : ClkS → ClkS) : (s.onClk f).plan = s.plan := rfl
@[simp] theorem onClk_place (s : State) (f : ClkS → ClkS) : (s.onClk f).place = s.place := rfl
@[simp] theorem onClk_drv (s : State) (f : ClkS → ClkS) : (s.onClk f).drv = s.drv := rfl
@[simp] theorem onClk_net (s : State) (f : ClkS → ClkS) : (s.onClk f).net = s.net := rfl
@[simp] theorem onClk_lio (s : State) (f : ClkS → ClkS) : (s.onClk f).lio = s.lio := rfl
@[simp] theorem onClk_twin (s : State) (f : ClkS → ClkS) : (s.onClk f).twin = s.twin := rfl
@[simp] theorem onClk_host (s : State) (f : ClkS → ClkS) : (s.onClk f).host = s.host := rfl
@[simp] theorem onClk_mat (s : State) (f : ClkS → ClkS) : (s.onClk f).mat = s.mat := rfl
@[simp] theorem onClk_clk (s : State) (f : ClkS → ClkS) : (s.onClk f).clk = f s.clk := rfl
@[simp] theorem onClk_flt (s : State) (f : ClkS → ClkS) : (s.onClk f).flt = s.flt := rfl
@[simp] theorem onClk_sm (s : State) (f : ClkS → ClkS) : (s.onClk f).sm = s.sm := rfl

@[simp] theorem onFlt_pending (s : State) (f : FltS → FltS) : (s.onFlt f).pending = s.pending := rfl
@[simp] theorem onFlt_free (s : State) (f : FltS → FltS) : (s.onFlt f).free = s.free := rfl
@[simp] theorem onFlt_wave (s : State) (f : FltS → FltS) : (s.onFlt f).wave = s.wave := rfl
@[simp] theorem onFlt_sig (s : State) (f : FltS → FltS) : (s.onFlt f).sig = s.sig := rfl
@[simp] theorem onFlt_xp (s : State) (f : FltS → FltS) : (s.onFlt f).xp = s.xp := rfl
@[simp] theorem onFlt_lanes (s : State) (f : FltS → FltS) : (s.onFlt f).lanes = s.lanes := rfl
@[simp] theorem onFlt_plan (s : State) (f : FltS → FltS) : (s.onFlt f).plan = s.plan := rfl
@[simp] theorem onFlt_place (s : State) (f : FltS → FltS) : (s.onFlt f).place = s.place := rfl
@[simp] theorem onFlt_drv (s : State) (f : FltS → FltS) : (s.onFlt f).drv = s.drv := rfl
@[simp] theorem onFlt_net (s : State) (f : FltS → FltS) : (s.onFlt f).net = s.net := rfl
@[simp] theorem onFlt_lio (s : State) (f : FltS → FltS) : (s.onFlt f).lio = s.lio := rfl
@[simp] theorem onFlt_twin (s : State) (f : FltS → FltS) : (s.onFlt f).twin = s.twin := rfl
@[simp] theorem onFlt_host (s : State) (f : FltS → FltS) : (s.onFlt f).host = s.host := rfl
@[simp] theorem onFlt_mat (s : State) (f : FltS → FltS) : (s.onFlt f).mat = s.mat := rfl
@[simp] theorem onFlt_clk (s : State) (f : FltS → FltS) : (s.onFlt f).clk = s.clk := rfl
@[simp] theorem onFlt_flt (s : State) (f : FltS → FltS) : (s.onFlt f).flt = f s.flt := rfl
@[simp] theorem onFlt_sm (s : State) (f : FltS → FltS) : (s.onFlt f).sm = s.sm := rfl

@[simp] theorem onSm_pending (s : State) (f : SmS → SmS) : (s.onSm f).pending = s.pending := rfl
@[simp] theorem onSm_free (s : State) (f : SmS → SmS) : (s.onSm f).free = s.free := rfl
@[simp] theorem onSm_wave (s : State) (f : SmS → SmS) : (s.onSm f).wave = s.wave := rfl
@[simp] theorem onSm_sig (s : State) (f : SmS → SmS) : (s.onSm f).sig = s.sig := rfl
@[simp] theorem onSm_xp (s : State) (f : SmS → SmS) : (s.onSm f).xp = s.xp := rfl
@[simp] theorem onSm_lanes (s : State) (f : SmS → SmS) : (s.onSm f).lanes = s.lanes := rfl
@[simp] theorem onSm_plan (s : State) (f : SmS → SmS) : (s.onSm f).plan = s.plan := rfl
@[simp] theorem onSm_place (s : State) (f : SmS → SmS) : (s.onSm f).place = s.place := rfl
@[simp] theorem onSm_drv (s : State) (f : SmS → SmS) : (s.onSm f).drv = s.drv := rfl
@[simp] theorem onSm_net (s : State) (f : SmS → SmS) : (s.onSm f).net = s.net := rfl
@[simp] theorem onSm_lio (s : State) (f : SmS → SmS) : (s.onSm f).lio = s.lio := rfl
@[simp] theorem onSm_twin (s : State) (f : SmS → SmS) : (s.onSm f).twin = s.twin := rfl
@[simp] theorem onSm_host (s : State) (f : SmS → SmS) : (s.onSm f).host = s.host := rfl
@[simp] theorem onSm_mat (s : State) (f : SmS → SmS) : (s.onSm f).mat = s.mat := rfl
@[simp] theorem onSm_clk (s : State) (f : SmS → SmS) : (s.onSm f).clk = s.clk := rfl
@[simp] theorem onSm_flt (s : State) (f : SmS → SmS) : (s.onSm f).flt = s.flt := rfl
@[simp] theorem onSm_sm (s : State) (f : SmS → SmS) : (s.onSm f).sm = f s.sm := rfl

end Sys2Proof.Laws
end

