-- ==== Sys2Proof/Laws/Table.lean ====
section
/-! SUPPORT. Sparse tables: a read after a write, and that every write keeps the canonical form. -/

namespace Sys2Proof.Laws

open Sys2Proof.Machine

variable {α : Type}

/-- Without a key, the key holds the default and every other key holds what it held. -/
theorem tget_tdel (d : α) (k i : Nat) : ∀ t : Tab α, tget d (tdel t k) i = if i = k then d else tget d t i
  | [] => by simp [tdel, tget]
  | (j, w) :: t => by
    have ih := tget_tdel d k i t
    by_cases h : j = k
    · subst h
      rw [tdel, if_pos rfl, ih]
      by_cases hi : i = j
      · simp [hi]
      · simp [hi, tget, Ne.symm hi]
    · rw [tdel, if_neg h]
      by_cases hj : j = i
      · subst hj
        simp [tget, h]
      · simp only [tget, hj, if_false, ih]

/-- With an entry, its key holds it and every other key holds what it held. -/
theorem tget_tins (d : α) (k i : Nat) (v : α) : ∀ t : Tab α, tget d (tins t k v) i = if i = k then v else tget d t i
  | [] => by
    by_cases h : i = k <;> simp [tins, tget, h]
    intro e
    exact absurd e.symm h
  | (j, w) :: t => by
    have ih := tget_tins d k i v t
    by_cases h1 : k < j
    · rw [tins, if_pos h1]
      by_cases hi : i = k
      · subst hi
        simp [tget]
      · simp only [tget, hi, if_false, Ne.symm hi]
    · rw [tins, if_neg h1]
      by_cases h2 : j = k
      · subst h2
        rw [if_pos rfl]
        by_cases hi : i = j
        · subst hi
          simp [tget]
        · simp only [tget, hi, if_false, Ne.symm hi]
      · rw [if_neg h2]
        by_cases hj : j = i
        · subst hj
          simp [tget, h2]
        · simp only [tget, hj, if_false, ih]

/-- A read after a write. -/
theorem tget_tput [DecidableEq α] (d : α) (t : Tab α) (k i : Nat) (v : α) :
    tget d (tput d t k v) i = if i = k then v else tget d t i := by
  by_cases hv : v = d
  · rw [tput, if_pos hv, tget_tdel, hv]
  · rw [tput, if_neg hv, tget_tins]

/-- A read of a key just written gives the value written. -/
@[simp] theorem tget_tput_same [DecidableEq α] (d : α) (t : Tab α) (k : Nat) (v : α) : tget d (tput d t k v) k = v := by
  rw [tget_tput, if_pos rfl]

/-- A write leaves every other key alone. -/
theorem tget_tput_other [DecidableEq α] (d : α) (t : Tab α) (k i : Nat) (v : α) (h : i ≠ k) :
    tget d (tput d t k v) i = tget d t i := by
  rw [tget_tput, if_neg h]

/-- A change of one key changes it. -/
@[simp] theorem tget_tmod_same [DecidableEq α] (d : α) (t : Tab α) (k : Nat) (f : α → α) :
    tget d (tmod d t k f) k = f (tget d t k) :=
  tget_tput_same d t k _

/-- A change of one key leaves every other key alone. -/
theorem tget_tmod_other [DecidableEq α] (d : α) (t : Tab α) (k i : Nat) (f : α → α) (h : i ≠ k) :
    tget d (tmod d t k f) i = tget d t i :=
  tget_tput_other d t k i _ h

/-- A lower bound serves as well. -/
theorem tabFrom_mono [DecidableEq α] (d : α) (t : Tab α) (b c : Nat) (h : tabFrom d b t = true) (hc : c ≤ b) :
    tabFrom d c t = true := by
  cases t with
  | nil => rfl
  | cons p t =>
    obtain ⟨j, v⟩ := p
    simp only [tabFrom, Bool.and_eq_true, decide_eq_true_eq] at h ⊢
    exact ⟨⟨by omega, h.1.2⟩, h.2⟩

/-- Taking a key out keeps the canonical form. -/
theorem tabFrom_tdel [DecidableEq α] (d : α) (k : Nat) : ∀ (t : Tab α) (b : Nat), tabFrom d b t = true →
    tabFrom d b (tdel t k) = true
  | [], _, _ => rfl
  | (j, w) :: t, b, h => by
    simp only [tabFrom, Bool.and_eq_true, decide_eq_true_eq] at h
    have ih := tabFrom_tdel d k t (j + 1) h.2
    by_cases hj : j = k
    · rw [tdel, if_pos hj]
      exact tabFrom_mono d _ (j + 1) b ih (by omega)
    · rw [tdel, if_neg hj]
      simp only [tabFrom, Bool.and_eq_true, decide_eq_true_eq]
      exact ⟨h.1, ih⟩

/-- Putting an entry in keeps the canonical form. -/
theorem tabFrom_tins [DecidableEq α] (d : α) (k : Nat) (v : α) (hv : v ≠ d) : ∀ (t : Tab α) (b : Nat),
    tabFrom d b t = true → b ≤ k → tabFrom d b (tins t k v) = true
  | [], b, _, hk => by simp [tins, tabFrom, hv, hk]
  | (j, w) :: t, b, h, hk => by
    simp only [tabFrom, Bool.and_eq_true, decide_eq_true_eq] at h
    by_cases h1 : k < j
    · rw [tins, if_pos h1]
      simp only [tabFrom, Bool.and_eq_true, decide_eq_true_eq]
      exact ⟨⟨hk, hv⟩, ⟨⟨by omega, h.1.2⟩, h.2⟩⟩
    · rw [tins, if_neg h1]
      by_cases h2 : j = k
      · rw [if_pos h2]
        simp only [tabFrom, Bool.and_eq_true, decide_eq_true_eq]
        exact ⟨⟨hk, hv⟩, h2 ▸ h.2⟩
      · rw [if_neg h2]
        simp only [tabFrom, Bool.and_eq_true, decide_eq_true_eq]
        exact ⟨h.1, tabFrom_tins d k v hv t (j + 1) h.2 (by omega)⟩

/-- A write keeps the canonical form. -/
theorem tabOk_tput [DecidableEq α] (d : α) (t : Tab α) (k : Nat) (v : α) (h : tabOk d t = true) :
    tabOk d (tput d t k v) = true := by
  by_cases hv : v = d
  · rw [tput, if_pos hv]
    exact tabFrom_tdel d k t 0 h
  · rw [tput, if_neg hv]
    exact tabFrom_tins d k v hv t 0 h (Nat.zero_le k)

/-- A change of one key keeps the canonical form. -/
theorem tabOk_tmod [DecidableEq α] (d : α) (t : Tab α) (k : Nat) (f : α → α) (h : tabOk d t = true) :
    tabOk d (tmod d t k f) = true :=
  tabOk_tput d t k _ h

/-! ### The byte memory (12 R379) -/

/-- A write of one byte keeps the canonical form. -/
theorem memWf_memPut (m : List Host.Cell) (a : Nat) (v : Byte) (h : memWf m = true) : memWf (memPut m a v) = true :=
  tabOk_tput (α := Byte) 0 m a v h

/-- A write of bytes keeps the canonical form. -/
theorem memWf_memWrite : ∀ (b : List Byte) (m : List Host.Cell) (a : Nat), memWf m = true → memWf (memWrite m a b) = true
  | [], _, _, h => h
  | v :: t, m, a, h => memWf_memWrite t (memPut m a v) (a + 1) (memWf_memPut m a v h)

/-- A read after a write of one byte. -/
theorem memByte_memPut (m : List Host.Cell) (a b : Nat) (v : Byte) :
    memByte (memPut m a v) b = if b = a then v else memByte m b :=
  tget_tput (α := Byte) 0 m a b v

/-- A write of bytes leaves every byte outside them alone. -/
theorem memByte_memWrite_other : ∀ (b : List Byte) (m : List Host.Cell) (a x : Nat), x < a ∨ a + b.length ≤ x →
    memByte (memWrite m a b) x = memByte m x
  | [], _, _, _, _ => rfl
  | v :: t, m, a, x, h => by
    simp only [List.length_cons] at h
    simp only [memWrite]
    rw [memByte_memWrite_other t (memPut m a v) (a + 1) x (by omega)]
    exact tget_tput_other (α := Byte) 0 m a x v (by omega)

/-- A byte just written reads as written. -/
theorem memByte_memWrite : ∀ (b : List Byte) (m : List Host.Cell) (a i : Nat) (hi : i < b.length),
    memByte (memWrite m a b) (a + i) = b[i]
  | v :: t, m, a, 0, _ => by
    simp only [memWrite, Nat.add_zero]
    rw [memByte_memWrite_other t (memPut m a v) (a + 1) a (by omega), memByte_memPut]
    simp
  | v :: t, m, a, i + 1, hi => by
    simp only [memWrite, List.getElem_cons_succ]
    have := memByte_memWrite t (memPut m a v) (a + 1) i (by simpa using hi)
    rw [← this]
    congr 1
    omega

end Sys2Proof.Laws
end

