-- ==== Sys2Proof/Laws/KeepsBase.lean ====
section
/-! SUPPORT. Every operation keeps the canonical form of the byte memory and leaves the queue alone, with one lemma for each:
the operations that every part of the block uses. -/

namespace Sys2Proof.Laws

open Sys2Proof Sys2Proof.Machine

/-- The queue is the same, and the byte memory keeps its canonical form. -/
def Keeps (s t : State) : Prop := t.pending = s.pending ∧ (memWf s.mat.mem = true → memWf t.mat.mem = true)

/-- The same of an outcome that is a next state. -/
def OutKeeps (s : State) (o : Host.Outcome State Fault Refusal) : Prop := ∀ t, o = .next t → Keeps s t

variable {z s : State}

theorem keeps_refl : Keeps z z := ⟨rfl, id⟩

theorem out_next (h : Keeps z s) : OutKeeps z (.next s) := fun _ e => Host.Outcome.next.inj e ▸ h

theorem out_fault {f : Fault} : OutKeeps z (.fault f) := fun _ e => nomatch e

theorem out_stop {o : Host.Outcome State Fault Refusal} (h : (match o with | .next _ => false | _ => true) = true) :
    OutKeeps z o := by
  intro t e
  subst e
  exact absurd h (by simp)

theorem out_ite {c : Prop} [Decidable c] {a b : Host.Outcome State Fault Refusal} (ha : OutKeeps z a) (hb : OutKeeps z b) :
    OutKeeps z (if c then a else b) := by
  split
  · exact ha
  · exact hb

theorem keeps_ite {c : Prop} [Decidable c] {a b : State} (ha : Keeps z a) (hb : Keeps z b) :
    Keeps z (if c then a else b) := by
  split
  · exact ha
  · exact hb

theorem keeps_ite_1 {α : Type} {c : Prop} [Decidable c] {a b : State × α} (ha : Keeps z a.1) (hb : Keeps z b.1) :
    Keeps z (if c then a else b).1 := by
  split
  · exact ha
  · exact hb

theorem keeps_ite_2 {α : Type} {c : Prop} [Decidable c] {a b : α × State} (ha : Keeps z a.2) (hb : Keeps z b.2) :
    Keeps z (if c then a else b).2 := by
  split
  · exact ha
  · exact hb

theorem keeps_ite_2_1 {α β : Type} {c : Prop} [Decidable c] {a b : α × State × β} (ha : Keeps z a.2.1)
    (hb : Keeps z b.2.1) : Keeps z (if c then a else b).2.1 := by
  split
  · exact ha
  · exact hb

theorem keeps_ite_2_2 {α β : Type} {c : Prop} [Decidable c] {a b : α × β × State} (ha : Keeps z a.2.2)
    (hb : Keeps z b.2.2) : Keeps z (if c then a else b).2.2 := by
  split
  · exact ha
  · exact hb

theorem mk_lanes {x} (h : Keeps z s) : Keeps z { s with lanes := x } := h

theorem mk_free {x} (h : Keeps z s) : Keeps z { s with free := x } := h

theorem mk_sig_lanes {x y} (h : Keeps z s) : Keeps z { s with sig := x, lanes := y } := h

theorem onFree_keeps {g} (h : Keeps z s) : Keeps z (s.onFree g) := h

theorem onWave_keeps {g} (h : Keeps z s) : Keeps z (s.onWave g) := h

theorem onSig_keeps {g} (h : Keeps z s) : Keeps z (s.onSig g) := h

theorem onXp_keeps {g} (h : Keeps z s) : Keeps z (s.onXp g) := h

theorem onLanes_keeps {g} (h : Keeps z s) : Keeps z (s.onLanes g) := h

theorem onPlan_keeps {g} (h : Keeps z s) : Keeps z (s.onPlan g) := h

theorem onPlace_keeps {g} (h : Keeps z s) : Keeps z (s.onPlace g) := h

theorem onDrv_keeps {g} (h : Keeps z s) : Keeps z (s.onDrv g) := h

theorem onNet_keeps {g} (h : Keeps z s) : Keeps z (s.onNet g) := h

theorem onLio_keeps {g} (h : Keeps z s) : Keeps z (s.onLio g) := h

theorem onTwin_keeps {g} (h : Keeps z s) : Keeps z (s.onTwin g) := h

theorem onHost_keeps {g} (h : Keeps z s) : Keeps z (s.onHost g) := h

theorem onClk_keeps {g} (h : Keeps z s) : Keeps z (s.onClk g) := h

theorem onFlt_keeps {g} (h : Keeps z s) : Keeps z (s.onFlt g) := h

theorem onSm_keeps {g} (h : Keeps z s) : Keeps z (s.onSm g) := h

theorem onMat_keeps {g} (h : Keeps z s) (hg : memWf s.mat.mem = true → memWf (g s.mat).mem = true) :
    Keeps z (s.onMat g) := ⟨h.1, fun hz => hg (h.2 hz)⟩

theorem foldl_keeps {α : Type} {g : State → α → State} {l : List α} (h : Keeps z s)
    (hg : ∀ t a, Keeps z t → Keeps z (g t a)) : Keeps z (l.foldl g s) := by
  induction l generalizing s with
  | nil => exact h
  | cons a l ih => exact ih (hg s a h)

theorem foldl_keeps_on {α β : Type} (f : β → State) {g : β → α → β} {l : List α} {b : β} (h : Keeps z (f b))
    (hg : ∀ t a, Keeps z (f t) → Keeps z (f (g t a))) : Keeps z (f (l.foldl g b)) := by
  induction l generalizing b with
  | nil => exact h
  | cons a l ih => exact ih (hg b a h)

theorem memWf_foldl {α : Type} {g : List Host.Cell → α → List Host.Cell} (l : List α)
    (hg : ∀ m a, memWf m = true → memWf (g m a) = true) {m : List Host.Cell} (h : memWf m = true) :
    memWf (l.foldl g m) = true := by
  induction l generalizing m with
  | nil => exact h
  | cons a l ih => exact ih (hg m a h)

theorem memWf_stagingByte (o : Nat) (d : List (Option Byte)) (m : List Host.Cell) (i : Nat) (h : memWf m = true) :
    memWf (stagingByte o d m i) = true := by
  unfold stagingByte
  split
  · split
    · exact memWf_memPut m _ _ h
    · exact h
  · exact h

/-- Taking entries out keeps the canonical form. -/
theorem tabFrom_filter {α : Type} [DecidableEq α] (d : α) (f : Nat × α → Bool) : ∀ (t : Tab α) (b : Nat),
    tabFrom d b t = true → tabFrom d b (t.filter f) = true
  | [], _, h => h
  | (j, v) :: t, b, h => by
    simp only [tabFrom, Bool.and_eq_true, decide_eq_true_eq] at h
    have ih := tabFrom_filter d f t (j + 1) h.2
    by_cases hf : f (j, v) = true
    · rw [List.filter_cons_of_pos hf]
      simp only [tabFrom, Bool.and_eq_true, decide_eq_true_eq]
      exact ⟨h.1, ih⟩
    · rw [List.filter_cons_of_neg hf]
      exact tabFrom_mono d _ (j + 1) b ih (by omega)

theorem memWf_filter (m : List Host.Cell) (f : Host.Cell → Bool) (h : memWf m = true) : memWf (m.filter f) = true :=
  tabFrom_filter 0 f m 0 h

/-! ### Ops -/

theorem noteAudit_keeps (h : Keeps z s) : Keeps z (noteAudit s) :=
  onTwin_keeps h

theorem sendMsi_keeps (h : Keeps z s) : ∀ {a0}, Keeps z (sendMsi a0 s) :=
  onHost_keeps h

theorem setIrq_keeps (h : Keeps z s) : ∀ {a0}, Keeps z (setIrq a0 s) :=
  onHost_keeps h

theorem kioskIrq_keeps (h : Keeps z s) : ∀ {a0}, Keeps z (kioskIrq a0 s) :=
  keeps_ite (sendMsi_keeps (keeps_ite (setIrq_keeps h) (onHost_keeps h))) h

theorem onKiosk_keeps (h : Keeps z s) : ∀ {a0 a1}, Keeps z (onKiosk a0 a1 s) :=
  onHost_keeps h

theorem answer_keeps (h : Keeps z s) : ∀ {a0 a1 a2 a3}, Keeps z (answer a0 a1 a2 a3 s) := by
  intros
  unfold answer
  extract_lets -merge -useContext -underBinder +onlyGivenNames x0
  split
  all_goals first
    | exact h
    | skip
      extract_lets -merge -useContext -underBinder +onlyGivenNames x1 x2 s3
      have hs3 : Keeps z s3 := by
        unfold s3
        split
        all_goals first
          | exact onSm_keeps h
          | exact h
      clear_value s3
      exact keeps_ite (onKiosk_keeps h) (kioskIrq_keeps (onKiosk_keeps hs3))

theorem answerFail_keeps (h : Keeps z s) : ∀ {a0 a1}, Keeps z (answerFail a0 a1 s) := by
  intros
  unfold answerFail
  extract_lets -merge -useContext -underBinder +onlyGivenNames s0
  have hs0 : Keeps z s0 := keeps_ite h (onXp_keeps h)
  clear_value s0
  exact answer_keeps (onHost_keeps hs0)

theorem answerOk_keeps (h : Keeps z s) : ∀ {a0 a1}, Keeps z (answerOk a0 a1 s) :=
  answer_keeps h

theorem putRep_keeps (h : Keeps z s) : ∀ {a0}, Keeps z (putRep a0 s) := by
  intros
  unfold putRep
  extract_lets -merge -useContext -underBinder +onlyGivenNames x0
  exact onFlt_keeps h

theorem endCond_keeps (h : Keeps z s) : ∀ {a0 a1}, Keeps z (endCond a0 a1 s) :=
  keeps_ite (putRep_keeps (onFlt_keeps h)) h

theorem settle_keeps {p} (h : Keeps z p.1) : ∀ {a0}, Keeps z (settle a0 p) := by
  intros
  unfold settle
  split
  all_goals first
    | exact answerOk_keeps h
    | exact h

theorem raise_keeps (h : Keeps z s) : ∀ {a0 a1 a2}, Keeps z (raise a0 a1 a2 s) :=
  keeps_ite (keeps_ite h (putRep_keeps (onFlt_keeps h))) (putRep_keeps h)

theorem runKiosk_keeps {code k : Nat} {fwd : List Byte → Bool} {check : List Byte → State → Option Fail}
    {effect : Nat → List Byte → State → Effect} (he : ∀ k p t, Keeps z t → Keeps z (effect k p t).1) (h : Keeps z s) :
    Keeps z (runKiosk code k fwd check effect s) := by
  unfold runKiosk
  split
  · exact h
  · split
    · split
      · exact answerFail_keeps h
      · extract_lets s1 fr r1 s2 r2 s3
        have h1 : Keeps z s1 := onHost_keeps h
        refine keeps_ite (onKiosk_keeps (onTwin_keeps h1)) ?_
        have h2 : Keeps z s2 := keeps_ite (onTwin_keeps h1) h1
        have h3 : Keeps z s3 := onKiosk_keeps h2
        exact settle_keeps (he _ _ _ h3)
    · exact answerFail_keeps h

/-! ### Crosspoint -/

theorem produce_keeps (h : Keeps z s) : ∀ {a0 a1}, Keeps z (produce a0 a1 s) :=
  onSig_keeps h

theorem setSat_keeps (h : Keeps z s) : ∀ {a0}, Keeps z (setSat a0 s) :=
  onXp_keeps h

theorem alleyVote_keeps (h : Keeps z s) : ∀ {a0 a1 a2}, Keeps z (alleyVote a0 a1 a2 s).1 := by
  intros
  unfold alleyVote
  extract_lets -merge -useContext -underBinder +onlyGivenNames x0 x1 s2 s3 s4 s5 s6 s7
  have hs2 : Keeps z s2 := produce_keeps h
  clear_value s2
  have hs3 : Keeps z s3 := keeps_ite (setSat_keeps hs2) hs2
  clear_value s3
  have hs4 : Keeps z s4 := onXp_keeps hs3
  clear_value s4
  have hs5 : Keeps z s5 := keeps_ite (raise_keeps hs4) hs4
  clear_value s5
  have hs6 : Keeps z s6 := keeps_ite (raise_keeps hs5) hs5
  clear_value s6
  have hs7 : Keeps z s7 := keeps_ite (noteAudit_keeps hs6) hs6
  clear_value s7
  exact hs7

theorem avenueColumn_keeps (h : Keeps z s) : ∀ {a0}, Keeps z (avenueColumn a0 s).1 := by
  intros
  unfold avenueColumn
  split
  all_goals first
    | exact alleyVote_keeps h
    | skip
      split
      all_goals first
        | exact keeps_ite (setSat_keeps (produce_keeps h)) (produce_keeps h)
        | exact produce_keeps h

theorem setActive_keeps (h : Keeps z s) : ∀ {a0}, Keeps z (setActive a0 s) :=
  onXp_keeps h

theorem applyEntry_keeps (h : Keeps z s) : ∀ {a0}, Keeps z (applyEntry a0 s) :=
  onXp_keeps h

theorem applyTrans_keeps (h : Keeps z s) : ∀ {a0}, Keeps z (applyTrans a0 s) :=
  onXp_keeps h

theorem squareApply_keeps (h : Keeps z s) : ∀ {a0}, Keeps z (squareApply a0 s) := by
  intros
  unfold squareApply
  extract_lets -merge -useContext -underBinder +onlyGivenNames x0 s1
  have hs1 : Keeps z s1 := foldl_keeps h fun t2 t2a ht2 => keeps_ite (applyEntry_keeps ht2) ht2
  clear_value s1
  refine foldl_keeps hs1 (fun t3 t3a ht3 => ?_)
  split
  all_goals first
    | exact keeps_ite (applyTrans_keeps ht3) ht3
    | exact ht3

theorem countTimeout_keeps (h : Keeps z s) : ∀ {a0}, Keeps z (countTimeout a0 s) := by
  intros
  unfold countTimeout
  extract_lets -merge -useContext -underBinder +onlyGivenNames s0 x1 x2
  have hs0 : Keeps z s0 := onXp_keeps h
  clear_value s0
  exact keeps_ite (raise_keeps (onXp_keeps hs0)) (onXp_keeps hs0)

theorem squareCommit_keeps (h : Keeps z s) : ∀ {a0}, Keeps z (squareCommit a0 s) := by
  intros
  unfold squareCommit
  extract_lets -merge -useContext -underBinder +onlyGivenNames x0
  exact foldl_keeps (onXp_keeps h) fun t1 t1a ht1 => countTimeout_keeps ht1

theorem noteUndo_keeps (h : Keeps z s) : ∀ {a0 a1 a2}, Keeps z (noteUndo a0 a1 a2 s) :=
  onXp_keeps h

theorem squareDiscard_keeps (h : Keeps z s) : ∀ {a0}, Keeps z (squareDiscard a0 s) :=
  onXp_keeps h

theorem directApply_keeps (h : Keeps z s) : Keeps z (directApply s) := by
  unfold directApply
  extract_lets -merge -useContext -underBinder +onlyGivenNames x0 s1
  have hs1 : Keeps z s1 := onXp_keeps h
  clear_value s1
  exact foldl_keeps hs1 fun t2 t2a ht2 => onXp_keeps (noteUndo_keeps ht2)

/-! ### Players -/

theorem onPlayer_keeps (h : Keeps z s) : ∀ {a0 a1}, Keeps z (onPlayer a0 a1 s) :=
  onPlan_keeps h

theorem execPlayerEntryEnd_keeps (h : Keeps z s) : ∀ {a0}, OutKeeps z (execPlayerEntryEnd a0 s) := by
  intros
  unfold execPlayerEntryEnd
  extract_lets -merge -useContext -underBinder +onlyGivenNames x0
  exact out_ite (out_ite (out_next (onPlayer_keeps h)) (out_ite (out_next (onPlayer_keeps h)) (out_next (onPlayer_keeps h)))) (out_next h)

theorem playUnderrun_keeps (h : Keeps z s) : ∀ {a0}, Keeps z (playUnderrun a0 s) :=
  raise_keeps (onPlayer_keeps h)

theorem playTick_keeps (h : Keeps z s) : ∀ {a0 a1 a2}, Keeps z (playTick a0 a1 a2 s) := by
  intros
  unfold playTick
  extract_lets -merge -useContext -underBinder +onlyGivenNames x0
  exact keeps_ite (keeps_ite (onPlayer_keeps h) (keeps_ite (playUnderrun_keeps h) (onPlayer_keeps h))) (onPlayer_keeps h)

theorem playLatch_keeps (h : Keeps z s) : ∀ {a0 a1 a3}, Keeps z (playLatch a0 a1 s a3) := by
  intros
  unfold playLatch
  extract_lets -merge -useContext -underBinder +onlyGivenNames s0 x1
  have hs0 : Keeps z s0 := playTick_keeps h
  clear_value s0
  exact onSig_keeps hs0

theorem playStopAll_keeps (h : Keeps z s) : Keeps z (playStopAll s) :=
  onPlan_keeps h

theorem playFirst_keeps (h : Keeps z s) : ∀ {a1}, Keeps z (playFirst s a1) :=
  keeps_ite (playLatch_keeps h) h

theorem execPlayerBegin_keeps (h : Keeps z s) : ∀ {a0}, OutKeeps z (execPlayerBegin a0 s) := by
  intros
  unfold execPlayerBegin
  extract_lets -merge -useContext -underBinder +onlyGivenNames x0
  exact out_ite (out_next (playFirst_keeps (onPlayer_keeps h))) (out_next h)

theorem playLevels_keeps (h : Keeps z s) : ∀ {a0 a1}, Keeps z (playLevels a0 a1 s) := by
  intros
  unfold playLevels
  extract_lets -merge -useContext -underBinder +onlyGivenNames x0 x1
  exact foldl_keeps (onPlan_keeps h) fun t2 t2a ht2 => playFirst_keeps ht2

theorem playSilence_keeps (h : Keeps z s) : ∀ {a0}, Keeps z (playSilence a0 s) := by
  intros
  unfold playSilence
  extract_lets -merge -useContext -underBinder +onlyGivenNames x0 s1
  have hs1 : Keeps z s1 := onPlayer_keeps h
  clear_value s1
  exact onSig_keeps hs1

theorem execPlayerStopEffect_keeps (h : Keeps z s) : ∀ {a0}, OutKeeps z (execPlayerStopEffect a0 s) := by
  intros
  unfold execPlayerStopEffect
  extract_lets -merge -useContext -underBinder +onlyGivenNames x0 x1
  exact out_ite (out_next (playSilence_keeps h)) (out_next h)

/-! ### Log -/

theorem k0Queue_keeps (h : Keeps z s) : ∀ {a0}, Keeps z (k0Queue a0 s) :=
  keeps_ite (keeps_ite (onHost_keeps h) (onHost_keeps h)) h

theorem logPut_keeps (h : Keeps z s) : ∀ {a0}, Keeps z (logPut a0 s) := by
  intros
  unfold logPut
  extract_lets -merge -useContext -underBinder +onlyGivenNames x0 x1 x2 s3
  have hs3 : Keeps z s3 := onHost_keeps h
  clear_value s3
  exact keeps_ite (sendMsi_keeps (setIrq_keeps (onHost_keeps hs3))) hs3

theorem logRec_keeps (h : Keeps z s) : ∀ {a0}, Keeps z (logRec a0 s) :=
  k0Queue_keeps (logPut_keeps h)

theorem k0Show_keeps (h : Keeps z s) : ∀ {a0}, Keeps z (k0Show a0 s) :=
  kioskIrq_keeps (onKiosk_keeps h)

theorem execKiosk0EventPost_keeps (h : Keeps z s) : OutKeeps z (execKiosk0EventPost s) := by
  unfold execKiosk0EventPost
  extract_lets -merge -useContext -underBinder +onlyGivenNames x0
  refine out_ite ?_ (out_next h)
  split
  all_goals first
    | exact out_next (k0Show_keeps (onHost_keeps h))
    | exact out_next h

theorem execKiosk0Ack_keeps (h : Keeps z s) : OutKeeps z (execKiosk0Ack s) := by
  unfold execKiosk0Ack
  extract_lets -merge -useContext -underBinder +onlyGivenNames x0 x1 x2
  exact out_ite (out_ite (out_next (onKiosk_keeps h)) (out_next (kioskIrq_keeps (onKiosk_keeps (onHost_keeps h))))) (out_next h)

/-! ### Bus -/

theorem drivePin_keeps (h : Keeps z s) : ∀ {a0}, Keeps z (drivePin a0 s) :=
  onClk_keeps h

theorem busErr_keeps (h : Keeps z s) : ∀ {a0 a1 a2 a3 a4}, Keeps z (busErr a0 a1 a2 a3 a4 s) := by
  intros
  unfold busErr
  extract_lets -merge -useContext -underBinder +onlyGivenNames x0 x1 s2 s3
  have hs2 : Keeps z s2 := onMat_keeps h (fun hm => hm)
  clear_value s2
  have hs3 : Keeps z s3 := keeps_ite hs2 (onMat_keeps hs2 (fun hm => hm))
  clear_value s3
  exact keeps_ite (raise_keeps hs3) hs3

theorem libRefused_keeps (h : Keeps z s) : Keeps z (libRefused s) :=
  onSm_keeps h

theorem dmaWrite_keeps (h : Keeps z s) : ∀ {a0 a1}, Keeps z (dmaWrite a0 a1 s) :=
  keeps_ite (libRefused_keeps h) (onMat_keeps h (memWf_foldl _ (fun m i hm => memWf_memPut m _ _ hm)))

theorem openGate_keeps (h : Keeps z s) : ∀ {a0}, Keeps z (openGate a0 s) := by
  intros
  unfold openGate
  extract_lets -merge -useContext -underBinder +onlyGivenNames x0
  exact onClk_keeps h

/-! ### Lane -/

theorem onLane_keeps (h : Keeps z s) : ∀ {a0 a1}, Keeps z (onLane a0 a1 s) :=
  mk_lanes h

theorem laneDed_keeps (h : Keeps z s) : ∀ {a0}, Keeps z (laneDed a0 s) :=
  raise_keeps (onLane_keeps h)

theorem laneNote_keeps (h : Keeps z s) : ∀ {a0 a1 a2}, Keeps z (laneNote a0 a1 a2 s) :=
  keeps_ite (raise_keeps h) (keeps_ite h (raise_keeps (onLane_keeps h)))

theorem laneSee_keeps (h : Keeps z s) : ∀ {a0}, Keeps z (laneSee a0 s) := by
  intros
  unfold laneSee
  extract_lets -merge -useContext -underBinder +onlyGivenNames x0 x1 s2
  have hs2 : Keeps z s2 := onLane_keeps h
  clear_value s2
  exact keeps_ite (raise_keeps hs2) hs2

theorem laneStop_keeps (h : Keeps z s) : ∀ {a0 a1}, Keeps z (laneStop a0 a1 s) :=
  raise_keeps (onLane_keeps h)

theorem issue_keeps (h : Keeps z s) : ∀ {a0 a1 a2}, Keeps z (issue a0 a1 a2 s) := by
  intros
  unfold issue
  extract_lets -merge -useContext -underBinder +onlyGivenNames s0 x1 s2 x3
  have hs0 : Keeps z s0 := laneSee_keeps (onLane_keeps h)
  clear_value s0
  have hs2 : Keeps z s2 := by
    unfold s2
    split
    all_goals first
      | exact laneNote_keeps hs0
      | exact hs0
  clear_value s2
  refine keeps_ite ?_ h
  refine keeps_ite (laneDed_keeps h) ?_
  split
  all_goals first
    | exact laneStop_keeps hs2
    | exact onLane_keeps hs2

/-! ### Placement -/

theorem decideMove_keeps (h : Keeps z s) : ∀ {a0 a1}, Keeps z (decideMove a0 a1 s) := by
  intros
  unfold decideMove
  extract_lets -merge -useContext -underBinder +onlyGivenNames x0 x1
  exact onPlace_keeps h

theorem unresolved_keeps (h : Keeps z s) : ∀ {a0}, Keeps z (unresolved a0 s) :=
  decideMove_keeps (raise_keeps (onPlace_keeps h))

theorem onDist_keeps (h : Keeps z s) : ∀ {a0 a1}, Keeps z (onDist a0 a1 s) :=
  onPlace_keeps h

theorem vcoreRequest_keeps (h : Keeps z s) : Keeps z (vcoreRequest s) := by
  unfold vcoreRequest
  extract_lets -merge -useContext -underBinder +onlyGivenNames x0 s1 x2 x3
  have hs1 : Keeps z s1 := onClk_keeps h
  clear_value s1
  exact keeps_ite (keeps_ite (keeps_ite (raise_keeps (onClk_keeps hs1)) hs1) (keeps_ite (onClk_keeps hs1) hs1)) h

theorem windowAvenue_keeps (h : Keeps z s) : ∀ {a0}, Keeps z (windowAvenue a0 s) := by
  intros
  unfold windowAvenue
  extract_lets -merge -useContext -underBinder +onlyGivenNames x0 x1 x2 s3
  have hs3 : Keeps z s3 := onDist_keeps h
  clear_value s3
  split
  all_goals first
    | skip
      extract_lets -merge -useContext -underBinder +onlyGivenNames s4 x5
      have hs4 : Keeps z s4 := keeps_ite (onClk_keeps hs3) hs3
      clear_value s4
      exact keeps_ite (vcoreRequest_keeps (keeps_ite hs4 (raise_keeps (onDist_keeps hs4)))) hs4
    | exact hs3

theorem dropSecond_keeps (h : Keeps z s) : ∀ {a0}, Keeps z (dropSecond a0 s) :=
  mk_lanes h

theorem endMove_keeps (h : Keeps z s) : ∀ {a0}, Keeps z (endMove a0 s) :=
  dropSecond_keeps (onPlace_keeps h)

theorem onWork_keeps (h : Keeps z s) : ∀ {a0 a1}, Keeps z (onWork a0 a1 s) :=
  onPlace_keeps h

theorem abandon_keeps (h : Keeps z s) : ∀ {a0}, Keeps z (abandon a0 s) := by
  intros
  unfold abandon
  extract_lets -merge -useContext -underBinder +onlyGivenNames s0
  have hs0 : Keeps z s0 := endMove_keeps h
  clear_value s0
  exact keeps_ite (raise_keeps (onWork_keeps (onPlace_keeps hs0))) hs0

theorem onTile_keeps (h : Keeps z s) : ∀ {a0 a1}, Keeps z (onTile a0 a1 s) :=
  onPlace_keeps h

theorem shedWork_keeps (h : Keeps z s) : ∀ {a0}, Keeps z (shedWork a0 s) := by
  intros
  unfold shedWork
  extract_lets -merge -useContext -underBinder +onlyGivenNames s0 x1
  have hs0 : Keeps z s0 := foldl_keeps h fun t2 t2a ht2 => abandon_keeps ht2
  clear_value s0
  exact raise_keeps (onWork_keeps (onPlace_keeps hs0))

theorem shed_keeps : ∀ {mix : Bool} {n : Nat} {s : State}, Keeps z s → Keeps z (shed mix n s)
  | _, 0, _, h => h
  | mix, n + 1, s, h => by
    unfold shed
    extract_lets ds used have_ short free
    split
    · split
      · exact shed_keeps (shedWork_keeps h)
      · exact h
    · exact h

theorem rebalance_keeps (h : Keeps z s) : ∀ {a0}, Keeps z (rebalance a0 s) := by
  intros
  unfold rebalance
  extract_lets -merge -useContext -underBinder +onlyGivenNames x0 s1
  have hs1 : Keeps z s1 := by
    refine foldl_keeps h (fun t2 t2a ht2 => ?_)
    extract_lets -merge -useContext -underBinder +onlyGivenNames x3
    refine keeps_ite ?_ (keeps_ite (endCond_keeps (onDist_keeps ht2)) ht2)
    refine keeps_ite ?_ (keeps_ite ht2 (raise_keeps (onDist_keeps ht2)))
    split
    all_goals first
      | exact keeps_ite ht2 (decideMove_keeps ht2)
      | exact ht2
  clear_value s1
  exact shed_keeps hs1

theorem renumber_keeps (h : Keeps z s) : ∀ {a0}, Keeps z (renumber a0 s) := by
  intros
  unfold renumber
  refine foldl_keeps h (fun t0 t0a ht0 => ?_)
  refine keeps_ite ?_ ht0
  split
  all_goals first
    | exact onWork_keeps ht0
    | exact ht0

theorem retireTile_keeps (h : Keeps z s) : ∀ {a0 a1}, Keeps z (retireTile a0 a1 s) := by
  intros
  unfold retireTile
  extract_lets -merge -useContext -underBinder +onlyGivenNames x0 x1 s2 s3 s4 s5
  have hs2 : Keeps z s2 := onTile_keeps (onPlace_keeps h)
  clear_value s2
  have hs3 : Keeps z s3 := foldl_keeps hs2 fun t6 t6a ht6 => abandon_keeps ht6
  clear_value s3
  have hs4 : Keeps z s4 := raise_keeps (raise_keeps hs3)
  clear_value s4
  have hs5 : Keeps z s5 := foldl_keeps hs4 fun t7 t7a ht7 => decideMove_keeps ht7
  clear_value s5
  exact keeps_ite h (rebalance_keeps (renumber_keeps hs5))

theorem clearShort_keeps (h : Keeps z s) : Keeps z (clearShort s) :=
  foldl_keeps (onPlace_keeps h) fun t0 t0a ht0 => endCond_keeps ht0

theorem retryMoves_keeps (h : Keeps z s) : Keeps z (retryMoves s) := by
  unfold retryMoves
  refine foldl_keeps h (fun t0 t0a ht0 => ?_)
  split
  all_goals first
    | exact onWork_keeps ht0
    | exact decideMove_keeps (onWork_keeps ht0)
    | exact ht0

theorem execVcoreLower_keeps (h : Keeps z s) : OutKeeps z (execVcoreLower s) :=
  out_next (keeps_ite (onClk_keeps h) h)

theorem startMove_keeps (h : Keeps z s) : ∀ {a0 a1 a2 a3 a4}, Keeps z (startMove a0 a1 a2 a3 a4 s) := by
  intros
  unfold startMove
  extract_lets -merge -useContext -underBinder +onlyGivenNames x0 x1
  exact onPlace_keeps h

theorem urgentMove_keeps (h : Keeps z s) : ∀ {a0 a1}, Keeps z (urgentMove a0 a1 s) := by
  intros
  unfold urgentMove
  extract_lets -merge -useContext -underBinder +onlyGivenNames s0 s1
  have hs0 : Keeps z s0 := by
    unfold s0
    split
    all_goals first
      | exact abandon_keeps h
      | exact h
  clear_value s0
  have hs1 : Keeps z s1 := by
    unfold s1
    split
    all_goals first
      | exact hs0
      | exact foldl_keeps hs0 fun t2 t2a ht2 => abandon_keeps ht2
  clear_value s1
  refine keeps_ite h ?_
  refine keeps_ite ?_ hs0
  split
  all_goals first
    | skip
      extract_lets -merge -useContext -underBinder +onlyGivenNames x3
      exact startMove_keeps (foldl_keeps hs1 fun t4 t4a ht4 => abandon_keeps ht4)
    | exact hs1

theorem newShortfall_keeps (h : Keeps z s) : Keeps z (newShortfall s) :=
  foldl_keeps (clearShort_keeps h) fun t0 t0a ht0 => raise_keeps (onPlace_keeps ht0)

theorem endShortfall_keeps (h : Keeps z s) : Keeps z (endShortfall s) :=
  keeps_ite (clearShort_keeps h) h

theorem settleWork_keeps (h : Keeps z s) : ∀ {a0 a1}, Keeps z (settleWork a0 a1 s) :=
  onWork_keeps h

theorem placeOne_keeps {p} (h : Keeps z p.1) : ∀ {a0 a1}, Keeps z (placeOne a0 a1 p).1 := by
  intros
  unfold placeOne
  extract_lets -merge -useContext -underBinder +onlyGivenNames x0 s1
  have hs1 : Keeps z s1 := onWork_keeps h
  clear_value s1
  split
  all_goals first
    | exact settleWork_keeps hs1
    | exact hs1

theorem startTie_keeps (h : Keeps z s) : ∀ {a0 a1 a2}, Keeps z (startTie a0 a1 a2 s) := by
  intros
  unfold startTie
  extract_lets -merge -useContext -underBinder +onlyGivenNames s0 x1
  have hs0 : Keeps z s0 := onPlace_keeps h
  clear_value s0
  refine keeps_ite hs0 ?_
  split
  all_goals first
    | exact unresolved_keeps (onDist_keeps (onWork_keeps hs0))
    | skip
      extract_lets -merge -useContext -underBinder +onlyGivenNames x2
      clear_value x2
      split
      all_goals first
        | skip
          extract_lets -merge -useContext -underBinder +onlyGivenNames x3
          exact onPlace_keeps hs0
        | exact onPlace_keeps hs0

theorem breakPin_keeps (h : Keeps z s) : ∀ {a0}, Keeps z (breakPin a0 s) :=
  keeps_ite h (raise_keeps (onWork_keeps (onPlace_keeps h)))

theorem pinCheck_keeps (h : Keeps z s) : ∀ {a0}, Keeps z (pinCheck a0 s) := by
  intros
  unfold pinCheck
  split
  all_goals first
    | exact keeps_ite (onWork_keeps h) (breakPin_keeps h)
    | exact h

theorem takeOver_keeps (h : Keeps z s) : ∀ {a0}, Keeps z (takeOver a0 s) := by
  intros
  unfold takeOver
  extract_lets -merge -useContext -underBinder +onlyGivenNames x0 s1 s2 s3 s4 s5 s6 x7
  have hs1 : Keeps z s1 := keeps_ite (mk_lanes h) h
  clear_value s1
  have hs2 : Keeps z s2 := endMove_keeps hs1
  clear_value s2
  have hs3 : Keeps z s3 := onWork_keeps hs2
  clear_value s3
  have hs4 : Keeps z s4 := onPlace_keeps hs3
  clear_value s4
  have hs5 : Keeps z s5 := onDist_keeps hs4
  clear_value s5
  have hs6 : Keeps z s6 := keeps_ite hs5 (onDist_keeps hs5)
  clear_value s6
  exact pinCheck_keeps (raise_keeps hs6)

theorem windowDrop_keeps (h : Keeps z s) : Keeps z (windowDrop s) :=
  onPlace_keeps h

theorem noteEcc_keeps (h : Keeps z s) : ∀ {a0 a1}, Keeps z (noteEcc a0 a1 s) :=
  keeps_ite h (onTile_keeps h)

theorem windowWork_keeps (h : Keeps z s) : ∀ {a0}, Keeps z (windowWork a0 s) := by
  intros
  unfold windowWork
  extract_lets -merge -useContext -underBinder +onlyGivenNames x0
  split
  all_goals first
    | exact h
    | skip
      extract_lets -merge -useContext -underBinder +onlyGivenNames x1 x2 x3 x4 s5 s6 s7
      have hs5 : Keeps z s5 := onWork_keeps h
      clear_value s5
      have hs6 : Keeps z s6 := keeps_ite (onClk_keeps hs5) hs5
      clear_value s6
      have hs7 : Keeps z s7 := keeps_ite (raise_keeps (onTile_keeps hs6)) hs6
      clear_value s7
      refine keeps_ite ?_ hs7
      split
      all_goals first
        | exact decideMove_keeps (raise_keeps hs7)
        | exact vcoreRequest_keeps (raise_keeps hs7)

theorem replaceCopy_keeps (h : Keeps z s) : ∀ {a0}, Keeps z (replaceCopy a0 s) := by
  intros
  unfold replaceCopy
  split
  all_goals first
    | skip
      split
      all_goals first
        | exact decideMove_keeps h
        | exact h
    | exact decideMove_keeps h

theorem noteSpeed_keeps (h : Keeps z s) : ∀ {a0}, Keeps z (noteSpeed a0 s) := by
  intros
  unfold noteSpeed
  extract_lets -merge -useContext -underBinder +onlyGivenNames x0 x1
  exact onTile_keeps h

theorem tileLoses_keeps (h : Keeps z s) : ∀ {a0 a1 a2 a3}, Keeps z (tileLoses a0 a1 a2 a3 s) := by
  intros
  unfold tileLoses
  extract_lets -merge -useContext -underBinder +onlyGivenNames s0 s1 s2
  have hs0 : Keeps z s0 := onPlace_keeps h
  clear_value s0
  have hs1 : Keeps z s1 := onDist_keeps hs0
  clear_value s1
  have hs2 : Keeps z s2 := onTile_keeps hs1
  clear_value s2
  exact raise_keeps hs2

theorem noteSlack_keeps (h : Keeps z s) : ∀ {a0 a1 a2}, Keeps z (noteSlack a0 a1 a2 s) := by
  intros
  unfold noteSlack
  extract_lets -merge -useContext -underBinder +onlyGivenNames x0 s1 x2 s3
  have hs1 : Keeps z s1 := onWork_keeps h
  clear_value s1
  have hs3 : Keeps z s3 := onWave_keeps hs1
  clear_value s3
  exact noteEcc_keeps hs3

theorem tryWait_keeps (h : Keeps z s) : ∀ {a0 a2}, Keeps z (tryWait a0 s a2) := by
  intros
  unfold tryWait
  extract_lets -merge -useContext -underBinder +onlyGivenNames x0
  have hx0 : ∀ x0a0, Keeps z x0a0 → Keeps z (x0 x0a0) := by
    intro x0a0 hx0a0
    unfold x0
    beta_reduce
    exact onPlace_keeps hx0a0
  clear_value x0
  refine keeps_ite (hx0 _ h) ?_
  refine keeps_ite h ?_
  split
  all_goals first
    | exact keeps_ite (hx0 _ h) h
    | exact keeps_ite h (startMove_keeps (onWork_keeps (hx0 _ h)))

theorem placeAll_keeps (h : Keeps z s) : ∀ {a0}, Keeps z (placeAll a0 s).1 := by
  intros
  unfold placeAll
  extract_lets -merge -useContext -underBinder +onlyGivenNames s0 x1 x2 x3 x4 x5
  have hs0 : Keeps z s0 := onPlace_keeps h
  clear_value s0
  refine foldl_keeps_on Prod.fst ?_ (fun t6 t6a ht6 => ?_)
  · beta_reduce
    exact hs0
  · beta_reduce at ht6 ⊢
    exact placeOne_keeps ht6

theorem tileDed_keeps (h : Keeps z s) : ∀ {a0 a1}, Keeps z (tileDed a0 a1 s) :=
  onTile_keeps h

theorem noteMedians_keeps (h : Keeps z s) : ∀ {a0}, Keeps z (noteMedians a0 s) := by
  intros
  unfold noteMedians
  refine foldl_keeps h (fun t0 t0a ht0 => ?_)
  extract_lets -merge -useContext -underBinder +onlyGivenNames x1
  clear_value x1
  split
  all_goals first
    | exact ht0
    | exact onPlace_keeps ht0

theorem placeSnap_keeps (h : Keeps z s) : Keeps z (placeSnap s) :=
  onPlace_keeps h

theorem abandonAll_keeps (h : Keeps z s) : Keeps z (abandonAll s) := by
  unfold abandonAll
  extract_lets -merge -useContext -underBinder +onlyGivenNames s0
  have hs0 : Keeps z s0 := foldl_keeps h fun t1 t1a ht1 => abandon_keeps ht1
  clear_value s0
  exact onPlace_keeps hs0

theorem pinReturns_keeps (h : Keeps z s) : Keeps z (pinReturns s) := by
  unfold pinReturns
  refine foldl_keeps h (fun t0 t0a ht0 => ?_)
  split
  all_goals first
    | exact keeps_ite (decideMove_keeps ht0) ht0
    | exact ht0

theorem startWaits_keeps (h : Keeps z s) : ∀ {a0}, Keeps z (startWaits a0 s) := by
  intros
  unfold startWaits
  extract_lets -merge -useContext -underBinder +onlyGivenNames s0
  have hs0 : Keeps z s0 := pinReturns_keeps (foldl_keeps h fun t1 t1a ht1 => keeps_ite (startTie_keeps ht1) (onPlace_keeps ht1))
  clear_value s0
  exact keeps_ite h (foldl_keeps hs0 fun t2 t2a ht2 => tryWait_keeps ht2)

/-! ### Drive -/

theorem onChan_keeps (h : Keeps z s) : ∀ {a0 a1}, Keeps z (onChan a0 a1 s) :=
  onDrv_keeps h

theorem thermChan_keeps (h : Keeps z s) : ∀ {a0}, Keeps z (thermChan a0 s) := by
  intros
  unfold thermChan
  extract_lets -merge -useContext -underBinder +onlyGivenNames x0 x1 x2 s3
  have hs3 : Keeps z s3 := onChan_keeps h
  clear_value s3
  exact keeps_ite (raise_keeps (onDrv_keeps (onChan_keeps hs3))) (keeps_ite (endCond_keeps (onChan_keeps hs3)) hs3)

theorem pilotNextWindow_keeps (h : Keeps z s) : ∀ {a0}, Keeps z (pilotNextWindow a0 s) :=
  onChan_keeps h

theorem probeEnd_keeps (h : Keeps z s) : ∀ {a0 a1}, Keeps z (probeEnd a0 a1 s) := by
  intros
  unfold probeEnd
  extract_lets -merge -useContext -underBinder +onlyGivenNames s0
  have hs0 : Keeps z s0 := pilotNextWindow_keeps h
  clear_value s0
  exact keeps_ite (endCond_keeps (raise_keeps (onChan_keeps hs0))) (onChan_keeps hs0)

theorem shortStart_keeps (h : Keeps z s) : ∀ {a0}, Keeps z (shortStart a0 s) :=
  keeps_ite (raise_keeps (onDrv_keeps (onChan_keeps h))) h

theorem shortSeen_keeps (h : Keeps z s) : ∀ {a0 a1}, Keeps z (shortSeen a0 a1 s) :=
  keeps_ite (onChan_keeps h) (shortStart_keeps h)

theorem monitorChan_keeps (h : Keeps z s) : ∀ {a0 a1 a2}, Keeps z (monitorChan a0 a1 a2 s) := by
  intros
  unfold monitorChan
  extract_lets -merge -useContext -underBinder +onlyGivenNames x0 x1 x2 x3 x4 s5
  have hs5 : Keeps z s5 := onChan_keeps h
  clear_value s5
  exact keeps_ite (shortSeen_keeps hs5) hs5

theorem onLink_keeps (h : Keeps z s) : ∀ {a0 a1}, Keeps z (onLink a0 a1 s) :=
  onDrv_keeps h

theorem monitorFrame_keeps (h : Keeps z s) : ∀ {a0 a1}, Keeps z (monitorFrame a0 a1 s) := by
  intros
  unfold monitorFrame
  extract_lets -merge -useContext -underBinder +onlyGivenNames x0 s1
  have hs1 : Keeps z s1 := onLink_keeps h
  clear_value s1
  exact keeps_ite h (foldl_keeps hs1 fun t2 t2a ht2 => monitorChan_keeps ht2)

theorem onMod_keeps (h : Keeps z s) : ∀ {a0 a1}, Keeps z (onMod a0 a1 s) :=
  onLio_keeps h

theorem dmirStart_keeps (h : Keeps z s) : ∀ {a0}, Keeps z (dmirStart a0 s) :=
  onMod_keeps (onLink_keeps h)

theorem runStart_keeps (h : Keeps z s) : ∀ {a0}, Keeps z (runStart a0 s) := by
  intros
  unfold runStart
  extract_lets -merge -useContext -underBinder +onlyGivenNames x0 x1 s2 s3 s4
  have hs2 : Keeps z s2 := keeps_ite (drivePin_keeps h) h
  clear_value s2
  have hs3 : Keeps z s3 := onLio_keeps hs2
  clear_value s3
  have hs4 : Keeps z s4 := foldl_keeps hs3 fun t5 t5a ht5 => dmirStart_keeps ht5
  clear_value s4
  exact foldl_keeps hs4 fun t6 t6a ht6 => answerOk_keeps ht6

theorem restartTimers_keeps (h : Keeps z s) : ∀ {a0}, Keeps z (restartTimers a0 s) :=
  foldl_keeps h fun t0 t0a ht0 => onChan_keeps ht0

theorem execThermalUpdate_keeps (h : Keeps z s) : OutKeeps z (execThermalUpdate s) := by
  unfold execThermalUpdate
  extract_lets -merge -useContext -underBinder +onlyGivenNames x0
  exact out_ite (out_next (foldl_keeps (onDrv_keeps h) fun t1 t1a ht1 => thermChan_keeps ht1)) (out_next h)

theorem muteAnswer_keeps (h : Keeps z s) : ∀ {a0 a1}, Keeps z (muteAnswer a0 a1 s) :=
  foldl_keeps h fun t0 t0a ht0 => answerOk_keeps ht0

theorem calNote_keeps (h : Keeps z s) : ∀ {a0}, Keeps z (calNote a0 s) := by
  intros
  unfold calNote
  extract_lets -merge -useContext -underBinder +onlyGivenNames x0
  exact keeps_ite (keeps_ite (endCond_keeps (onChan_keeps h)) h) (keeps_ite (raise_keeps (onChan_keeps h)) h)

theorem muteStep_keeps (h : Keeps z s) : ∀ {a0 a1}, Keeps z (muteStep a0 a1 s) := by
  intros
  unfold muteStep
  extract_lets -merge -useContext -underBinder +onlyGivenNames x0
  split
  all_goals first
    | exact keeps_ite (muteAnswer_keeps (onChan_keeps h)) h
    | exact h

theorem linkTick_keeps (h : Keeps z s) : ∀ {a0 a1}, Keeps z (linkTick a0 a1 s) := by
  intros
  unfold linkTick
  extract_lets -merge -useContext -underBinder +onlyGivenNames s0 x1 s2 s3
  have hs0 : Keeps z s0 := onLink_keeps h
  clear_value s0
  have hs2 : Keeps z s2 := foldl_keeps hs0 fun t4 t4a ht4 => calNote_keeps (muteStep_keeps ht4)
  clear_value s2
  have hs3 : Keeps z s3 := foldl_keeps hs2 fun t5 t5a ht5 => onChan_keeps ht5
  clear_value s3
  exact onLink_keeps hs3

theorem ctlReply_keeps (h : Keeps z s) : ∀ {a0 a1}, Keeps z (ctlReply a0 a1 s) := by
  intros
  unfold ctlReply
  split
  all_goals first
    | exact h
    | skip
      extract_lets -merge -useContext -underBinder +onlyGivenNames x0 x1 s2 x3
      have hs2 : Keeps z s2 := onLink_keeps h
      clear_value s2
      refine keeps_ite ?_ h
      refine keeps_ite (onLink_keeps hs2) ?_
      split
      all_goals first
        | exact hs2
        | skip
          extract_lets -merge -useContext -underBinder +onlyGivenNames x4
          have hx4 : ∀ x4a0, Keeps z x4a0 → Keeps z (x4 x4a0) := by
            intro x4a0 hx4a0
            unfold x4
            beta_reduce
            exact onLink_keeps hx4a0
          clear_value x4
          exact keeps_ite (answerOk_keeps hs2) (keeps_ite (answerFail_keeps (hx4 _ hs2)) (keeps_ite (answerFail_keeps (hx4 _ hs2)) (keeps_ite (keeps_ite (onLink_keeps hs2) (answerOk_keeps (hx4 _ hs2))) (answerOk_keeps hs2))))

theorem linkUpNow_keeps (h : Keeps z s) : ∀ {a0}, Keeps z (linkUpNow a0 s) := by
  intros
  unfold linkUpNow
  extract_lets -merge -useContext -underBinder +onlyGivenNames s0 s1
  have hs0 : Keeps z s0 := endCond_keeps (onLink_keeps h)
  clear_value s0
  have hs1 : Keeps z s1 := keeps_ite hs0 (dmirStart_keeps hs0)
  clear_value s1
  exact foldl_keeps hs1 fun t2 t2a ht2 => onChan_keeps ht2

theorem upstreamFrame_keeps (h : Keeps z s) : ∀ {a0 a1 a2}, Keeps z (upstreamFrame a0 a1 a2 s) := by
  intros
  unfold upstreamFrame
  extract_lets -merge -useContext -underBinder +onlyGivenNames x0 s1 s2 s3
  have hs1 : Keeps z s1 := onLink_keeps h
  clear_value s1
  have hs2 : Keeps z s2 := keeps_ite (linkUpNow_keeps hs1) hs1
  clear_value s2
  have hs3 : Keeps z s3 := ctlReply_keeps hs2
  clear_value s3
  exact keeps_ite (monitorFrame_keeps hs3) (onLink_keeps h)

theorem censusEnd_keeps (h : Keeps z s) : Keeps z (censusEnd s) := by
  unfold censusEnd
  extract_lets -merge -useContext -underBinder +onlyGivenNames x0 s1
  have hs1 : Keeps z s1 := onLio_keeps h
  clear_value s1
  exact keeps_ite (keeps_ite hs1 (runStart_keeps hs1)) h

theorem dmirStop_keeps (h : Keeps z s) : ∀ {a0 a1}, Keeps z (dmirStop a0 a1 s) := by
  intros
  unfold dmirStop
  extract_lets -merge -useContext -underBinder +onlyGivenNames s0 s1
  have hs0 : Keeps z s0 := onLink_keeps h
  clear_value s0
  have hs1 : Keeps z s1 := onMod_keeps hs0
  clear_value s1
  exact keeps_ite (censusEnd_keeps (onLio_keeps hs1)) h

theorem linksIdle_keeps (h : Keeps z s) : Keeps z (linksIdle s) :=
  foldl_keeps (onDrv_keeps h) fun t0 t0a ht0 => onLink_keeps ht0

theorem execChannelResume_keeps (h : Keeps z s) : ∀ {a0}, OutKeeps z (execChannelResume a0 s) := by
  intros
  unfold execChannelResume
  extract_lets -merge -useContext -underBinder +onlyGivenNames x0 x1 x2 x3 s4
  have hs4 : Keeps z s4 := by
    unfold s4
    split
    all_goals first
      | exact keeps_ite (onChan_keeps h) h
      | exact h
  clear_value s4
  split
  all_goals first
    | exact out_ite (out_next (muteAnswer_keeps (onChan_keeps hs4))) (out_next hs4)
    | exact out_next hs4

theorem loadChecks_keeps (h : Keeps z s) : ∀ {a0 a1}, Keeps z (loadChecks a0 a1 s) := by
  intros
  unfold loadChecks
  extract_lets -merge -useContext -underBinder +onlyGivenNames x0 x1 x2 x3 s4 s5 x6 x7 x8
  have hs4 : Keeps z s4 := keeps_ite (shortStart_keeps h) h
  clear_value s4
  have hs5 : Keeps z s5 := keeps_ite (raise_keeps (onChan_keeps hs4)) (keeps_ite (endCond_keeps (onChan_keeps hs4)) hs4)
  clear_value s5
  exact keeps_ite (keeps_ite (raise_keeps (onChan_keeps hs5)) (onChan_keeps hs5)) hs5

theorem measStep_keeps (h : Keeps z s) : ∀ {a0 a1 a2}, Keeps z (measStep a0 a1 a2 s) := by
  intros
  unfold measStep
  extract_lets -merge -useContext -underBinder +onlyGivenNames x0 x1 x2 x3 x4 s5 s6
  have hs5 : Keeps z s5 := onChan_keeps h
  clear_value s5
  have hs6 : Keeps z s6 := keeps_ite (raise_keeps hs5) hs5
  clear_value s6
  exact keeps_ite (raise_keeps hs6) (keeps_ite hs6 (endCond_keeps hs6))

theorem takeReading_keeps (h : Keeps z s) : ∀ {a0 a1}, Keeps z (takeReading a0 a1 s) := by
  intros
  unfold takeReading
  extract_lets -merge -useContext -underBinder +onlyGivenNames x0 x1 x2 x3 x4 s5 s6
  have hs5 : Keeps z s5 := onChan_keeps (mk_free h)
  clear_value s5
  have hs6 : Keeps z s6 := by
    unfold s6
    split
    all_goals first
      | exact measStep_keeps hs5
      | exact hs5
  clear_value s6
  exact loadChecks_keeps hs6

theorem calDrop_keeps (h : Keeps z s) : ∀ {a0}, Keeps z (calDrop a0 s) :=
  foldl_keeps h fun t0 t0a ht0 => onChan_keeps ht0

theorem execCtlTimeout_keeps (h : Keeps z s) : ∀ {a0}, OutKeeps z (execCtlTimeout a0 s) := by
  intros
  unfold execCtlTimeout
  extract_lets -merge -useContext -underBinder +onlyGivenNames x0
  split
  all_goals first
    | exact out_next h
    | skip
      extract_lets -merge -useContext -underBinder +onlyGivenNames s1 s2 s3
      have hs1 : Keeps z s1 := onLink_keeps h
      clear_value s1
      have hs2 : Keeps z s2 := keeps_ite (onLio_keeps (onMod_keeps (calDrop_keeps (dmirStop_keeps hs1)))) hs1
      clear_value s2
      have hs3 : Keeps z s3 := raise_keeps (onDrv_keeps hs2)
      clear_value s3
      exact out_ite (out_next (keeps_ite (answerFail_keeps hs3) hs3)) (out_next h)

theorem driveTick_keeps (h : Keeps z s) : ∀ {a0}, Keeps z (driveTick a0 s) := by
  intros
  unfold driveTick
  extract_lets -merge -useContext -underBinder +onlyGivenNames s0
  have hs0 : Keeps z s0 := keeps_ite h (foldl_keeps h fun t1 t1a ht1 => dmirStart_keeps ht1)
  clear_value s0
  exact keeps_ite (foldl_keeps (onDrv_keeps hs0) fun t2 t2a ht2 => linkTick_keeps ht2) h

theorem execPilotWindowEnd_keeps (h : Keeps z s) : ∀ {a0 a1 a2 a3 a4}, OutKeeps z (execPilotWindowEnd a0 a1 a2 a3 a4 s) := by
  intros
  unfold execPilotWindowEnd
  extract_lets -merge -useContext -underBinder +onlyGivenNames x0 x1 x2 s3
  have hs3 : Keeps z s3 := pilotNextWindow_keeps (onChan_keeps h)
  clear_value s3
  exact out_ite (out_ite (out_next (pilotNextWindow_keeps (takeReading_keeps (onChan_keeps h)))) (out_next (keeps_ite (raise_keeps hs3) hs3))) (out_next h)

theorem linkOff_keeps (h : Keeps z s) : ∀ {a0}, Keeps z (linkOff a0 s) :=
  calDrop_keeps (dmirStop_keeps (onLink_keeps h))

theorem probeStart_keeps (h : Keeps z s) : ∀ {a0}, Keeps z (probeStart a0 s) :=
  onChan_keeps h

theorem execShortProbeEnd_keeps (h : Keeps z s) : ∀ {a0 a1 a2}, OutKeeps z (execShortProbeEnd a0 a1 a2 s) := by
  intros
  unfold execShortProbeEnd
  extract_lets -merge -useContext -underBinder +onlyGivenNames x0 x1 x2 x3 x4 x5 x6
  exact out_ite (out_next (probeEnd_keeps (keeps_ite (takeReading_keeps h) (onChan_keeps h)))) (out_next h)

theorem execLinkLoss_keeps (h : Keeps z s) : ∀ {a0}, OutKeeps z (execLinkLoss a0 s) := by
  intros
  unfold execLinkLoss
  extract_lets -merge -useContext -underBinder +onlyGivenNames x0 s1
  have hs1 : Keeps z s1 := linkOff_keeps (onLink_keeps h)
  clear_value s1
  exact out_ite (out_next (raise_keeps (onDrv_keeps hs1))) (out_next h)

theorem execShortProbeStart_keeps (h : Keeps z s) : ∀ {a0}, OutKeeps z (execShortProbeStart a0 s) :=
  out_next (keeps_ite (probeStart_keeps h) h)

/-! ### Stage -/

theorem onStage_keeps (h : Keeps z s) : ∀ {a0 a1}, Keeps z (onStage a0 a1 s) :=
  onDrv_keeps h

theorem execStageCurrentLimit_keeps (h : Keeps z s) : ∀ {a0 a1}, OutKeeps z (execStageCurrentLimit a0 a1 s) :=
  out_next (onStage_keeps h)

theorem execStageFrameMissing_keeps (h : Keeps z s) : ∀ {a0 a1}, OutKeeps z (execStageFrameMissing a0 a1 s) :=
  out_next (onStage_keeps h)

theorem execStageUpstreamSend_keeps (h : Keeps z s) : ∀ {a0 a1 a2 a3 a4 a5}, OutKeeps z (execStageUpstreamSend a0 a1 a2 a3 a4 a5 s) :=
  out_next (onStage_keeps h)

theorem execStageDownstreamFrame_keeps (h : Keeps z s) : ∀ {a0 a1 a2}, OutKeeps z (execStageDownstreamFrame a0 a1 a2 s) := by
  intros
  unfold execStageDownstreamFrame
  extract_lets -merge -useContext -underBinder +onlyGivenNames x0 x1 x2
  exact out_ite (out_next (onStage_keeps (mk_free h))) (out_next (onStage_keeps h))

theorem execStageMuteNoInput_keeps (h : Keeps z s) : ∀ {a0}, OutKeeps z (execStageMuteNoInput a0 s) :=
  out_next (keeps_ite (onStage_keeps h) h)

/-! ### Streams -/

theorem onPort_keeps (h : Keeps z s) : ∀ {a0 a1}, Keeps z (onPort a0 a1 s) :=
  onNet_keeps h

theorem countPort_keeps (h : Keeps z s) : ∀ {a0 a1 a2}, Keeps z (countPort a0 a1 a2 s) :=
  onPort_keeps h

theorem macsecSend_keeps (h : Keeps z s) : ∀ {a0 a1}, Keeps z (macsecSend a0 a1 s).1 := by
  intros
  unfold macsecSend
  extract_lets -merge -useContext -underBinder +onlyGivenNames x0 x1 x2 x3 s4
  have hs4 : Keeps z s4 := onPort_keeps h
  clear_value s4
  exact keeps_ite_1 h (keeps_ite_1 (countPort_keeps h) (keeps_ite_1 (raise_keeps (onPort_keeps hs4)) hs4))

theorem onTx_keeps (h : Keeps z s) : ∀ {a0 a1}, Keeps z (onTx a0 a1 s) :=
  onNet_keeps h

theorem txBegin_keeps (h : Keeps z s) : ∀ {a0 a1}, Keeps z (txBegin a0 a1 s) := by
  intros
  unfold txBegin
  extract_lets -merge -useContext -underBinder +onlyGivenNames x0
  have hx0 : Keeps z x0.1 := macsecSend_keeps h
  clear_value x0
  split
  all_goals first
    | skip
      extract_lets -merge -useContext -underBinder +onlyGivenNames x1 s2
      have hs2 : Keeps z s2 := countPort_keeps (countPort_keeps (countPort_keeps hx0))
      clear_value s2
      exact onTx_keeps (onPort_keeps hs2)
    | exact hx0

theorem txDrain_keeps (h : Keeps z s) : ∀ {a0}, Keeps z (txDrain a0 s) := by
  intros
  unfold txDrain
  extract_lets -merge -useContext -underBinder +onlyGivenNames x0
  exact keeps_ite (foldl_keeps (onPort_keeps h) fun t1 t1a ht1 => txBegin_keeps ht1) h

theorem onRx_keeps (h : Keeps z s) : ∀ {a0 a1}, Keeps z (onRx a0 a1 s) :=
  onNet_keeps h

theorem rxTick_keeps (h : Keeps z s) : ∀ {a0 a1}, Keeps z (rxTick a0 a1 s) := by
  intros
  unfold rxTick
  extract_lets -merge -useContext -underBinder +onlyGivenNames x0 x1 x2 x3 s4
  have hs4 : Keeps z s4 := onRx_keeps h
  clear_value s4
  exact keeps_ite h (foldl_keeps hs4 fun t5 t5a ht5 => onSig_keeps ht5)

theorem rxTicks_keeps (h : Keeps z s) : ∀ {a0}, Keeps z (rxTicks a0 s) :=
  foldl_keeps h fun t0 t0a ht0 => rxTick_keeps ht0

theorem fwSend_keeps (h : Keeps z s) : ∀ {a0 a1 a2}, Keeps z (fwSend a0 a1 a2 s) :=
  keeps_ite (onPort_keeps h) h

theorem igmpReport_keeps (h : Keeps z s) : ∀ {a0 a1}, Keeps z (igmpReport a0 a1 s) := by
  intros
  unfold igmpReport
  extract_lets -merge -useContext -underBinder +onlyGivenNames x0
  exact keeps_ite h (fwSend_keeps h)

theorem membersTell_keeps (h : Keeps z s) : ∀ {s0}, Keeps z (membersTell s0 s) :=
  foldl_keeps h fun t0 t0a ht0 => igmpReport_keeps ht0

theorem execStreamPacketQueue_keeps (h : Keeps z s) : ∀ {a0}, OutKeeps z (execStreamPacketQueue a0 s) := by
  intros
  unfold execStreamPacketQueue
  extract_lets -merge -useContext -underBinder +onlyGivenNames x0 x1
  split
  all_goals first
    | exact out_next h
    | skip
      extract_lets -merge -useContext -underBinder +onlyGivenNames s2 x3
      have hs2 : Keeps z s2 := onTx_keeps h
      clear_value s2
      exact out_ite (out_next (foldl_keeps hs2 fun t4 t4a ht4 => txDrain_keeps (onPort_keeps ht4))) (out_next hs2)

theorem txTick_keeps (h : Keeps z s) : ∀ {a0 a1}, Keeps z (txTick a0 a1 s) := by
  intros
  unfold txTick
  extract_lets -merge -useContext -underBinder +onlyGivenNames x0 x1 x2 x3
  exact keeps_ite (onTx_keeps h) h

theorem streamsClose_keeps (h : Keeps z s) : Keeps z (streamsClose s) := by
  unfold streamsClose
  extract_lets -merge -useContext -underBinder +onlyGivenNames s0 s1 s2
  have hs0 : Keeps z s0 := h
  have hs1 : Keeps z s1 := foldl_keeps hs0 fun t3 t3a ht3 => endCond_keeps ht3
  clear_value s1
  have hs2 : Keeps z s2 := onNet_keeps hs1
  clear_value s2
  exact raise_keeps (onSig_keeps (membersTell_keeps hs2))

theorem txTicks_keeps (h : Keeps z s) : ∀ {a0}, Keeps z (txTicks a0 s) :=
  foldl_keeps h fun t0 t0a ht0 => txTick_keeps ht0

theorem streamsStep_keeps (h : Keeps z s) : ∀ {a0}, Keeps z (streamsStep a0 s) := by
  intros
  unfold streamsStep
  extract_lets -merge -useContext -underBinder +onlyGivenNames s0
  have hs0 : Keeps z s0 := foldl_keeps h fun t1 t1a ht1 => onRx_keeps ht1
  clear_value s0
  exact foldl_keeps hs0 fun t2 t2a ht2 => onTx_keeps ht2

theorem execStreamPacketStale_keeps (h : Keeps z s) : ∀ {a0}, OutKeeps z (execStreamPacketStale a0 s) := by
  intros
  unfold execStreamPacketStale
  extract_lets -merge -useContext -underBinder +onlyGivenNames x0 x1 s2
  have hs2 : Keeps z s2 := onPort_keeps h
  clear_value s2
  exact out_next (foldl_keeps hs2 fun t3 t3a ht3 => onTx_keeps ht3)

theorem rxSilence_keeps (h : Keeps z s) : ∀ {a0}, Keeps z (rxSilence a0 s) :=
  foldl_keeps h fun t0 t0a ht0 => onSig_keeps ht0

theorem stickPort_keeps (h : Keeps z s) : ∀ {a0 a1}, Keeps z (stickPort a0 a1 s) :=
  onPort_keeps h

theorem execStreamLoss_keeps (h : Keeps z s) : ∀ {a0}, OutKeeps z (execStreamLoss a0 s) := by
  intros
  unfold execStreamLoss
  extract_lets -merge -useContext -underBinder +onlyGivenNames x0 x1
  exact out_ite (out_next (raise_keeps (rxSilence_keeps (onRx_keeps h)))) (out_next h)

end Sys2Proof.Laws
end

