-- ==== Sys2Proof/Laws/KeepsWaves.lean ====
section
/-! SUPPORT. Every operation keeps the canonical form of the byte memory and leaves the queue alone:
Lanes, launches, levels, plans, the pair and the rings. -/

namespace Sys2Proof.Laws

open Sys2Proof Sys2Proof.Machine

variable {z s : State}

/-! ### LaneMem -/

theorem execLda_keeps (h : Keeps z s) : ∀ {a0 a1 a2 a3 a4}, OutKeeps z (execLda a0 a1 a2 a3 a4 s) :=
  out_next (issue_keeps h)

theorem execAadd_keeps (h : Keeps z s) : ∀ {a0 a1 a2 a3}, OutKeeps z (execAadd a0 a1 a2 a3 s) :=
  out_next (issue_keeps h)

theorem execAmod_keeps (h : Keeps z s) : ∀ {a0 a1 a2}, OutKeeps z (execAmod a0 a1 a2 s) :=
  out_next (issue_keeps h)

theorem execSt_keeps (h : Keeps z s) : ∀ {a0 a1 a2 a3 a4}, OutKeeps z (execSt a0 a1 a2 a3 a4 s) :=
  out_next (issue_keeps h)

theorem execMvtc_keeps (h : Keeps z s) : ∀ {a0 a1 a2 a3}, OutKeeps z (execMvtc a0 a1 a2 a3 s) :=
  out_next (issue_keeps h)

theorem execMvfa_keeps (h : Keeps z s) : ∀ {a0 a1 a2 a3 a4}, OutKeeps z (execMvfa a0 a1 a2 a3 a4 s) :=
  out_next (issue_keeps h)

theorem execMvta_keeps (h : Keeps z s) : ∀ {a0 a1 a2 a3 a4}, OutKeeps z (execMvta a0 a1 a2 a3 a4 s) :=
  out_next (issue_keeps h)

theorem execLd_keeps (h : Keeps z s) : ∀ {a0 a1 a2 a3 a4}, OutKeeps z (execLd a0 a1 a2 a3 a4 s) :=
  out_next (issue_keeps h)

theorem execMvfc_keeps (h : Keeps z s) : ∀ {a0 a1 a2 a3}, OutKeeps z (execMvfc a0 a1 a2 a3 s) :=
  out_next (issue_keeps h)

/-! ### LaneCtl -/

theorem execSosGroupComplete_keeps (h : Keeps z s) : ∀ {a0 a1 a2}, OutKeeps z (execSosGroupComplete a0 a1 a2 s) := by
  intros
  unfold execSosGroupComplete
  extract_lets -merge -useContext -underBinder +onlyGivenNames x0
  split
  all_goals first
    | exact out_next h
    | skip
      extract_lets -merge -useContext -underBinder +onlyGivenNames x1 x2
      exact out_ite (out_ite (out_next (laneDed_keeps h)) (out_next (onLane_keeps h))) (out_next h)

theorem execHalt_keeps (h : Keeps z s) : ∀ {a0 a1}, OutKeeps z (execHalt a0 a1 s) :=
  out_next (issue_keeps h)

theorem execJr_keeps (h : Keeps z s) : ∀ {a0 a1 a2 a3}, OutKeeps z (execJr a0 a1 a2 a3 s) :=
  out_next (issue_keeps h)

theorem execRep_keeps (h : Keeps z s) : ∀ {a0 a1 a2 a3}, OutKeeps z (execRep a0 a1 a2 a3 s) :=
  out_next (issue_keeps h)

theorem execSoswait_keeps (h : Keeps z s) : ∀ {a0 a1 a2}, OutKeeps z (execSoswait a0 a1 a2 s) :=
  out_next (issue_keeps h)

theorem execRete_keeps (h : Keeps z s) : ∀ {a0 a1}, OutKeeps z (execRete a0 a1 s) :=
  out_next (issue_keeps h)

theorem execCall_keeps (h : Keeps z s) : ∀ {a0 a1 a2 a3 a4}, OutKeeps z (execCall a0 a1 a2 a3 a4 s) :=
  out_next (issue_keeps h)

theorem execBudgetOverrun_keeps (h : Keeps z s) : ∀ {a0}, OutKeeps z (execBudgetOverrun a0 s) := by
  intros
  unfold execBudgetOverrun
  extract_lets -merge -useContext -underBinder +onlyGivenNames x0
  exact out_ite (out_next (laneStop_keeps h)) (out_next h)

theorem execLoop_keeps (h : Keeps z s) : ∀ {a0 a1 a2 a3}, OutKeeps z (execLoop a0 a1 a2 a3 s) :=
  out_next (issue_keeps h)

theorem execSosrun_keeps (h : Keeps z s) : ∀ {a0 a1 a2}, OutKeeps z (execSosrun a0 a1 a2 s) :=
  out_next (issue_keeps h)

theorem handOut_keeps (h : Keeps z s) : ∀ {a0}, Keeps z (handOut a0 s) := by
  intros
  unfold handOut
  split
  all_goals first
    | exact h
    | skip
      extract_lets -merge -useContext -underBinder +onlyGivenNames x0
      refine keeps_ite h ?_
      refine foldl_keeps h (fun t1 t1a ht1 => ?_)
      extract_lets -merge -useContext -underBinder +onlyGivenNames x2
      exact produce_keeps ht1

theorem execJ_keeps (h : Keeps z s) : ∀ {a0 a1 a2 a3}, OutKeeps z (execJ a0 a1 a2 a3 s) :=
  out_next (issue_keeps h)

theorem execNop_keeps (h : Keeps z s) : ∀ {a0 a1}, OutKeeps z (execNop a0 a1 s) :=
  out_next (issue_keeps h)

theorem execIllegalOp_keeps (h : Keeps z s) : ∀ {a0 a1 a2}, OutKeeps z (execIllegalOp a0 a1 a2 s) :=
  out_next (keeps_ite h (issue_keeps h))

theorem execLaneEventTake_keeps (h : Keeps z s) : ∀ {a0}, OutKeeps z (execLaneEventTake a0 s) := by
  intros
  unfold execLaneEventTake
  extract_lets -merge -useContext -underBinder +onlyGivenNames s0 x1
  have hs0 : Keeps z s0 := laneSee_keeps (onLane_keeps h)
  clear_value s0
  refine out_ite ?_ (out_next h)
  split
  all_goals first
    | exact out_next (onLane_keeps hs0)
    | exact out_next hs0

theorem execLaneWaveComplete_keeps (h : Keeps z s) : ∀ {a0}, OutKeeps z (execLaneWaveComplete a0 s) := by
  intros
  unfold execLaneWaveComplete
  extract_lets -merge -useContext -underBinder +onlyGivenNames x0 x1 s2
  have hs2 : Keeps z s2 := handOut_keeps (onLane_keeps h)
  clear_value s2
  exact out_ite (out_next (keeps_ite (raise_keeps hs2) hs2)) (out_next h)

theorem execLpop_keeps (h : Keeps z s) : ∀ {a0 a1}, OutKeeps z (execLpop a0 a1 s) :=
  out_next (issue_keeps h)

/-! ### Launch -/

theorem pushLine_keeps (h : Keeps z s) : ∀ {a0 a1 a2}, Keeps z (pushLine a0 a1 a2 s) :=
  keeps_ite h (onSig_keeps h)

theorem loadRow_keeps (h : Keeps z s) : ∀ {a0 a1}, Keeps z (loadRow a0 a1 s) := by
  intros
  unfold loadRow
  split
  all_goals first
    | exact h
    | skip
      extract_lets -merge -useContext -underBinder +onlyGivenNames x0 x1 x2
      exact pushLine_keeps (onSig_keeps h)

theorem pushDelays_keeps (h : Keeps z s) : Keeps z (pushDelays s) := by
  unfold pushDelays
  split
  all_goals first
    | exact h
    | skip
      extract_lets -merge -useContext -underBinder +onlyGivenNames s0
      have hs0 : Keeps z s0 := foldl_keeps h fun t1 t1a ht1 => pushLine_keeps ht1
      clear_value s0
      split
      all_goals first
        | exact hs0
        | skip
          extract_lets -merge -useContext -underBinder +onlyGivenNames x2 s3
          have hs3 : Keeps z s3 := foldl_keeps hs0 fun t4 t4a ht4 => pushLine_keeps ht4
          clear_value s3
          refine keeps_ite ?_ hs0
          refine foldl_keeps hs3 (fun t5 t5a ht5 => ?_)
          split
          all_goals first
            | exact pushLine_keeps ht5
            | exact ht5

theorem launchDelay_keeps (h : Keeps z s) : ∀ {a0}, Keeps z (launchDelay a0 s) := by
  intros
  unfold launchDelay
  extract_lets -merge -useContext -underBinder +onlyGivenNames x0 x1 x2
  split
  all_goals first
    | exact onLane_keeps h
    | skip
      extract_lets -merge -useContext -underBinder +onlyGivenNames x3 x4 x5 x6 s7
      have hs7 : Keeps z s7 := onLane_keeps h
      clear_value s7
      exact keeps_ite (onLane_keeps h) (keeps_ite (onPlan_keeps hs7) hs7)

theorem launchDelays_keeps (h : Keeps z s) : Keeps z (launchDelays s) := by
  unfold launchDelays
  split
  all_goals first
    | exact foldl_keeps h fun t0 t0a ht0 => launchDelay_keeps ht0
    | exact h

theorem launchWork_keeps (h : Keeps z s) : ∀ {s0 a1 a2 a3 a4}, Keeps z (launchWork s0 a1 a2 a3 a4 s) := by
  intros
  unfold launchWork
  extract_lets -merge -useContext -underBinder +onlyGivenNames x0
  have hx0 : ∀ x0a0 x0a1, Keeps z (x0 x0a0 x0a1) := by
    intro x0a0 x0a1
    unfold x0
    beta_reduce
    split
    all_goals first
      | exact h
      | skip
        extract_lets -merge -useContext -underBinder +onlyGivenNames x1 x2
        exact onLane_keeps h
  clear_value x0
  refine keeps_ite ?_ ?_
  · split
    all_goals first
      | exact hx0 _ _
      | exact h
  · split
    all_goals first
      | exact hx0 _ _
      | exact h

theorem pushAligns_keeps (h : Keeps z s) : ∀ {s0 a1 a2}, Keeps z (pushAligns s0 a1 a2 s) :=
  foldl_keeps h fun t0 t0a ht0 => pushLine_keeps ht0

theorem launchLanes_keeps (h : Keeps z s) : ∀ {a0 a1}, Keeps z (launchLanes a0 a1 s) := by
  intros
  unfold launchLanes
  extract_lets -merge -useContext -underBinder +onlyGivenNames s0 x1 s2 s3 s4
  have hs0 : Keeps z s0 := h
  have hs2 : Keeps z s2 := foldl_keeps h fun t5 t5a ht5 => launchWork_keeps ht5
  clear_value s2
  have hs3 : Keeps z s3 := by
    unfold s3
    split
    all_goals first
      | exact pushAligns_keeps hs2
      | exact hs2
  clear_value s3
  have hs4 : Keeps z s4 := by
    unfold s4
    split
    all_goals first
      | exact keeps_ite (pushAligns_keeps hs3) hs3
      | exact hs3
  clear_value s4
  exact foldl_keeps hs4 fun t6 t6a ht6 => keeps_ite (onLane_keeps ht6) (launchWork_keeps ht6)

theorem loadRows_keeps (h : Keeps z s) : Keeps z (loadRows s) := by
  unfold loadRows
  extract_lets -merge -useContext -underBinder +onlyGivenNames s0
  have hs0 : Keeps z s0 := onSig_keeps h
  clear_value s0
  split
  all_goals first
    | exact foldl_keeps hs0 fun t1 t1a ht1 => loadRow_keeps ht1
    | exact hs0

theorem unplacedZero_keeps (h : Keeps z s) : Keeps z (unplacedZero s) := by
  unfold unplacedZero
  split
  all_goals first
    | exact h
    | skip
      refine foldl_keeps h (fun t0 t0a ht0 => ?_)
      split
      all_goals first
        | exact foldl_keeps ht0 fun t1 t1a ht1 => produce_keeps ht1
        | exact ht0

theorem loadWave_keeps (h : Keeps z s) : ∀ {a0 a1}, Keeps z (loadWave a0 a1 s) := by
  intros
  unfold loadWave
  extract_lets -merge -useContext -underBinder +onlyGivenNames s0
  have hs0 : Keeps z s0 := loadRows_keeps (launchDelays_keeps h)
  clear_value s0
  exact unplacedZero_keeps (launchLanes_keeps (pushDelays_keeps hs0))

theorem outsideWrite_keeps (h : Keeps z s) : ∀ {a0 a1}, Keeps z (outsideWrite a0 a1 s) :=
  foldl_keeps h fun t0 t0a ht0 => onLane_keeps ht0

theorem priorityNext_keeps (h : Keeps z s) : ∀ {a0}, Keeps z (priorityNext a0 s) := by
  intros
  unfold priorityNext
  split
  all_goals first
    | exact h
    | exact foldl_keeps h fun t0 t0a ht0 => foldl_keeps ht0 fun t1 t1a ht1 => onLane_keeps ht1

theorem handSink_keeps (h : Keeps z s) : ∀ {a0 a1}, Keeps z (handSink a0 a1 s) := by
  intros
  unfold handSink
  extract_lets -merge -useContext -underBinder +onlyGivenNames x0 x1 x2 x3 x4
  exact pushLine_keeps (onSig_keeps h)

theorem handSinks_keeps (h : Keeps z s) : Keeps z (handSinks s) := by
  unfold handSinks
  extract_lets -merge -useContext -underBinder +onlyGivenNames s0
  have hs0 : Keeps z s0 := onSig_keeps h
  clear_value s0
  split
  all_goals first
    | exact foldl_keeps hs0 fun t1 t1a ht1 => handSink_keeps ht1
    | exact hs0

/-! ### Pri -/

theorem sceneApply_keeps (h : Keeps z s) : ∀ {a0 a1}, Keeps z (sceneApply a0 a1 s) := by
  intros
  unfold sceneApply
  extract_lets -merge -useContext -underBinder +onlyGivenNames x0 x1
  exact keeps_ite (foldl_keeps h fun t2 t2a ht2 => applyEntry_keeps (noteUndo_keeps ht2)) (onXp_keeps h)

theorem commitRun_keeps (h : Keeps z s) : ∀ {a0}, Keeps z (commitRun a0 s) := by
  intros
  unfold commitRun
  extract_lets -merge -useContext -underBinder +onlyGivenNames x0 s1
  have hs1 : Keeps z s1 := sceneApply_keeps (onXp_keeps h)
  clear_value s1
  split
  all_goals first
    | exact keeps_ite (onXp_keeps hs1) hs1
    | exact hs1

theorem priWakeUp_keeps (h : Keeps z s) : ∀ {a0 a1}, Keeps z (priWakeUp a0 a1 s) := by
  intros
  unfold priWakeUp
  refine keeps_ite ?_ h
  split
  all_goals exact onClk_keeps h

theorem priRead_keeps (h : Keeps z s) : ∀ {a0 a1 a2}, Keeps z (priRead a0 a1 a2 s) := by
  intros
  unfold priRead
  extract_lets -merge -useContext -underBinder +onlyGivenNames x0 x1 s2 s3
  have hx1 : ∀ x1a0 x1a1, Keeps z x1a1 → Keeps z (x1 x1a0 x1a1) := by
    intro x1a0 x1a1 hx1a1
    unfold x1
    beta_reduce
    exact onXp_keeps hx1a1
  clear_value x1
  have hs2 : Keeps z s2 := hx1 _ _ h
  clear_value s2
  have hs3 : Keeps z s3 := keeps_ite (endCond_keeps hs2) hs2
  clear_value s3
  exact keeps_ite (hx1 _ _ h) (keeps_ite (keeps_ite (keeps_ite (priWakeUp_keeps hs3) hs3) (hx1 _ _ h)) (hx1 _ _ h))

theorem execPriBroken_keeps (h : Keeps z s) : ∀ {a0}, OutKeeps z (execPriBroken a0 s) := by
  intros
  unfold execPriBroken
  extract_lets -merge -useContext -underBinder +onlyGivenNames x0 x1 s2 s3
  have hs2 : Keeps z s2 := onXp_keeps h
  clear_value s2
  have hs3 : Keeps z s3 := raise_keeps hs2
  clear_value s3
  exact out_ite (out_next (keeps_ite (priWakeUp_keeps hs3) hs3)) (out_next h)

theorem execSceneCommitRun_keeps (h : Keeps z s) : OutKeeps z (execSceneCommitRun s) := by
  unfold execSceneCommitRun
  split
  all_goals first
    | exact out_ite (out_next (commitRun_keeps h)) (out_next h)
    | exact out_next h

theorem bindAct_keeps (h : Keeps z s) : ∀ {a0}, Keeps z (bindAct a0 s) :=
  onXp_keeps h

theorem priReadAll_keeps (h : Keeps z s) : ∀ {a0 a1}, Keeps z (priReadAll a0 a1 s) :=
  foldl_keeps (bindAct_keeps h) fun t0 t0a ht0 => priRead_keeps ht0

theorem execPriReadingNoRate_keeps (h : Keeps z s) : ∀ {a0}, OutKeeps z (execPriReadingNoRate a0 s) := by
  intros
  unfold execPriReadingNoRate
  split
  all_goals first
    | exact out_next (priReadAll_keeps (onXp_keeps h))
    | exact out_next h

theorem levelChange_keeps (h : Keeps z s) : ∀ {a0}, Keeps z (levelChange a0 s) := by
  intros
  unfold levelChange
  extract_lets -merge -useContext -underBinder +onlyGivenNames x0 x1 s2 x3 x4 s5
  have hs2 : Keeps z s2 := onXp_keeps h
  clear_value s2
  have hs5 : Keeps z s5 := playLevels_keeps (setActive_keeps hs2)
  clear_value s5
  exact onXp_keeps hs5

theorem execOverlayLevelChange_keeps (h : Keeps z s) : OutKeeps z (execOverlayLevelChange s) := by
  unfold execOverlayLevelChange
  extract_lets -merge -useContext -underBinder +onlyGivenNames s0
  have hs0 : Keeps z s0 := levelChange_keeps h
  clear_value s0
  exact out_ite (out_next (priorityNext_keeps hs0)) (out_next h)

theorem commitsRun_keeps (h : Keeps z s) : Keeps z (commitsRun s) :=
  foldl_keeps h fun t0 t0a ht0 => commitRun_keeps ht0

theorem execOverlayTransitionTimeout_keeps (h : Keeps z s) : ∀ {a0}, OutKeeps z (execOverlayTransitionTimeout a0 s) := by
  intros
  unfold execOverlayTransitionTimeout
  split
  all_goals first
    | exact out_ite (out_next (applyTrans_keeps (onXp_keeps h))) (out_next h)
    | exact out_next h

theorem execXpTimeoutLog_keeps (h : Keeps z s) : ∀ {a0}, OutKeeps z (execXpTimeoutLog a0 s) := by
  intros
  unfold execXpTimeoutLog
  extract_lets -merge -useContext -underBinder +onlyGivenNames x0
  split
  all_goals first
    | exact out_ite (out_next (raise_keeps (onXp_keeps h))) (out_next h)
    | exact out_next h

theorem execXpEntryTimeout_keeps (h : Keeps z s) : ∀ {a0}, OutKeeps z (execXpEntryTimeout a0 s) := by
  intros
  unfold execXpEntryTimeout
  split
  all_goals first
    | exact out_ite (out_next (applyEntry_keeps (noteUndo_keeps h))) (out_next h)
    | exact out_next h

theorem xpReplies_keeps (h : Keeps z s) : Keeps z (xpReplies s) :=
  foldl_keeps (onXp_keeps h) fun t0 t0a ht0 => answerOk_keeps ht0

/-! ### PlanOps -/

theorem newEpoch_keeps (h : Keeps z s) : Keeps z (newEpoch s) := by
  unfold newEpoch
  extract_lets -merge -useContext -underBinder +onlyGivenNames x0 s1 s2 s3
  have hs1 : Keeps z s1 := onPlan_keeps h
  clear_value s1
  have hs2 : Keeps z s2 := onXp_keeps hs1
  clear_value s2
  have hs3 : Keeps z s3 := onHost_keeps hs2
  clear_value s3
  exact foldl_keeps hs3 fun t4 t4a ht4 => answerFail_keeps ht4

theorem unloadPlan_keeps (h : Keeps z s) : Keeps z (unloadPlan s) := by
  unfold unloadPlan
  extract_lets -merge -useContext -underBinder +onlyGivenNames x0 s1 s2 s3 s4 x5
  have hs1 : Keeps z s1 := playStopAll_keeps (abandonAll_keeps (newEpoch_keeps h))
  clear_value s1
  have hs2 : Keeps z s2 := onPlan_keeps hs1
  clear_value s2
  have hs3 : Keeps z s3 := endShortfall_keeps (onPlace_keeps hs2)
  clear_value s3
  have hs4 : Keeps z s4 := onXp_keeps hs3
  clear_value s4
  exact mk_sig_lanes hs4

theorem execPlanUnloadEffect_keeps (h : Keeps z s) : OutKeeps z (execPlanUnloadEffect s) := by
  unfold execPlanUnloadEffect
  split
  all_goals first
    | exact out_ite (out_next (unloadPlan_keeps h)) (out_next h)
    | exact out_next h

theorem latSet_keeps (h : Keeps z s) : ∀ {a0 a1}, Keeps z (latSet a0 a1 s) := by
  intros
  unfold latSet
  split
  all_goals first
    | exact h
    | skip
      extract_lets -merge -useContext -underBinder +onlyGivenNames x0
      exact keeps_ite h (raise_keeps (onPlan_keeps h))

theorem swapPublish_keeps (h : Keeps z s) : ∀ {a0}, Keeps z (swapPublish a0 s) := by
  intros
  unfold swapPublish
  split
  all_goals first
    | skip
      extract_lets -merge -useContext -underBinder +onlyGivenNames x0
      exact keeps_ite (latSet_keeps h) h
    | exact h

theorem restartEq_keeps (h : Keeps z s) : ∀ {a0}, Keeps z (restartEq a0 s) := by
  intros
  unfold restartEq
  split
  all_goals first
    | exact h
    | skip
      extract_lets -merge -useContext -underBinder +onlyGivenNames x0 s1 s2
      have hs1 : Keeps z s1 := onPlan_keeps h
      clear_value s1
      have hs2 : Keeps z s2 := onSig_keeps hs1
      clear_value s2
      exact raise_keeps (onWave_keeps hs2)

theorem bypassApply_keeps (h : Keeps z s) : ∀ {a0 a1}, Keeps z (bypassApply a0 a1 s) := by
  intros
  unfold bypassApply
  extract_lets -merge -useContext -underBinder +onlyGivenNames x0 s1
  have hs1 : Keeps z s1 := onPlan_keeps h
  clear_value s1
  refine keeps_ite ?_ (keeps_ite (restartEq_keeps hs1) hs1)
  split
  all_goals first
    | exact hs1
    | exact onWave_keeps (onPlan_keeps hs1)

theorem execEqPublishH_keeps (h : Keeps z s) : OutKeeps z (execEqPublishH s) := by
  unfold execEqPublishH
  split
  all_goals first
    | exact out_ite (out_next (latSet_keeps h)) (out_next h)
    | exact out_next h

theorem placeChain_keeps (h : Keeps z s) : ∀ {a0}, Keeps z (placeChain a0 s).1 := by
  intros
  unfold placeChain
  extract_lets -merge -useContext -underBinder +onlyGivenNames s0
  have hs0 : Keeps z s0 := onPlan_keeps h
  clear_value s0
  refine foldl_keeps_on Prod.fst ?_ (fun t1 t1a ht1 => ?_)
  · beta_reduce
    exact hs0
  · beta_reduce at ht1 ⊢
    exact placeOne_keeps ht1

theorem swapTable_keeps (h : Keeps z s) : ∀ {a0}, Keeps z (swapTable a0 s) := by
  intros
  unfold swapTable
  extract_lets -merge -useContext -underBinder +onlyGivenNames x0 x1 x2 s3
  have hs3 : Keeps z s3 := onPlan_keeps h
  clear_value s3
  exact keeps_ite hs3 (raise_keeps hs3)

theorem swapChain_keeps (h : Keeps z s) : ∀ {a0 a1}, Keeps z (swapChain a0 a1 s) := by
  intros
  unfold swapChain
  extract_lets -merge -useContext -underBinder +onlyGivenNames x0 x1 s2 x3 x4 x5 x6 x7 x8 x9 x10 s11 s12 s13 s14 s15 s16
  have hs2 : Keeps z s2 := foldl_keeps h fun t17 t17a ht17 => abandon_keeps ht17
  clear_value s2
  have hs11 : Keeps z s11 := onPlace_keeps hs2
  clear_value s11
  have hs12 : Keeps z s12 := mk_lanes hs11
  clear_value s12
  have hs13 : Keeps z s13 := onWave_keeps hs12
  clear_value s13
  have hs14 : Keeps z s14 := onPlan_keeps hs13
  clear_value s14
  have hs15 : Keeps z s15 := onSig_keeps hs14
  clear_value s15
  have hs16 : Keeps z s16 := endShortfall_keeps hs15
  clear_value s16
  refine foldl_keeps hs16 (fun t18 t18a ht18 => ?_)
  extract_lets -merge -useContext -underBinder +onlyGivenNames x19 x20 x21 x22
  exact keeps_ite (onSig_keeps ht18) (onSig_keeps ht18)

theorem twinRun_keeps (h : Keeps z s) : ∀ {a0 a1}, Keeps z (twinRun a0 a1 s) :=
  onTwin_keeps h

theorem preStart_keeps (h : Keeps z s) : ∀ {a0}, Keeps z (preStart a0 s) := by
  intros
  unfold preStart
  split
  all_goals first
    | skip
      extract_lets -merge -useContext -underBinder +onlyGivenNames s0 s1 s2 x3 x4
      have hs0 : Keeps z s0 := by
        refine foldl_keeps h (fun t5 t5a ht5 => ?_)
        extract_lets -merge -useContext -underBinder +onlyGivenNames x6 x7
        exact mk_lanes ht5
      clear_value s0
      have hs1 : Keeps z s1 := foldl_keeps hs0 fun t8 t8a ht8 => mk_lanes ht8
      clear_value s1
      have hs2 : Keeps z s2 := onPlan_keeps hs1
      clear_value s2
      exact keeps_ite (onSig_keeps hs2) h
    | exact h

theorem bypassLaunch_keeps (h : Keeps z s) : ∀ {a0}, Keeps z (bypassLaunch a0 s) := by
  intros
  unfold bypassLaunch
  extract_lets -merge -useContext -underBinder +onlyGivenNames x0
  exact foldl_keeps (onPlan_keeps h) fun t1 t1a ht1 => bypassApply_keeps ht1

theorem execBlockSwap_keeps (h : Keeps z s) : OutKeeps z (execBlockSwap s) := by
  unfold execBlockSwap
  split
  all_goals first
    | skip
      extract_lets -merge -useContext -underBinder +onlyGivenNames s0
      have hs0 : Keeps z s0 := raise_keeps (swapChain_keeps h)
      clear_value s0
      exact out_ite (out_ite (out_next hs0) (out_next (swapTable_keeps hs0))) (out_next h)
    | exact out_next h

theorem reserveChain_keeps (h : Keeps z s) : ∀ {a0}, Keeps z (reserveChain a0 s).1 := by
  intros
  unfold reserveChain
  extract_lets -merge -useContext -underBinder +onlyGivenNames x0 x1
  have hx0 : Keeps z x0.1 := placeChain_keeps h
  clear_value x0
  exact keeps_ite_1 hx0 (placeChain_keeps (foldl_keeps h fun t2 t2a ht2 => abandon_keeps ht2))

theorem execFadeEnd_keeps (h : Keeps z s) : ∀ {a0}, OutKeeps z (execFadeEnd a0 s) := by
  intros
  unfold execFadeEnd
  extract_lets -merge -useContext -underBinder +onlyGivenNames x0 x1 x2
  refine out_next ?_
  refine foldl_keeps h (fun t3 t3a ht3 => ?_)
  extract_lets -merge -useContext -underBinder +onlyGivenNames x4
  split
  all_goals first
    | skip
      extract_lets -merge -useContext -underBinder +onlyGivenNames s5
      have hs5 : Keeps z s5 := onLane_keeps ht3
      clear_value s5
      exact keeps_ite (keeps_ite (onPlan_keeps hs5) hs5) ht3
    | exact ht3

theorem takeEffect_keeps (h : Keeps z s) : ∀ {a0 a1 a2}, Keeps z (takeEffect a0 a1 a2 s) := by
  intros
  unfold takeEffect
  extract_lets -merge -useContext -underBinder +onlyGivenNames x0 x1 x2 x3 s4 s5 s6 s7 s8 s9 s10 x11 s12 s13 x14 s15 s16 s17
  have hs4 : Keeps z s4 := twinRun_keeps h
  clear_value s4
  have hs5 : Keeps z s5 := abandonAll_keeps (newEpoch_keeps hs4)
  clear_value s5
  have hs6 : Keeps z s6 := playStopAll_keeps hs5
  clear_value s6
  have hs7 : Keeps z s7 := onPlan_keeps hs6
  clear_value s7
  have hs8 : Keeps z s8 := mk_lanes hs7
  clear_value s8
  have hs9 : Keeps z s9 := newShortfall_keeps (placeAll_keeps hs8)
  clear_value s9
  have hs10 : Keeps z s10 := placeSnap_keeps (onPlace_keeps hs9)
  clear_value s10
  have hs12 : Keeps z s12 := onXp_keeps hs10
  clear_value s12
  have hs13 : Keeps z s13 := keeps_ite (levelChange_keeps hs12) hs12
  clear_value s13
  have hs15 : Keeps z s15 := onSig_keeps hs13
  clear_value s15
  have hs16 : Keeps z s16 := keeps_ite (restartEq_keeps hs15) (keeps_ite (raise_keeps (onWave_keeps hs15)) hs15)
  clear_value s16
  have hs17 : Keeps z s17 := onWave_keeps hs16
  clear_value s17
  exact keeps_ite (loadWave_keeps hs17) hs17

theorem execPlanTakeEffect_keeps (h : Keeps z s) : OutKeeps z (execPlanTakeEffect s) := by
  unfold execPlanTakeEffect
  split
  all_goals first
    | skip
      split
      all_goals first
        | exact out_ite (out_next (takeEffect_keeps h)) (out_next h)
        | exact out_next h
    | exact out_next h

theorem execEqSettle_keeps (h : Keeps z s) : OutKeeps z (execEqSettle s) := by
  unfold execEqSettle
  split
  all_goals first
    | exact out_ite (out_next (raise_keeps (onWave_keeps (onPlan_keeps h)))) (out_next h)
    | exact out_next h

theorem preNote_keeps (h : Keeps z s) : Keeps z (preNote s) := by
  unfold preNote
  split
  all_goals first
    | skip
      extract_lets -merge -useContext -underBinder +onlyGivenNames x0
      exact onPlan_keeps h
    | exact h

/-! ### Twin -/

theorem setTwin_keeps (h : Keeps z s) : ∀ {a0}, Keeps z (setTwin a0 s) :=
  onTwin_keeps h

theorem enterRunIn_keeps (h : Keeps z s) : Keeps z (enterRunIn s) := by
  unfold enterRunIn
  extract_lets -merge -useContext -underBinder +onlyGivenNames x0
  exact setTwin_keeps (onTwin_keeps h)

theorem startJoin_keeps (h : Keeps z s) : Keeps z (startJoin s) := by
  unfold startJoin
  extract_lets -merge -useContext -underBinder +onlyGivenNames s0
  have hs0 : Keeps z s0 := onTwin_keeps h
  clear_value s0
  exact keeps_ite (enterRunIn_keeps hs0) (setTwin_keeps hs0)

theorem skewCheck_keeps (h : Keeps z s) : ∀ {a0}, Keeps z (skewCheck a0 s) := by
  intros
  unfold skewCheck
  extract_lets -merge -useContext -underBinder +onlyGivenNames s0 s1
  have hs0 : Keeps z s0 := onTwin_keeps h
  clear_value s0
  have hs1 : Keeps z s1 := raise_keeps (onTwin_keeps h)
  clear_value s1
  exact keeps_ite (keeps_ite (startJoin_keeps hs0) hs0) (keeps_ite (setTwin_keeps (onTwin_keeps hs1)) hs1)

theorem quorumPromote_keeps (h : Keeps z s) : Keeps z (quorumPromote s) := by
  unfold quorumPromote
  extract_lets -merge -useContext -underBinder +onlyGivenNames x0
  exact keeps_ite (onTwin_keeps h) h

theorem stopSoon_keeps (h : Keeps z s) : ∀ {a0 a1 a2}, Keeps z (stopSoon a0 a1 a2 s) :=
  keeps_ite (onTwin_keeps h) h

theorem splitBrain_keeps (h : Keeps z s) : ∀ {a0}, Keeps z (splitBrain a0 s) := by
  intros
  unfold splitBrain
  extract_lets -merge -useContext -underBinder +onlyGivenNames s0
  have hs0 : Keeps z s0 := raise_keeps (onTwin_keeps h)
  clear_value s0
  exact keeps_ite (stopSoon_keeps hs0) hs0

theorem stageTells_keeps (h : Keeps z s) : ∀ {a0}, Keeps z (stageTells a0 s) := by
  intros
  unfold stageTells
  extract_lets -merge -useContext -underBinder +onlyGivenNames x0 s1 x2 s3
  have hs1 : Keeps z s1 := onTwin_keeps h
  clear_value s1
  have hs3 : Keeps z s3 := keeps_ite (onTwin_keeps hs1) hs1
  clear_value s3
  exact keeps_ite (keeps_ite (keeps_ite hs3 (keeps_ite (stopSoon_keeps hs3) (splitBrain_keeps hs3))) hs3) h

theorem execUpstreamFrameReceive_keeps (h : Keeps z s) : ∀ {a0 a1 a2}, OutKeeps z (execUpstreamFrameReceive a0 a1 a2 s) :=
  out_next (quorumPromote_keeps (stageTells_keeps (upstreamFrame_keeps h)))

theorem monitorBack_keeps (h : Keeps z s) : ∀ {a0 a1}, Keeps z (monitorBack a0 a1 s) := by
  intros
  unfold monitorBack
  extract_lets -merge -useContext -underBinder +onlyGivenNames s0 x1
  have hs0 : Keeps z s0 := onLink_keeps h
  clear_value s0
  exact foldl_keeps hs0 fun t2 t2a ht2 => onChan_keeps ht2

theorem peerUpstream_keeps (h : Keeps z s) : ∀ {a0}, Keeps z (peerUpstream a0 s) := by
  intros
  unfold peerUpstream
  extract_lets -merge -useContext -underBinder +onlyGivenNames x0 x1 x2
  exact keeps_ite (keeps_ite (keeps_ite (monitorFrame_keeps (monitorBack_keeps h)) h) (monitorFrame_keeps h)) h

theorem seedDone_keeps (h : Keeps z s) : ∀ {a0}, Keeps z (seedDone a0 s) := by
  intros
  unfold seedDone
  extract_lets -merge -useContext -underBinder +onlyGivenNames x0 s1
  have hs1 : Keeps z s1 := onTwin_keeps h
  clear_value s1
  exact keeps_ite (setTwin_keeps (onTwin_keeps hs1)) hs1

theorem seedTake_keeps (h : Keeps z s) : ∀ {a0}, Keeps z (seedTake a0 s) := by
  intros
  unfold seedTake
  extract_lets -merge -useContext -underBinder +onlyGivenNames x0 s1
  have hs1 : Keeps z s1 := foldl_keeps h fun t2 t2a ht2 => onLane_keeps ht2
  clear_value s1
  exact keeps_ite (keeps_ite (keeps_ite (onTwin_keeps hs1) h) (keeps_ite (seedDone_keeps (onChan_keeps h)) (seedDone_keeps (onPlayer_keeps h)))) h

theorem recTake_keeps (h : Keeps z s) : ∀ {a1}, Keeps z (recTake s a1) :=
  keeps_ite (peerUpstream_keeps h) (keeps_ite (seedTake_keeps h) (keeps_ite (onTwin_keeps h) h))

theorem execTwinRunInEnd_keeps (h : Keeps z s) : OutKeeps z (execTwinRunInEnd s) :=
  out_ite (out_next (setTwin_keeps (onTwin_keeps h))) (out_next h)

theorem playedTake_keeps (h : Keeps z s) : ∀ {a0}, Keeps z (playedTake a0 s) := by
  intros
  unfold playedTake
  split
  all_goals first
    | skip
      extract_lets -merge -useContext -underBinder +onlyGivenNames x0 x1 x2
      exact keeps_ite (onTwin_keeps h) h
    | exact h

theorem keepRecord_keeps (h : Keeps z s) : ∀ {a0}, Keeps z (keepRecord a0 s) :=
  onTwin_keeps h

theorem recordOnly_keeps (h : Keeps z s) : ∀ {a0 a1}, Keeps z (recordOnly a0 a1 s) := by
  intros
  unfold recordOnly
  split
  all_goals first
    | exact keeps_ite (onTwin_keeps h) (keepRecord_keeps h)
    | exact keepRecord_keeps h

theorem mismatchTake_keeps (h : Keeps z s) : ∀ {a0 a1}, Keeps z (mismatchTake a0 a1 s) := by
  intros
  unfold mismatchTake
  extract_lets -merge -useContext -underBinder +onlyGivenNames x0 x1 x2 x3 x4 s5
  have hs5 : Keeps z s5 := onTwin_keeps h
  clear_value s5
  refine keeps_ite (recordOnly_keeps hs5) ?_
  split
  all_goals first
    | exact keeps_ite (onTwin_keeps hs5) hs5
    | exact keeps_ite (recordOnly_keeps hs5) (keeps_ite (onTwin_keeps hs5) hs5)

theorem digestTake_keeps (h : Keeps z s) : ∀ {a0}, Keeps z (digestTake a0 s) := by
  intros
  unfold digestTake
  extract_lets -merge -useContext -underBinder +onlyGivenNames x0 s1
  have hs1 : Keeps z s1 := playedTake_keeps h
  clear_value s1
  exact keeps_ite (keeps_ite (onTwin_keeps hs1) (mismatchTake_keeps hs1)) h

theorem flagsTake_keeps (h : Keeps z s) : ∀ {a0}, Keeps z (flagsTake a0 s) := by
  intros
  unfold flagsTake
  extract_lets -merge -useContext -underBinder +onlyGivenNames x0 s1 s2 s3
  have hs1 : Keeps z s1 := keeps_ite (stopSoon_keeps h) h
  clear_value s1
  have hs2 : Keeps z s2 := keeps_ite (onTwin_keeps hs1) hs1
  clear_value s2
  have hs3 : Keeps z s3 := keeps_ite (onTwin_keeps hs2) hs2
  clear_value s3
  exact keeps_ite (enterRunIn_keeps (onPlan_keeps hs3)) hs3

theorem octLost_keeps (h : Keeps z s) : Keeps z (octLost s) := by
  unfold octLost
  extract_lets -merge -useContext -underBinder +onlyGivenNames s0 s1
  have hs0 : Keeps z s0 := raise_keeps (onTwin_keeps h)
  have hs1 : Keeps z s1 := by
    unfold s1
    split
    all_goals first
      | exact keepRecord_keeps (onTwin_keeps hs0)
      | exact hs0
  exact keeps_ite (setTwin_keeps (onTwin_keeps hs1)) hs1

theorem becomeClaimant_keeps (h : Keeps z s) : ∀ {a0}, Keeps z (becomeClaimant a0 s) := by
  intros
  unfold becomeClaimant
  extract_lets -merge -useContext -underBinder +onlyGivenNames s0 s1
  have hs0 : Keeps z s0 := onTwin_keeps h
  clear_value s0
  have hs1 : Keeps z s1 := by
    refine foldl_keeps hs0 (fun t2 t2a ht2 => ?_)
    extract_lets -merge -useContext -underBinder +onlyGivenNames x3
    exact keeps_ite (onPort_keeps ht2) (fwSend_keeps (onPort_keeps ht2))
  clear_value s1
  exact setTwin_keeps hs1

theorem startRoles_keeps (h : Keeps z s) : Keeps z (startRoles s) :=
  keeps_ite (keeps_ite (startJoin_keeps h) (keeps_ite (startJoin_keeps h) (becomeClaimant_keeps h))) h

theorem octUp_keeps (h : Keeps z s) : Keeps z (octUp s) := by
  unfold octUp
  extract_lets -merge -useContext -underBinder +onlyGivenNames s0 s1 s2
  have hs0 : Keeps z s0 := endCond_keeps (onTwin_keeps h)
  clear_value s0
  have hs1 : Keeps z s1 := keeps_ite (splitBrain_keeps hs0) hs0
  clear_value s1
  have hs2 : Keeps z s2 := keeps_ite (setTwin_keeps hs1) hs1
  clear_value s2
  exact startRoles_keeps hs2

theorem octEval_keeps (h : Keeps z s) : Keeps z (octEval s) :=
  keeps_ite (octUp_keeps h) (keeps_ite (octLost_keeps h) h)

theorem rejoin_keeps (h : Keeps z s) : Keeps z (rejoin s) :=
  keeps_ite (startJoin_keeps h) (setTwin_keeps (onTwin_keeps h))

theorem seqCheck_keeps (h : Keeps z s) : ∀ {a0}, Keeps z (seqCheck a0 s) := by
  intros
  unfold seqCheck
  extract_lets -merge -useContext -underBinder +onlyGivenNames x0 x1 s2
  have hs2 : Keeps z s2 := keeps_ite (rejoin_keeps h) h
  clear_value s2
  exact keeps_ite h (onTwin_keeps hs2)

theorem octTake_keeps (h : Keeps z s) : ∀ {a0}, Keeps z (octTake a0 s) := by
  intros
  unfold octTake
  extract_lets -merge -useContext -underBinder +onlyGivenNames x0 x1 s2 s3 s4 x5 s6 s7 s8
  have hs2 : Keeps z s2 := onTwin_keeps h
  clear_value s2
  have hs3 : Keeps z s3 := keeps_ite (raise_keeps hs2) hs2
  clear_value s3
  have hs4 : Keeps z s4 := octEval_keeps hs3
  clear_value s4
  have hs6 : Keeps z s6 := skewCheck_keeps hs4
  clear_value s6
  have hs7 : Keeps z s7 := foldl_keeps (seqCheck_keeps hs6) fun t9 t9a ht9 => recTake_keeps ht9
  clear_value s7
  have hs8 : Keeps z s8 := keeps_ite (digestTake_keeps hs7) hs7
  clear_value s8
  exact keeps_ite (startRoles_keeps (flagsTake_keeps hs8)) hs4

theorem standDown_keeps (h : Keeps z s) : ∀ {a0 a1}, Keeps z (standDown a0 a1 s) :=
  setTwin_keeps (onTwin_keeps h)

theorem execTwinPromotion_keeps (h : Keeps z s) : OutKeeps z (execTwinPromotion s) := by
  unfold execTwinPromotion
  split
  all_goals first
    | skip
      extract_lets -merge -useContext -underBinder +onlyGivenNames s0 s1
      have hs0 : Keeps z s0 := onTwin_keeps h
      clear_value s0
      have hs1 : Keeps z s1 := by
        unfold s1
        split
        all_goals first
          | exact keeps_ite (onPlan_keeps hs0) hs0
          | exact hs0
      clear_value s1
      exact out_ite (out_ite (out_next (standDown_keeps hs0)) (out_next (becomeClaimant_keeps (onTwin_keeps hs1)))) (out_next h)
    | exact out_next h

theorem execTwinStartWait_keeps (h : Keeps z s) : OutKeeps z (execTwinStartWait s) := by
  unfold execTwinStartWait
  split
  all_goals first
    | skip
      extract_lets -merge -useContext -underBinder +onlyGivenNames x0
      exact out_ite (out_next (becomeClaimant_keeps h)) (out_next h)
    | exact out_next h

theorem execJoinFailed_keeps (h : Keeps z s) : OutKeeps z (execJoinFailed s) :=
  out_ite (out_next (setTwin_keeps (raise_keeps (onTwin_keeps h)))) (out_next h)

theorem execTwinClaimDrop_keeps (h : Keeps z s) : OutKeeps z (execTwinClaimDrop s) := by
  unfold execTwinClaimDrop
  split
  all_goals first
    | skip
      extract_lets -merge -useContext -underBinder +onlyGivenNames x0 x1
      exact out_ite (out_next (rejoin_keeps (onTwin_keeps h))) (out_next h)
    | exact out_next h

theorem execSeedItemTimeout_keeps (h : Keeps z s) : ∀ {a0}, OutKeeps z (execSeedItemTimeout a0 s) :=
  out_ite (out_next (onTwin_keeps h)) (out_next h)

theorem seedSettle_keeps (h : Keeps z s) : Keeps z (seedSettle s) := by
  unfold seedSettle
  extract_lets -merge -useContext -underBinder +onlyGivenNames x0 s1
  have hs1 : Keeps z s1 := onTwin_keeps h
  clear_value s1
  exact foldl_keeps hs1 fun t2 t2a ht2 => seedDone_keeps ht2

theorem execOctotLane_keeps (h : Keeps z s) : ∀ {a0}, OutKeeps z (execOctotLane a0 s) := by
  intros
  unfold execOctotLane
  extract_lets -merge -useContext -underBinder +onlyGivenNames x0
  exact out_ite (out_next (octEval_keeps (raise_keeps (onTwin_keeps h)))) (out_next h)

theorem execOctotFrameReceive_keeps (h : Keeps z s) : ∀ {a0 a1 a2 a3}, OutKeeps z (execOctotFrameReceive a0 a1 a2 a3 s) := by
  intros
  unfold execOctotFrameReceive
  extract_lets -merge -useContext -underBinder +onlyGivenNames x0 x1 s2 s3 s4
  have hs2 : Keeps z s2 := onTwin_keeps h
  clear_value s2
  have hs3 : Keeps z s3 := keeps_ite (onTwin_keeps hs2) hs2
  clear_value s3
  have hs4 : Keeps z s4 := keeps_ite (onTwin_keeps hs3) hs3
  clear_value s4
  exact out_ite (out_ite (out_next (keeps_ite (octEval_keeps hs4) (octTake_keeps hs4))) (out_next (onTwin_keeps h))) (out_next h)

theorem stopTake_keeps (h : Keeps z s) : ∀ {a0}, Keeps z (stopTake a0 s) := by
  intros
  unfold stopTake
  split
  all_goals first
    | skip
      extract_lets -merge -useContext -underBinder +onlyGivenNames s0
      have hs0 : Keeps z s0 := onTwin_keeps h
      clear_value s0
      exact keeps_ite (keeps_ite hs0 (keeps_ite (setTwin_keeps (onTwin_keeps hs0)) (standDown_keeps hs0))) h
    | exact h

theorem execTwinReady_keeps (h : Keeps z s) : OutKeeps z (execTwinReady s) :=
  out_ite (out_next (setTwin_keeps (onTwin_keeps h))) (out_next h)

theorem yieldSoon_keeps (h : Keeps z s) : ∀ {a0}, Keeps z (yieldSoon a0 s) :=
  keeps_ite (onTwin_keeps h) h

theorem execTwinDecision_keeps (h : Keeps z s) : OutKeeps z (execTwinDecision s) := by
  unfold execTwinDecision
  split
  all_goals first
    | exact out_next h
    | skip
      extract_lets -merge -useContext -underBinder +onlyGivenNames x0 x1 x2
      refine out_ite ?_ (out_next h)
      split
      all_goals
        extract_lets -merge -useContext -underBinder +onlyGivenNames x3 x4 x5 s6
        have hs6 : Keeps z s6 := keepRecord_keeps (onTwin_keeps h)
        clear_value s6
        refine out_ite (out_next hs6) ?_
        split
        all_goals first
          | exact out_next (raise_keeps (onTwin_keeps hs6))
          | skip
            extract_lets -merge -useContext -underBinder +onlyGivenNames s7
            have hs7 : Keeps z s7 := onTwin_keeps hs6
            clear_value s7
            exact out_ite (out_next (keeps_ite (raise_keeps hs7) hs7)) (out_ite (out_next (rejoin_keeps (raise_keeps hs6))) (out_next hs6))

theorem twinTick_keeps (h : Keeps z s) : ∀ {a0}, Keeps z (twinTick a0 s) := by
  intros
  unfold twinTick
  extract_lets -merge -useContext -underBinder +onlyGivenNames s0 x1 x2 s3 x4
  have hs0 : Keeps z s0 := onTwin_keeps h
  have hs3 : Keeps z s3 := keeps_ite (onTwin_keeps hs0) hs0
  exact keeps_ite (onTwin_keeps hs3) h

theorem execTwinAutoRejoin_keeps (h : Keeps z s) : OutKeeps z (execTwinAutoRejoin s) :=
  out_ite (out_next (startJoin_keeps h)) (out_next h)

/-! ### Ptp -/

theorem onPtp_keeps (h : Keeps z s) : ∀ {a0}, Keeps z (onPtp a0 s) :=
  onNet_keeps h

theorem ptpSend_keeps (h : Keeps z s) : ∀ {a0 a1 a2 a3 a4 a5 a6 a7}, Keeps z (ptpSend a0 a1 a2 a3 a4 a5 a6 a7 s) := by
  intros
  unfold ptpSend
  extract_lets -merge -useContext -underBinder +onlyGivenNames x0 x1 x2
  exact fwSend_keeps h

theorem ptpSent_keeps (h : Keeps z s) : ∀ {a0 a1 a2}, Keeps z (ptpSent a0 a1 a2 s) := by
  intros
  unfold ptpSent
  extract_lets -merge -useContext -underBinder +onlyGivenNames x0 x1
  split
  all_goals first
    | exact ptpSend_keeps h
    | exact onPtp_keeps h
    | exact h

theorem arpTake_keeps (h : Keeps z s) : ∀ {a0 a1}, Keeps z (arpTake a0 a1 s) := by
  intros
  unfold arpTake
  extract_lets -merge -useContext -underBinder +onlyGivenNames x0 x1 x2 x3
  have hx3 : ∀ x3a0 x3a1, Keeps z (x3 x3a0 x3a1) := by
    intro x3a0 x3a1
    unfold x3
    beta_reduce
    exact fwSend_keeps h
  clear_value x3
  exact keeps_ite h (keeps_ite (hx3 _ _) (keeps_ite (hx3 _ _) h))

theorem ptpTellAnnounce_keeps (h : Keeps z s) : Keeps z (ptpTellAnnounce s) := by
  unfold ptpTellAnnounce
  extract_lets -merge -useContext -underBinder +onlyGivenNames x0 s1 x2 x3
  have hs1 : Keeps z s1 := onPtp_keeps h
  clear_value s1
  exact foldl_keeps hs1 fun t4 t4a ht4 => ptpSend_keeps ht4

theorem ptpAsk_keeps (h : Keeps z s) : Keeps z (ptpAsk s) := by
  unfold ptpAsk
  extract_lets -merge -useContext -underBinder +onlyGivenNames x0 x1 s2
  have hs2 : Keeps z s2 := onPtp_keeps h
  clear_value s2
  exact keeps_ite (ptpSend_keeps hs2) (ptpSend_keeps hs2)

theorem igmpTake_keeps (h : Keeps z s) : ∀ {a0 a1}, Keeps z (igmpTake a0 a1 s) := by
  intros
  unfold igmpTake
  split
  all_goals first
    | skip
      extract_lets -merge -useContext -underBinder +onlyGivenNames x0 x1 x2
      exact keeps_ite h (igmpReport_keeps h)
    | exact h

theorem ptpEval_keeps (h : Keeps z s) : Keeps z (ptpEval s) := by
  unfold ptpEval
  extract_lets -merge -useContext -underBinder +onlyGivenNames x0 x1 x2
  exact keeps_ite h (onNet_keeps h)

theorem ptpAnnounce_keeps (h : Keeps z s) : ∀ {a0 a1}, Keeps z (ptpAnnounce a0 a1 s) := by
  intros
  unfold ptpAnnounce
  extract_lets -merge -useContext -underBinder +onlyGivenNames x0 x1 x2 x3 x4 x5 x6
  exact keeps_ite h (ptpEval_keeps (onNet_keeps h))

theorem ptpDelay_keeps (h : Keeps z s) : ∀ {a0}, Keeps z (ptpDelay a0 s) :=
  onPtp_keeps h

theorem ptpGap_keeps (h : Keeps z s) : ∀ {a0}, Keeps z (ptpGap a0 s) :=
  onPtp_keeps h

theorem ptpTake_keeps (h : Keeps z s) : ∀ {a0 a1 a2}, Keeps z (ptpTake a0 a1 a2 s) := by
  intros
  unfold ptpTake
  extract_lets -merge -useContext -underBinder +onlyGivenNames x0 x1 x2
  split
  all_goals first
    | exact keeps_ite (keeps_ite (onPtp_keeps h) (ptpGap_keeps h)) h
    | exact keeps_ite (ptpSend_keeps h) h
    | skip
      refine keeps_ite ?_ h
      refine keeps_ite (onPtp_keeps h) ?_
      split
      all_goals first
        | exact ptpDelay_keeps h
        | exact h
    | skip
      split
      all_goals first
        | exact keeps_ite (ptpGap_keeps h) h
        | exact h
    | skip
      refine keeps_ite ?_ h
      split
      all_goals first
        | exact ptpDelay_keeps h
        | exact h
    | exact ptpAnnounce_keeps h
    | exact h

theorem fwTake_keeps (h : Keeps z s) : ∀ {a0 a1 a2}, Keeps z (fwTake a0 a1 a2 s) := by
  intros
  unfold fwTake
  refine keeps_ite h ?_
  refine keeps_ite (arpTake_keeps h) ?_
  split
  all_goals first
    | skip
      extract_lets -merge -useContext -underBinder +onlyGivenNames x0
      exact keeps_ite (ptpTake_keeps h) h
    | exact igmpTake_keeps h

theorem ptpTellSync_keeps (h : Keeps z s) : Keeps z (ptpTellSync s) := by
  unfold ptpTellSync
  extract_lets -merge -useContext -underBinder +onlyGivenNames x0 s1
  have hs1 : Keeps z s1 := onPtp_keeps h
  clear_value s1
  exact foldl_keeps hs1 fun t2 t2a ht2 => ptpSend_keeps ht2

theorem ptpTimer_keeps (h : Keeps z s) : Keeps z (ptpTimer s) := by
  unfold ptpTimer
  extract_lets -merge -useContext -underBinder +onlyGivenNames s0 s1
  have hs0 : Keeps z s0 := ptpEval_keeps h
  clear_value s0
  have hs1 : Keeps z s1 := keeps_ite (ptpTellAnnounce_keeps hs0) hs0
  clear_value s1
  exact keeps_ite (keeps_ite (keeps_ite (ptpTellSync_keeps hs1) hs1) (keeps_ite (ptpAsk_keeps hs0) hs0)) h

/-! ### Rings -/

theorem onRing_keeps (h : Keeps z s) : ∀ {a0 a1}, Keeps z (onRing a0 a1 s) :=
  onNet_keeps h

theorem ringRead_keeps (h : Keeps z s) : ∀ {a0 a1}, Keeps z (ringRead a0 a1 s).1 := by
  intros
  unfold ringRead
  extract_lets -merge -useContext -underBinder +onlyGivenNames x0
  split
  all_goals first
    | exact h
    | exact onRing_keeps h

theorem pauseSet_keeps (h : Keeps z s) : ∀ {a0 a1}, Keeps z (pauseSet a0 a1 s) := by
  intros
  unfold pauseSet
  extract_lets -merge -useContext -underBinder +onlyGivenNames x0
  exact keeps_ite (txDrain_keeps (onPort_keeps h)) (onPort_keeps h)

theorem sendEnd_keeps (h : Keeps z s) : ∀ {a0}, Keeps z (sendEnd a0 s) := by
  intros
  unfold sendEnd
  extract_lets -merge -useContext -underBinder +onlyGivenNames x0 s1
  clear_value x0
  have hs1 : Keeps z s1 := onPort_keeps h
  clear_value s1
  split
  all_goals first
    | exact pauseSet_keeps hs1
    | exact txDrain_keeps hs1

theorem stickRing_keeps (h : Keeps z s) : ∀ {a0 a1}, Keeps z (stickRing a0 a1 s) :=
  onRing_keeps h

theorem ringEvent_keeps (h : Keeps z s) : ∀ {a0}, Keeps z (ringEvent a0 s) := by
  intros
  unfold ringEvent
  extract_lets -merge -useContext -underBinder +onlyGivenNames s0
  have hs0 : Keeps z s0 := stickRing_keeps h
  clear_value s0
  exact keeps_ite (sendMsi_keeps hs0) hs0

theorem txBack_keeps (h : Keeps z s) : ∀ {a0 a1 a2 a3}, Keeps z (txBack a0 a1 a2 a3 s) := by
  intros
  unfold txBack
  extract_lets -merge -useContext -underBinder +onlyGivenNames x0 s1
  have hs1 : Keeps z s1 := foldl_keeps h fun t2 t2a ht2 => dmaWrite_keeps ht2
  clear_value s1
  exact ringEvent_keeps (onRing_keeps hs1)

theorem execTxFrameComplete_keeps (h : Keeps z s) : ∀ {a0 a1 a2}, OutKeeps z (execTxFrameComplete a0 a1 a2 s) := by
  intros
  unfold execTxFrameComplete
  extract_lets -merge -useContext -underBinder +onlyGivenNames x0
  split
  · exact out_next h
  · split
    · extract_lets -merge -useContext -underBinder +onlyGivenNames s1
      have hs1 : Keeps z s1 := countPort_keeps (countPort_keeps h)
      clear_value s1
      exact out_next (sendEnd_keeps (ptpSent_keeps hs1))
    · exact out_next (sendEnd_keeps h)
    · extract_lets -merge -useContext -underBinder +onlyGivenNames x1 x2 x3 s4
      have hs4 : Keeps z s4 := countPort_keeps (countPort_keeps h)
      clear_value s4
      exact out_next (sendEnd_keeps (txBack_keeps hs4))

theorem portDmaReset_keeps (h : Keeps z s) : ∀ {a0}, Keeps z (portDmaReset a0 s) := by
  intros
  unfold portDmaReset
  split
  · exact h
  · extract_lets -merge -useContext -underBinder +onlyGivenNames s0
    have hs0 : Keeps z s0 := onRing_keeps (onPort_keeps h)
    clear_value s0
    exact raise_keeps (onMat_keeps hs0 (fun hm => hm))

theorem linkSet_keeps (h : Keeps z s) : ∀ {a0 a1}, Keeps z (linkSet a0 a1 s) := by
  intros
  unfold linkSet
  extract_lets -merge -useContext -underBinder +onlyGivenNames x0 s1
  have hs1 : Keeps z s1 := stickPort_keeps (onPort_keeps h)
  clear_value s1
  exact keeps_ite h (keeps_ite (endCond_keeps hs1) (raise_keeps (portDmaReset_keeps hs1)))

theorem macsecRx_keeps (h : Keeps z s) : ∀ {a0 a1}, Keeps z (macsecRx a0 a1 s).1 := by
  intros
  unfold macsecRx
  extract_lets -merge -useContext -underBinder +onlyGivenNames x0
  refine keeps_ite_1 h ?_
  split
  all_goals first
    | exact keeps_ite_1 h h
    | skip
      extract_lets -merge -useContext -underBinder +onlyGivenNames x1
      have hx1 : Keeps z x1.1 := stickPort_keeps (countPort_keeps h)
      clear_value x1
      split
      all_goals first
        | exact hx1
        | skip
          extract_lets -merge -useContext -underBinder +onlyGivenNames x2 x3 x4 x5
          split
          all_goals first
            | exact keeps_ite_1 hx1 (onPort_keeps h)
            | exact hx1

theorem execPauseHoldoffEnd_keeps (h : Keeps z s) : ∀ {a0}, OutKeeps z (execPauseHoldoffEnd a0 s) := by
  intros
  unfold execPauseHoldoffEnd
  extract_lets -merge -useContext -underBinder +onlyGivenNames x0
  split
  all_goals first
    | exact out_next (keeps_ite (onPort_keeps h) h)
    | exact out_next h

theorem txWire_keeps (h : Keeps z s) : ∀ {a0 a1 a2}, Keeps z (txWire a0 a1 a2 s).1 := by
  intros
  unfold txWire
  extract_lets -merge -useContext -underBinder +onlyGivenNames x0 x1
  have hx1 : Keeps z x1.1 := macsecSend_keeps h
  clear_value x1
  exact keeps_ite_1 hx1 h

theorem pauseReceive_keeps (h : Keeps z s) : ∀ {a0 a1}, Keeps z (pauseReceive a0 a1 s) := by
  intros
  unfold pauseReceive
  extract_lets -merge -useContext -underBinder +onlyGivenNames x0 s1
  have hs1 : Keeps z s1 := countPort_keeps h
  clear_value s1
  exact keeps_ite (countPort_keeps h) (keeps_ite (onPort_keeps hs1) (pauseSet_keeps hs1))

theorem rxStreamFrame_keeps (h : Keeps z s) : ∀ {a0 a1 a2 a3}, Keeps z (rxStreamFrame a0 a1 a2 a3 s) := by
  intros
  unfold rxStreamFrame
  extract_lets -merge -useContext -underBinder +onlyGivenNames x0
  split
  all_goals first
    | exact h
    | skip
      split
      all_goals
        extract_lets -merge -useContext -underBinder +onlyGivenNames x1 x2 x3 x4 x5 x6
        refine keeps_ite (countPort_keeps h) ?_
        split
        all_goals
          extract_lets -merge -useContext -underBinder +onlyGivenNames s7 s8 s9
          have hs7 : Keeps z s7 := countPort_keeps (onRx_keeps h)
          clear_value s7
          have hs8 : Keeps z s8 := keeps_ite (stickPort_keeps hs7) hs7
          clear_value s8
          have hs9 : Keeps z s9 := by
            unfold s9
            split
            all_goals first
              | skip
                extract_lets -merge -useContext -underBinder +onlyGivenNames x10 x11
                exact keeps_ite (onRx_keeps hs8) hs8
              | exact hs8
          clear_value s9
          exact keeps_ite hs7 (keeps_ite (raise_keeps (endCond_keeps hs9)) hs9)

theorem ringStuck_keeps (h : Keeps z s) : ∀ {a0 a1 a2}, Keeps z (ringStuck a0 a1 a2 s) :=
  busErr_keeps (onRing_keeps h)

theorem rxFill_keeps : ∀ {p g : Nat} {m : RxMeta} {n : Nat} {first : Bool} {data : List Byte} {s : State}, Keeps z s →
    Keeps z (rxFill p g m n first data s)
  | _, _, _, 0, _, _, _, h => h
  | p, g, m, n + 1, first, data, s, h => by
    unfold rxFill
    extract_lets r a d buf chunk rest cut last st wb s1 s2
    have h1 : Keeps z s1 := dmaWrite_keeps (dmaWrite_keeps h)
    have h2 : Keeps z s2 := ringEvent_keeps (onRing_keeps h1)
    exact keeps_ite (ringStuck_keeps h) (keeps_ite (ringStuck_keeps (libRefused_keeps h)) (keeps_ite (ringStuck_keeps h)
      (keeps_ite (stickPort_keeps (stickRing_keeps (countPort_keeps h2))) (keeps_ite h2 (rxFill_keeps h2)))))

theorem rxToRing_keeps (h : Keeps z s) : ∀ {a0 a1 a2 a3}, Keeps z (rxToRing a0 a1 a2 a3 s) := by
  intros
  unfold rxToRing
  extract_lets -merge -useContext -underBinder +onlyGivenNames x0
  exact keeps_ite (countPort_keeps (onRing_keeps h)) (rxFill_keeps h)

theorem rxDeliver_keeps (h : Keeps z s) : ∀ {a0 a1 a2 a3}, Keeps z (rxDeliver a0 a1 a2 a3 s) := by
  intros
  unfold rxDeliver
  extract_lets -merge -useContext -underBinder +onlyGivenNames x0 x1 s2 x3
  have hs2 : Keeps z s2 := keeps_ite (stickPort_keeps (countPort_keeps h)) h
  clear_value s2
  refine keeps_ite (keeps_ite (pauseReceive_keeps hs2) (countPort_keeps hs2)) ?_
  split
  all_goals first
    | with_reducible exact rxStreamFrame_keeps hs2
    | skip
      extract_lets -merge -useContext -underBinder +onlyGivenNames x4 x5 s6 x7
      have hs6 : Keeps z s6 := rxToRing_keeps hs2
      clear_value s6
      exact keeps_ite (fwTake_keeps hs6) hs6

theorem execRxFrame_keeps (h : Keeps z s) : ∀ {a0 a1 a2 a3 a4}, OutKeeps z (execRxFrame a0 a1 a2 a3 a4 s) := by
  intros
  unfold execRxFrame
  extract_lets -merge -useContext -underBinder +onlyGivenNames x0 x1 x2 s3 x4
  have hs3 : Keeps z s3 := countPort_keeps (countPort_keeps h)
  clear_value s3
  have hx4 : Keeps z x4.1 := keeps_ite_1 (macsecRx_keeps hs3) hs3
  clear_value x4
  refine out_ite (out_next h) ?_
  refine out_ite (out_next (countPort_keeps h)) ?_
  refine out_ite (out_next (countPort_keeps h)) ?_
  refine out_next ?_
  split
  all_goals first
    | exact hx4
    | exact rxDeliver_keeps hx4

theorem placeMem_keeps (h : Keeps z s) : ∀ {a0 a1}, Keeps z (placeMem a0 a1 s) :=
  foldl_keeps h fun t0 t0a ht0 => keeps_ite (dmaWrite_keeps ht0) ht0

theorem execLinkDown_keeps (h : Keeps z s) : ∀ {a0 a1}, OutKeeps z (execLinkDown a0 a1 s) := by
  intros
  unfold execLinkDown
  extract_lets -merge -useContext -underBinder +onlyGivenNames x0
  exact out_ite (out_ite (out_next (linkSet_keeps h)) (out_next h)) (out_next (linkSet_keeps h))

theorem wakeBegin_keeps (h : Keeps z s) : ∀ {a0}, Keeps z (wakeBegin a0 s) :=
  onClk_keeps h

theorem execWakeTimer_keeps (h : Keeps z s) : OutKeeps z (execWakeTimer s) :=
  out_ite (out_next (wakeBegin_keeps (onNet_keeps h))) (out_next h)

theorem ctrlWrite_keeps (h : Keeps z s) : ∀ {a0 a1}, Keeps z (ctrlWrite a0 a1 s) :=
  onRing_keeps h

theorem execTxUnderrun_keeps (h : Keeps z s) : ∀ {a0}, OutKeeps z (execTxUnderrun a0 s) := by
  intros
  unfold execTxUnderrun
  extract_lets -merge -useContext -underBinder +onlyGivenNames x0
  split
  · exact out_next h
  · extract_lets -merge -useContext -underBinder +onlyGivenNames s1 x2 s3 s4
    have hs1 : Keeps z s1 := onPort_keeps h
    have hs4 : Keeps z s4 := onRing_keeps (stickPort_keeps (stickRing_keeps (countPort_keeps hs1)))
    clear_value s4 s3 x2 s1
    refine out_ite (out_next (sendEnd_keeps hs1)) (out_next (sendEnd_keeps ?_))
    split
    · exact txBack_keeps hs4
    · exact hs4

theorem prodWrite_keeps (h : Keeps z s) : ∀ {a0 a1}, Keeps z (prodWrite a0 a1 s) :=
  keeps_ite (onRing_keeps h) (raise_keeps (stickRing_keeps h))

theorem txStartRing_keeps (h : Keeps z s) : ∀ {a0 a1 a2}, Keeps z (txStartRing a0 a1 a2 s) := by
  intros
  unfold txStartRing
  extract_lets -merge -useContext -underBinder +onlyGivenNames x0 x1
  refine keeps_ite (txBack_keeps (onRing_keeps h)) ?_
  split
  all_goals first
    | with_reducible exact ringStuck_keeps h
    | skip
      extract_lets -merge -useContext -underBinder +onlyGivenNames s2 x3
      have hs2 : Keeps z s2 := onPort_keeps h
      clear_value s2
      have hx3 : Keeps z x3.1 := txWire_keeps hs2
      clear_value x3
      split
      all_goals first
        | with_reducible exact onRing_keeps (onPort_keeps hx3)
        | with_reducible exact txBack_keeps hx3

theorem txStartFw_keeps (h : Keeps z s) : ∀ {a0 a1}, Keeps z (txStartFw a0 a1 s) := by
  intros
  unfold txStartFw
  extract_lets -merge -useContext -underBinder +onlyGivenNames s0 x1
  have hs0 : Keeps z s0 := onPort_keeps h
  clear_value s0
  have hx1 : Keeps z x1.1 := txWire_keeps hs0
  clear_value x1
  split
  all_goals first
    | exact onPort_keeps hx1
    | exact hx1

theorem execPauseWatchdog_keeps (h : Keeps z s) : ∀ {a0}, OutKeeps z (execPauseWatchdog a0 s) := by
  intros
  unfold execPauseWatchdog
  extract_lets -merge -useContext -underBinder +onlyGivenNames x0 x1
  split
  all_goals first
    | skip
      extract_lets -merge -useContext -underBinder +onlyGivenNames s2
      have hs2 : Keeps z s2 := onPort_keeps h
      clear_value s2
      exact out_ite (out_next (txDrain_keeps (raise_keeps (stickPort_keeps (countPort_keeps hs2))))) (out_next h)
    | exact out_next h

theorem execPauseExpire_keeps (h : Keeps z s) : ∀ {a0}, OutKeeps z (execPauseExpire a0 s) := by
  intros
  unfold execPauseExpire
  extract_lets -merge -useContext -underBinder +onlyGivenNames x0
  split
  all_goals first
    | exact out_next (keeps_ite (pauseSet_keeps h) h)
    | exact out_next h

theorem ringWrite_keeps (h : Keeps z s) : ∀ {a0 a1 a2 a3}, Keeps z (ringWrite a0 a1 a2 a3 s) := by
  intros
  unfold ringWrite
  refine keeps_ite (stickPort_keeps (stickRing_keeps h)) ?_
  split
  all_goals first
    | exact onRing_keeps h
    | exact ctrlWrite_keeps h
    | exact prodWrite_keeps h
    | exact h

theorem execRingProdWrite_keeps (h : Keeps z s) : ∀ {a0 a1 a2 a3}, OutKeeps z (execRingProdWrite a0 a1 a2 a3 s) :=
  out_next (ringWrite_keeps (placeMem_keeps h))

theorem execRingEnable_keeps (h : Keeps z s) : ∀ {a0 a1 a2}, OutKeeps z (execRingEnable a0 a1 a2 s) :=
  out_next (ringWrite_keeps h)

theorem execTxFrameStart_keeps (h : Keeps z s) : ∀ {a0 a1}, OutKeeps z (execTxFrameStart a0 a1 s) := by
  intros
  unfold execTxFrameStart
  extract_lets -merge -useContext -underBinder +onlyGivenNames x0 s1
  have hs1 : Keeps z s1 := txDrain_keeps h
  clear_value s1
  refine out_ite ?_ (out_next hs1)
  split
  all_goals first
    | exact out_next (txStartFw_keeps hs1)
    | skip
      split
      all_goals first
        | exact out_next hs1
        | skip
          split
          all_goals first
            | exact out_next (ringStuck_keeps hs1)
            | exact out_next (txStartRing_keeps hs1)

theorem execWakeFrame_keeps (h : Keeps z s) : ∀ {a0}, OutKeeps z (execWakeFrame a0 s) := by
  intros
  unfold execWakeFrame
  refine out_ite ?_ (out_next h)
  split
  all_goals first
    | exact out_next h
    | skip
      extract_lets -merge -useContext -underBinder +onlyGivenNames s0
      have hs0 : Keeps z s0 := onNet_keeps h
      clear_value s0
      split
      all_goals first
        | exact out_next (wakeBegin_keeps hs0)
        | exact out_next (onClk_keeps hs0)
        | exact out_next h

end Sys2Proof.Laws
end

