-- ==== Sys2Proof/Laws/KeepsCommands.lean ====
section
/-! SUPPORT. Every operation keeps the canonical form of the byte memory and leaves the queue alone:
commands and events of the crosspoint, the links, the network, faults, clocks and power. -/

namespace Sys2Proof.Laws

open Sys2Proof Sys2Proof.Machine

variable {z s : State}

/-! ### XpCmd -/

theorem xpOvlClearEffect_keeps (h : Keeps z s) : ∀ {a0 a1}, Keeps z (xpOvlClearEffect a0 a1 s).1 :=
  onXp_keeps h

theorem execXpOvlClear_keeps (h : Keeps z s) : ∀ {a0}, OutKeeps z (execXpOvlClear a0 s) :=
  out_next (runKiosk_keeps (fun _ _ _ ht => xpOvlClearEffect_keeps ht) h)

theorem sceneDiscard_keeps (h : Keeps z s) : ∀ {a0}, Keeps z (sceneDiscard a0 s) :=
  onXp_keeps h

theorem xpSceneDiscardEffect_keeps (h : Keeps z s) : ∀ {a0 a1}, Keeps z (xpSceneDiscardEffect a0 a1 s).1 := by
  intros
  unfold xpSceneDiscardEffect
  extract_lets -merge -useContext -underBinder +onlyGivenNames x0
  exact sceneDiscard_keeps h

theorem execXpSceneDiscard_keeps (h : Keeps z s) : ∀ {a0}, OutKeeps z (execXpSceneDiscard a0 s) :=
  out_next (runKiosk_keeps (fun _ _ _ ht => xpSceneDiscardEffect_keeps ht) h)

theorem xpOvlSetEffect_keeps (h : Keeps z s) : ∀ {a0 a1}, Keeps z (xpOvlSetEffect a0 a1 s).1 :=
  onXp_keeps h

theorem execXpOvlSet_keeps (h : Keeps z s) : ∀ {a0}, OutKeeps z (execXpOvlSet a0 s) :=
  out_next (runKiosk_keeps (fun _ _ _ ht => xpOvlSetEffect_keeps ht) h)

theorem xpAlleyStatusEffect_keeps (h : Keeps z s) : ∀ {a0 a1}, Keeps z (xpAlleyStatusEffect a0 a1 s).1 :=
  h

theorem xpNodeReadEffect_keeps (h : Keeps z s) : ∀ {a0 a1}, Keeps z (xpNodeReadEffect a0 a1 s).1 :=
  h

theorem xpStepTimeoutEffect_keeps (h : Keeps z s) : ∀ {a0 a1}, Keeps z (xpStepTimeoutEffect a0 a1 s).1 := by
  intros
  unfold xpStepTimeoutEffect
  extract_lets -merge -useContext -underBinder +onlyGivenNames x0
  exact keeps_ite h (onXp_keeps h)

theorem xpQueueStatusEffect_keeps (h : Keeps z s) : ∀ {a0 a1}, Keeps z (xpQueueStatusEffect a0 a1 s).1 := by
  intros
  unfold xpQueueStatusEffect
  extract_lets -merge -useContext -underBinder +onlyGivenNames x0
  exact keeps_ite (onXp_keeps h) h

theorem execXpQueueStatus_keeps (h : Keeps z s) : ∀ {a0}, OutKeeps z (execXpQueueStatus a0 s) :=
  out_next (runKiosk_keeps (fun _ _ _ ht => xpQueueStatusEffect_keeps ht) h)

theorem enterWords_keeps (h : Keeps z s) : ∀ {a0 a1}, Keeps z (enterWords a0 a1 s) := by
  intros
  unfold enterWords
  split
  all_goals first
    | exact onXp_keeps h
    | exact h

theorem xpNodeWriteEffect_keeps (h : Keeps z s) : ∀ {a0 a1}, Keeps z (xpNodeWriteEffect a0 a1 s).1 :=
  enterWords_keeps h

theorem execXpNodeWrite_keeps (h : Keeps z s) : ∀ {a0}, OutKeeps z (execXpNodeWrite a0 s) :=
  out_next (runKiosk_keeps (fun _ _ _ ht => xpNodeWriteEffect_keeps ht) h)

theorem xpOvlBindEffect_keeps (h : Keeps z s) : ∀ {a0 a1}, Keeps z (xpOvlBindEffect a0 a1 s).1 := by
  intros
  unfold xpOvlBindEffect
  extract_lets -merge -useContext -underBinder +onlyGivenNames x0 x1
  exact onXp_keeps h

theorem execXpOvlBind_keeps (h : Keeps z s) : ∀ {a0}, OutKeeps z (execXpOvlBind a0 s) :=
  out_next (runKiosk_keeps (fun _ _ _ ht => xpOvlBindEffect_keeps ht) h)

theorem xpOvlStatusEffect_keeps (h : Keeps z s) : ∀ {a0 a1}, Keeps z (xpOvlStatusEffect a0 a1 s).1 := by
  intros
  unfold xpOvlStatusEffect
  extract_lets -merge -useContext -underBinder +onlyGivenNames x0
  exact h

theorem xpOvlDefineEffect_keeps (h : Keeps z s) : ∀ {a0 a1}, Keeps z (xpOvlDefineEffect a0 a1 s).1 := by
  intros
  unfold xpOvlDefineEffect
  extract_lets -merge -useContext -underBinder +onlyGivenNames x0 x1 s2
  have hs2 : Keeps z s2 := onXp_keeps h
  clear_value s2
  exact hs2

theorem commitAccept_keeps (h : Keeps z s) : ∀ {a0 a1 a2 a3}, Keeps z (commitAccept a0 a1 a2 a3 s).1 := by
  intros
  unfold commitAccept
  extract_lets -merge -useContext -underBinder +onlyGivenNames s0 x1
  have hs0 : Keeps z s0 := onXp_keeps h
  clear_value s0
  exact keeps_ite_1 (onXp_keeps hs0) (onXp_keeps hs0)

theorem xpSceneCommitEffect_keeps (h : Keeps z s) : ∀ {a0 a1}, Keeps z (xpSceneCommitEffect a0 a1 s).1 :=
  commitAccept_keeps h

theorem execXpSceneCommit_keeps (h : Keeps z s) : ∀ {a0}, OutKeeps z (execXpSceneCommit a0 s) :=
  out_next (runKiosk_keeps (fun _ _ _ ht => xpSceneCommitEffect_keeps ht) h)

theorem execXpAlleyStatus_keeps (h : Keeps z s) : ∀ {a0}, OutKeeps z (execXpAlleyStatus a0 s) :=
  out_next (runKiosk_keeps (fun _ _ _ ht => xpAlleyStatusEffect_keeps ht) h)

theorem execXpNodeRead_keeps (h : Keeps z s) : ∀ {a0}, OutKeeps z (execXpNodeRead a0 s) :=
  out_next (runKiosk_keeps (fun _ _ _ ht => xpNodeReadEffect_keeps ht) h)

theorem xpSatReadEffect_keeps (h : Keeps z s) : ∀ {a0 a1}, Keeps z (xpSatReadEffect a0 a1 s).1 := by
  intros
  unfold xpSatReadEffect
  extract_lets -merge -useContext -underBinder +onlyGivenNames x0 x1 x2
  exact keeps_ite (onXp_keeps h) h

theorem execXpStepTimeout_keeps (h : Keeps z s) : ∀ {a0}, OutKeeps z (execXpStepTimeout a0 s) :=
  out_next (runKiosk_keeps (fun _ _ _ ht => xpStepTimeoutEffect_keeps ht) h)

theorem execXpOvlStatus_keeps (h : Keeps z s) : ∀ {a0}, OutKeeps z (execXpOvlStatus a0 s) :=
  out_next (runKiosk_keeps (fun _ _ _ ht => xpOvlStatusEffect_keeps ht) h)

theorem execXpSatRead_keeps (h : Keeps z s) : ∀ {a0}, OutKeeps z (execXpSatRead a0 s) :=
  out_next (runKiosk_keeps (fun _ _ _ ht => xpSatReadEffect_keeps ht) h)

theorem execXpOvlDefine_keeps (h : Keeps z s) : ∀ {a0}, OutKeeps z (execXpOvlDefine a0 s) :=
  out_next (runKiosk_keeps (fun _ _ _ ht => xpOvlDefineEffect_keeps ht) h)

/-! ### DrvCmd -/

theorem drvZLimitsEffect_keeps (h : Keeps z s) : ∀ {a0 a1}, Keeps z (drvZLimitsEffect a0 a1 s).1 := by
  intros
  unfold drvZLimitsEffect
  extract_lets -merge -useContext -underBinder +onlyGivenNames x0 x1
  exact keeps_ite (onChan_keeps h) h

theorem execDrvZLimits_keeps (h : Keeps z s) : ∀ {a0}, OutKeeps z (execDrvZLimits a0 s) :=
  out_next (runKiosk_keeps (fun _ _ _ ht => drvZLimitsEffect_keeps ht) h)

theorem drvLinkConfigEffect_keeps (h : Keeps z s) : ∀ {a0 a1}, Keeps z (drvLinkConfigEffect a0 a1 s).1 :=
  keeps_ite (onDrv_keeps h) h

theorem drvPilotSetEffect_keeps (h : Keeps z s) : ∀ {a0 a1}, Keeps z (drvPilotSetEffect a0 a1 s).1 := by
  intros
  unfold drvPilotSetEffect
  extract_lets -merge -useContext -underBinder +onlyGivenNames x0 x1 x2
  exact keeps_ite (onChan_keeps h) h

theorem execDrvPilotSet_keeps (h : Keeps z s) : ∀ {a0}, OutKeeps z (execDrvPilotSet a0 s) :=
  out_next (runKiosk_keeps (fun _ _ _ ht => drvPilotSetEffect_keeps ht) h)

theorem drvMonitorReadEffect_keeps (h : Keeps z s) : ∀ {a0 a1}, Keeps z (drvMonitorReadEffect a0 a1 s).1 :=
  h

theorem drvStageSetEffect_keeps (h : Keeps z s) : ∀ {a0 a1}, Keeps z (drvStageSetEffect a0 a1 s).1 := by
  intros
  unfold drvStageSetEffect
  extract_lets -merge -useContext -underBinder +onlyGivenNames x0 x1 x2
  exact onLink_keeps h

theorem execDrvStageSet_keeps (h : Keeps z s) : ∀ {a0}, OutKeeps z (execDrvStageSet a0 s) :=
  out_next (runKiosk_keeps (fun _ _ _ ht => drvStageSetEffect_keeps ht) h)

theorem drvThermalSetEffect_keeps (h : Keeps z s) : ∀ {a0 a1}, Keeps z (drvThermalSetEffect a0 a1 s).1 := by
  intros
  unfold drvThermalSetEffect
  extract_lets -merge -useContext -underBinder +onlyGivenNames x0 x1
  exact keeps_ite (onChan_keeps h) h

theorem execDrvThermalSet_keeps (h : Keeps z s) : ∀ {a0}, OutKeeps z (execDrvThermalSet a0 s) :=
  out_next (runKiosk_keeps (fun _ _ _ ht => drvThermalSetEffect_keeps ht) h)

theorem drvChannelCtlEffect_keeps (h : Keeps z s) : ∀ {a0 a1}, Keeps z (drvChannelCtlEffect a0 a1 s).1 := by
  intros
  unfold drvChannelCtlEffect
  extract_lets -merge -useContext -underBinder +onlyGivenNames x0 x1 x2
  have hx1 : ∀ x1a0, Keeps z (x1 x1a0) := by
    intro x1a0
    unfold x1
    beta_reduce
    exact onChan_keeps h
  clear_value x1
  have hx2 : ∀ x2a0, Keeps z x2a0 → Keeps z (x2 x2a0).1 := by
    intro x2a0 hx2a0
    unfold x2
    beta_reduce
    exact hx2a0
  clear_value x2
  split
  all_goals first
    | exact hx1 _
    | exact hx2 _ (onChan_keeps (probeStart_keeps h))
    | exact hx2 _ (onChan_keeps h)

theorem execDrvChannelCtl_keeps (h : Keeps z s) : ∀ {a0}, OutKeeps z (execDrvChannelCtl a0 s) :=
  out_next (runKiosk_keeps (fun _ _ _ ht => drvChannelCtlEffect_keeps ht) h)

theorem drvCtlRawEffect_keeps (h : Keeps z s) : ∀ {a0 a1}, Keeps z (drvCtlRawEffect a0 a1 s).1 := by
  intros
  unfold drvCtlRawEffect
  extract_lets -merge -useContext -underBinder +onlyGivenNames x0
  exact onLink_keeps h

theorem drvLinkStatusEffect_keeps (h : Keeps z s) : ∀ {a0 a1}, Keeps z (drvLinkStatusEffect a0 a1 s).1 := by
  intros
  unfold drvLinkStatusEffect
  extract_lets -merge -useContext -underBinder +onlyGivenNames x0
  exact keeps_ite (foldl_keeps h fun t1 t1a ht1 => onLink_keeps ht1) h

theorem execDrvLinkStatus_keeps (h : Keeps z s) : ∀ {a0}, OutKeeps z (execDrvLinkStatus a0 s) :=
  out_next (runKiosk_keeps (fun _ _ _ ht => drvLinkStatusEffect_keeps ht) h)

theorem drvCalWriteEffect_keeps (h : Keeps z s) : ∀ {a0 a1}, Keeps z (drvCalWriteEffect a0 a1 s).1 := by
  intros
  unfold drvCalWriteEffect
  extract_lets -merge -useContext -underBinder +onlyGivenNames x0 x1 x2
  exact keeps_ite (onChan_keeps h) (keeps_ite (onChan_keeps h) h)

theorem execDrvCtlRaw_keeps (h : Keeps z s) : ∀ {a0}, OutKeeps z (execDrvCtlRaw a0 s) :=
  out_next (runKiosk_keeps (fun _ _ _ ht => drvCtlRawEffect_keeps ht) h)

theorem execDrvLinkConfig_keeps (h : Keeps z s) : ∀ {a0}, OutKeeps z (execDrvLinkConfig a0 s) :=
  out_next (runKiosk_keeps (fun _ _ _ ht => drvLinkConfigEffect_keeps ht) h)

theorem drvKerbSetEffect_keeps (h : Keeps z s) : ∀ {a0 a1}, Keeps z (drvKerbSetEffect a0 a1 s).1 := by
  intros
  unfold drvKerbSetEffect
  extract_lets -merge -useContext -underBinder +onlyGivenNames x0 x1
  exact keeps_ite (onChan_keeps h) h

theorem execDrvCalWrite_keeps (h : Keeps z s) : ∀ {a0}, OutKeeps z (execDrvCalWrite a0 s) :=
  out_next (runKiosk_keeps (fun _ _ _ ht => drvCalWriteEffect_keeps ht) h)

theorem execDrvKerbSet_keeps (h : Keeps z s) : ∀ {a0}, OutKeeps z (execDrvKerbSet a0 s) :=
  out_next (runKiosk_keeps (fun _ _ _ ht => drvKerbSetEffect_keeps ht) h)

theorem execDrvMonitorRead_keeps (h : Keeps z s) : ∀ {a0}, OutKeeps z (execDrvMonitorRead a0 s) :=
  out_next (runKiosk_keeps (fun _ _ _ ht => drvMonitorReadEffect_keeps ht) h)

/-! ### NetCmd -/

theorem netRxOpenEffect_keeps (h : Keeps z s) : ∀ {a0 a1}, Keeps z (netRxOpenEffect a0 a1 s).1 :=
  membersTell_keeps (onRx_keeps h)

theorem execNetRxOpen_keeps (h : Keeps z s) : ∀ {a0}, OutKeeps z (execNetRxOpen a0 s) :=
  out_next (runKiosk_keeps (fun _ _ _ ht => netRxOpenEffect_keeps ht) h)

theorem netStatsReadEffect_keeps (h : Keeps z s) : ∀ {a0 a1}, Keeps z (netStatsReadEffect a0 a1 s).1 := by
  intros
  unfold netStatsReadEffect
  extract_lets -merge -useContext -underBinder +onlyGivenNames x0
  exact h

theorem netWakeSetEffect_keeps (h : Keeps z s) : ∀ {a0 a1}, Keeps z (netWakeSetEffect a0 a1 s).1 :=
  keeps_ite (onNet_keeps h) h

theorem netPtpStatusEffect_keeps (h : Keeps z s) : ∀ {a0 a1}, Keeps z (netPtpStatusEffect a0 a1 s).1 := by
  intros
  unfold netPtpStatusEffect
  extract_lets -merge -useContext -underBinder +onlyGivenNames x0 x1
  exact mk_free h

theorem execNetWakeSet_keeps (h : Keeps z s) : ∀ {a0}, OutKeeps z (execNetWakeSet a0 s) :=
  out_next (runKiosk_keeps (fun _ _ _ ht => netWakeSetEffect_keeps ht) h)

theorem netPortConfigEffect_keeps (h : Keeps z s) : ∀ {a0 a1}, Keeps z (netPortConfigEffect a0 a1 s).1 := by
  intros
  unfold netPortConfigEffect
  extract_lets -merge -useContext -underBinder +onlyGivenNames x0 x1 x2 x3 x4 x5 x6 x7 s8 s9
  have hs8 : Keeps z s8 := keeps_ite (linkSet_keeps h) h
  clear_value s8
  have hs9 : Keeps z s9 := onPort_keeps hs8
  clear_value s9
  exact keeps_ite_1 (keeps_ite (openGate_keeps hs9) hs9) h

theorem execNetPortConfig_keeps (h : Keeps z s) : ∀ {a0}, OutKeeps z (execNetPortConfig a0 s) :=
  out_next (runKiosk_keeps (fun _ _ _ ht => netPortConfigEffect_keeps ht) h)

theorem netRingOwnerEffect_keeps (h : Keeps z s) : ∀ {a0 a1}, Keeps z (netRingOwnerEffect a0 a1 s).1 := by
  intros
  unfold netRingOwnerEffect
  extract_lets -merge -useContext -underBinder +onlyGivenNames x0
  exact onRing_keeps h

theorem execNetRingOwner_keeps (h : Keeps z s) : ∀ {a0}, OutKeeps z (execNetRingOwner a0 s) :=
  out_next (runKiosk_keeps (fun _ _ _ ht => netRingOwnerEffect_keeps ht) h)

theorem execNetStatsRead_keeps (h : Keeps z s) : ∀ {a0}, OutKeeps z (execNetStatsRead a0 s) :=
  out_next (runKiosk_keeps (fun _ _ _ ht => netStatsReadEffect_keeps ht) h)

theorem netTxOpenEffect_keeps (h : Keeps z s) : ∀ {a0 a1}, Keeps z (netTxOpenEffect a0 a1 s).1 := by
  intros
  unfold netTxOpenEffect
  extract_lets -merge -useContext -underBinder +onlyGivenNames x0
  exact onTx_keeps h

theorem execNetTxOpen_keeps (h : Keeps z s) : ∀ {a0}, OutKeeps z (execNetTxOpen a0 s) :=
  out_next (runKiosk_keeps (fun _ _ _ ht => netTxOpenEffect_keeps ht) h)

theorem netMacsecSetEffect_keeps (h : Keeps z s) : ∀ {a0 a1}, Keeps z (netMacsecSetEffect a0 a1 s).1 := by
  intros
  unfold netMacsecSetEffect
  extract_lets -merge -useContext -underBinder +onlyGivenNames x0 x1 x2 x3 x4 x5 x6 x7 x8 x9
  exact onPort_keeps h

theorem netStreamCloseEffect_keeps (h : Keeps z s) : ∀ {a0 a1}, Keeps z (netStreamCloseEffect a0 a1 s).1 := by
  intros
  unfold netStreamCloseEffect
  extract_lets -merge -useContext -underBinder +onlyGivenNames x0 x1 s2
  have hs2 : Keeps z s2 := keeps_ite (membersTell_keeps (rxSilence_keeps (endCond_keeps (onRx_keeps h)))) (foldl_keeps (onTx_keeps h) fun t3 t3a ht3 => onPort_keeps ht3)
  clear_value s2
  exact hs2

theorem netFilterSetEffect_keeps (h : Keeps z s) : ∀ {a0 a1}, Keeps z (netFilterSetEffect a0 a1 s).1 := by
  intros
  unfold netFilterSetEffect
  extract_lets -merge -useContext -underBinder +onlyGivenNames x0 x1 x2 x3 x4 x5
  have hx4 : ∀ x4a0, Keeps z (x4 x4a0) := by
    intro x4a0
    unfold x4
    beta_reduce
    exact onPort_keeps h
  clear_value x4
  exact keeps_ite (hx4 _) (keeps_ite (hx4 _) h)

theorem execNetFilterSet_keeps (h : Keeps z s) : ∀ {a0}, OutKeeps z (execNetFilterSet a0 s) :=
  out_next (runKiosk_keeps (fun _ _ _ ht => netFilterSetEffect_keeps ht) h)

theorem netPortStatusEffect_keeps (h : Keeps z s) : ∀ {a0 a1}, Keeps z (netPortStatusEffect a0 a1 s).1 := by
  intros
  unfold netPortStatusEffect
  extract_lets -merge -useContext -underBinder +onlyGivenNames x0 x1
  exact h

theorem execNetPortStatus_keeps (h : Keeps z s) : ∀ {a0}, OutKeeps z (execNetPortStatus a0 s) :=
  out_next (runKiosk_keeps (fun _ _ _ ht => netPortStatusEffect_keeps ht) h)

theorem execNetMacsecSet_keeps (h : Keeps z s) : ∀ {a0}, OutKeeps z (execNetMacsecSet a0 s) :=
  out_next (runKiosk_keeps (fun _ _ _ ht => netMacsecSetEffect_keeps ht) h)

theorem execNetStreamClose_keeps (h : Keeps z s) : ∀ {a0}, OutKeeps z (execNetStreamClose a0 s) :=
  out_next (runKiosk_keeps (fun _ _ _ ht => netStreamCloseEffect_keeps ht) h)

theorem netStreamStatusEffect_keeps (h : Keeps z s) : ∀ {a0 a1}, Keeps z (netStreamStatusEffect a0 a1 s).1 := by
  intros
  unfold netStreamStatusEffect
  extract_lets -merge -useContext -underBinder +onlyGivenNames x0 x1 x2 x3
  exact keeps_ite_1 (keeps_ite (onRx_keeps h) h) (keeps_ite (onTx_keeps h) h)

theorem execNetStreamStatus_keeps (h : Keeps z s) : ∀ {a0}, OutKeeps z (execNetStreamStatus a0 s) :=
  out_next (runKiosk_keeps (fun _ _ _ ht => netStreamStatusEffect_keeps ht) h)

theorem netPtpConfigEffect_keeps (h : Keeps z s) : ∀ {a0 a1}, Keeps z (netPtpConfigEffect a0 a1 s).1 :=
  keeps_ite (onNet_keeps h) h

theorem execNetPtpConfig_keeps (h : Keeps z s) : ∀ {a0}, OutKeeps z (execNetPtpConfig a0 s) :=
  out_next (runKiosk_keeps (fun _ _ _ ht => netPtpConfigEffect_keeps ht) h)

theorem execNetPtpStatus_keeps (h : Keeps z s) : ∀ {a0 a1 a2}, OutKeeps z (execNetPtpStatus a0 a1 a2 s) :=
  out_next (runKiosk_keeps (fun _ _ _ ht => netPtpStatusEffect_keeps ht) h)

/-! ### PlanCmd -/

theorem playerBindEffect_keeps (h : Keeps z s) : ∀ {a0 a1}, Keeps z (playerBindEffect a0 a1 s).1 :=
  onPlayer_keeps h

theorem execPlayerBind_keeps (h : Keeps z s) : ∀ {a0}, OutKeeps z (execPlayerBind a0 s) :=
  out_next (runKiosk_keeps (fun _ _ _ ht => playerBindEffect_keeps ht) h)

theorem blkParamReadEffect_keeps (h : Keeps z s) : ∀ {a0 a1}, Keeps z (blkParamReadEffect a0 a1 s).1 :=
  h

theorem blkParamWriteEffect_keeps (h : Keeps z s) : ∀ {a0 a1}, Keeps z (blkParamWriteEffect a0 a1 s).1 :=
  outsideWrite_keeps h

theorem planStatusEffect_keeps (h : Keeps z s) : ∀ {a0 a1}, Keeps z (planStatusEffect a0 a1 s).1 := by
  intros
  unfold planStatusEffect
  extract_lets -merge -useContext -underBinder +onlyGivenNames x0
  exact h

theorem execPlanStatus_keeps (h : Keeps z s) : ∀ {a0}, OutKeeps z (execPlanStatus a0 s) :=
  out_next (runKiosk_keeps (fun _ _ _ ht => planStatusEffect_keeps ht) h)

theorem stagingGone_keeps (h : Keeps z s) : ∀ {a0}, Keeps z (stagingGone a0 s) :=
  keeps_ite (answerFail_keeps h) h

theorem planUnloadEffect_keeps (h : Keeps z s) : ∀ {a0 a1}, Keeps z (planUnloadEffect a0 a1 s).1 := by
  intros
  unfold planUnloadEffect
  extract_lets -merge -useContext -underBinder +onlyGivenNames x0 x1 s2 s3
  have hs2 : Keeps z s2 := keeps_ite (onClk_keeps h) h
  clear_value s2
  have hs3 : Keeps z s3 := stagingGone_keeps (onPlan_keeps hs2)
  clear_value s3
  exact keeps_ite_1 (onPlan_keeps hs3) (unloadPlan_keeps hs3)

theorem planLoadEffect_keeps (h : Keeps z s) : ∀ {a0 a1}, Keeps z (planLoadEffect a0 a1 s).1 :=
  onPlan_keeps h

theorem planEqBypassEffect_keeps (h : Keeps z s) : ∀ {a0 a1}, Keeps z (planEqBypassEffect a0 a1 s).1 := by
  intros
  unfold planEqBypassEffect
  extract_lets -merge -useContext -underBinder +onlyGivenNames x0 x1 s2
  have hs2 : Keeps z s2 := onPlan_keeps h
  clear_value s2
  refine keeps_ite_1 ?_ (bypassApply_keeps h)
  split
  all_goals first
    | exact keeps_ite (latSet_keeps hs2) hs2
    | exact hs2

theorem execPlanLoad_keeps (h : Keeps z s) : ∀ {a0}, OutKeeps z (execPlanLoad a0 s) :=
  out_next (runKiosk_keeps (fun _ _ _ ht => planLoadEffect_keeps ht) h)

theorem planVerifyEffect_keeps (h : Keeps z s) : ∀ {a0 a1}, Keeps z (planVerifyEffect a0 a1 s).1 :=
  h

theorem planLatencyReadEffect_keeps (h : Keeps z s) : ∀ {a0 a1}, Keeps z (planLatencyReadEffect a0 a1 s).1 := by
  intros
  unfold planLatencyReadEffect
  split
  all_goals exact h

theorem playerStatusEffect_keeps (h : Keeps z s) : ∀ {a0 a1}, Keeps z (playerStatusEffect a0 a1 s).1 :=
  h

theorem execPlayerStatus_keeps (h : Keeps z s) : ∀ {a0}, OutKeeps z (execPlayerStatus a0 s) :=
  out_next (runKiosk_keeps (fun _ _ _ ht => playerStatusEffect_keeps ht) h)

theorem execPlanUnload_keeps (h : Keeps z s) : ∀ {a0}, OutKeeps z (execPlanUnload a0 s) :=
  out_next (runKiosk_keeps (fun _ _ _ ht => planUnloadEffect_keeps ht) h)

theorem blkSosWriteEffect_keeps (h : Keeps z s) : ∀ {a0 a1}, Keeps z (blkSosWriteEffect a0 a1 s).1 := by
  intros
  unfold blkSosWriteEffect
  extract_lets -merge -useContext -underBinder +onlyGivenNames x0 x1
  exact outsideWrite_keeps h

theorem execPlanVerify_keeps (h : Keeps z s) : ∀ {a0}, OutKeeps z (execPlanVerify a0 s) :=
  out_next (runKiosk_keeps (fun _ _ _ ht => planVerifyEffect_keeps ht) h)

theorem execPlanEqBypass_keeps (h : Keeps z s) : ∀ {a0}, OutKeeps z (execPlanEqBypass a0 s) :=
  out_next (runKiosk_keeps (fun _ _ _ ht => planEqBypassEffect_keeps ht) h)

theorem startSwap_keeps (h : Keeps z s) : ∀ {a0}, Keeps z (startSwap a0 s).1 :=
  reserveChain_keeps h

theorem execBlkParamWrite_keeps (h : Keeps z s) : ∀ {a0}, OutKeeps z (execBlkParamWrite a0 s) :=
  out_next (runKiosk_keeps (fun _ _ _ ht => blkParamWriteEffect_keeps ht) h)

theorem playerStartEffect_keeps (h : Keeps z s) : ∀ {a0 a1}, Keeps z (playerStartEffect a0 a1 s).1 := by
  intros
  unfold playerStartEffect
  extract_lets -merge -useContext -underBinder +onlyGivenNames x0
  exact onPlayer_keeps h

theorem execPlayerStart_keeps (h : Keeps z s) : ∀ {a0}, OutKeeps z (execPlayerStart a0 s) :=
  out_next (runKiosk_keeps (fun _ _ _ ht => playerStartEffect_keeps ht) h)

theorem blkStatusEffect_keeps (h : Keeps z s) : ∀ {a0 a1}, Keeps z (blkStatusEffect a0 a1 s).1 := by
  intros
  unfold blkStatusEffect
  split
  all_goals first
    | exact h
    | skip
      extract_lets -merge -useContext -underBinder +onlyGivenNames x0 x1 s2
      have hs2 : Keeps z s2 := keeps_ite (foldl_keeps h fun t3 t3a ht3 => onLane_keeps ht3) h
      clear_value s2
      exact hs2

theorem execBlkStatus_keeps (h : Keeps z s) : ∀ {a0}, OutKeeps z (execBlkStatus a0 s) :=
  out_next (runKiosk_keeps (fun _ _ _ ht => blkStatusEffect_keeps ht) h)

theorem planBlockInsertEffect_keeps (h : Keeps z s) : ∀ {a0 a1}, Keeps z (planBlockInsertEffect a0 a1 s).1 := by
  intros
  unfold planBlockInsertEffect
  split
  all_goals first
    | exact h
    | skip
      split
      all_goals first
        | exact startSwap_keeps h
        | exact h

theorem execPlanStaged_keeps (h : Keeps z s) : ∀ {a0}, OutKeeps z (execPlanStaged a0 s) := by
  intros
  unfold execPlanStaged
  split
  all_goals first
    | exact out_next h
    | skip
      refine out_ite (out_next h) ?_
      split
      all_goals first
        | exact out_next (answerFail_keeps (onPlan_keeps h))
        | skip
          extract_lets -merge -useContext -underBinder +onlyGivenNames x0 x1 x2 x3 s4 s5
          have hs4 : Keeps z s4 := keeps_ite (onClk_keeps h) h
          clear_value s4
          have hs5 : Keeps z s5 := onPlan_keeps hs4
          clear_value s5
          exact out_next (answerOk_keeps hs5)

theorem execBlkSosWrite_keeps (h : Keeps z s) : ∀ {a0}, OutKeeps z (execBlkSosWrite a0 s) :=
  out_next (runKiosk_keeps (fun _ _ _ ht => blkSosWriteEffect_keeps ht) h)

theorem blkCoefWriteEffect_keeps (h : Keeps z s) : ∀ {a0 a1}, Keeps z (blkCoefWriteEffect a0 a1 s).1 :=
  outsideWrite_keeps h

theorem execPlanLatencyRead_keeps (h : Keeps z s) : ∀ {a0}, OutKeeps z (execPlanLatencyRead a0 s) :=
  out_next (runKiosk_keeps (fun _ _ _ ht => planLatencyReadEffect_keeps ht) h)

theorem playerStopEffect_keeps (h : Keeps z s) : ∀ {a0 a1}, Keeps z (playerStopEffect a0 a1 s).1 := by
  intros
  unfold playerStopEffect
  extract_lets -merge -useContext -underBinder +onlyGivenNames x0
  exact onPlayer_keeps h

theorem execPlayerStop_keeps (h : Keeps z s) : ∀ {a0}, OutKeeps z (execPlayerStop a0 s) :=
  out_next (runKiosk_keeps (fun _ _ _ ht => playerStopEffect_keeps ht) h)

theorem execPlanBlockInsert_keeps (h : Keeps z s) : ∀ {a0}, OutKeeps z (execPlanBlockInsert a0 s) :=
  out_next (runKiosk_keeps (fun _ _ _ ht => planBlockInsertEffect_keeps ht) h)

theorem execBlkParamRead_keeps (h : Keeps z s) : ∀ {a0}, OutKeeps z (execBlkParamRead a0 s) :=
  out_next (runKiosk_keeps (fun _ _ _ ht => blkParamReadEffect_keeps ht) h)

theorem execBlkCoefWrite_keeps (h : Keeps z s) : ∀ {a0}, OutKeeps z (execBlkCoefWrite a0 s) :=
  out_next (runKiosk_keeps (fun _ _ _ ht => blkCoefWriteEffect_keeps ht) h)

theorem planBlockRemoveEffect_keeps (h : Keeps z s) : ∀ {a0 a1}, Keeps z (planBlockRemoveEffect a0 a1 s).1 := by
  intros
  unfold planBlockRemoveEffect
  split
  all_goals first
    | exact h
    | exact startSwap_keeps h

theorem execPlanBlockRemove_keeps (h : Keeps z s) : ∀ {a0}, OutKeeps z (execPlanBlockRemove a0 s) :=
  out_next (runKiosk_keeps (fun _ _ _ ht => planBlockRemoveEffect_keeps ht) h)

/-! ### Lio -/

theorem stickLio_keeps (h : Keeps z s) : ∀ {a0}, Keeps z (stickLio a0 s) :=
  onLio_keeps h

theorem compareMod_keeps (h : Keeps z s) : ∀ {a0}, Keeps z (compareMod a0 s) := by
  intros
  unfold compareMod
  extract_lets -merge -useContext -underBinder +onlyGivenNames x0 s1
  have hs1 : Keeps z s1 := onMod_keeps h
  clear_value s1
  exact keeps_ite (keeps_ite hs1 (raise_keeps (stickLio_keeps hs1))) (onMod_keeps h)

theorem execStageDmirRetry_keeps (h : Keeps z s) : ∀ {a0}, OutKeeps z (execStageDmirRetry a0 s) := by
  intros
  unfold execStageDmirRetry
  extract_lets -merge -useContext -underBinder +onlyGivenNames x0
  split
  all_goals first
    | exact out_next (keeps_ite (dmirStart_keeps h) h)
    | exact out_next h

theorem compareAll_keeps (h : Keeps z s) : Keeps z (compareAll s) :=
  foldl_keeps h fun t0 t0a ht0 => compareMod_keeps ht0

theorem onGroup_keeps (h : Keeps z s) : ∀ {a0 a1}, Keeps z (onGroup a0 a1 s) :=
  onLio_keeps h

theorem lioPortConfigEffect_keeps (h : Keeps z s) : ∀ {a0 a1}, Keeps z (lioPortConfigEffect a0 a1 s).1 := by
  intros
  unfold lioPortConfigEffect
  extract_lets -merge -useContext -underBinder +onlyGivenNames x0 x1 x2 x3 s4
  have hs4 : Keeps z s4 := onGroup_keeps h
  clear_value s4
  exact keeps_ite_1 (keeps_ite (openGate_keeps hs4) hs4) h

theorem stageCal_keeps (h : Keeps z s) : ∀ {a0}, Keeps z (stageCal a0 s) := by
  intros
  unfold stageCal
  extract_lets -merge -useContext -underBinder +onlyGivenNames x0
  exact foldl_keeps h fun t1 t1a ht1 => onChan_keeps ht1

theorem dmirRead_keeps (h : Keeps z s) : ∀ {a0 a1}, Keeps z (dmirRead a0 a1 s) := by
  intros
  unfold dmirRead
  extract_lets -merge -useContext -underBinder +onlyGivenNames x0 x1 x2 s3 s4 s5
  have hs3 : Keeps z s3 := onMod_keeps h
  clear_value s3
  have hs4 : Keeps z s4 := keeps_ite (raise_keeps (stickLio_keeps hs3)) hs3
  clear_value s4
  have hs5 : Keeps z s5 := keeps_ite (compareMod_keeps hs4) (raise_keeps (stickLio_keeps (onMod_keeps hs4)))
  clear_value s5
  exact keeps_ite (stageCal_keeps hs5) hs5

theorem moduleDone_keeps (h : Keeps z s) : ∀ {a0}, Keeps z (moduleDone a0 s) :=
  censusEnd_keeps (onLio_keeps h)

theorem execStageDmirReadComplete_keeps (h : Keeps z s) : ∀ {a0}, OutKeeps z (execStageDmirReadComplete a0 s) := by
  intros
  unfold execStageDmirReadComplete
  extract_lets -merge -useContext -underBinder +onlyGivenNames x0 x1
  exact out_ite (out_next (moduleDone_keeps (dmirRead_keeps (onLink_keeps h)))) (out_next h)

theorem unreadable_keeps (h : Keeps z s) : ∀ {a0}, Keeps z (unreadable a0 s) :=
  stickLio_keeps (onMod_keeps h)

theorem censusReadEffect_keeps (h : Keeps z s) : ∀ {a0 a1}, Keeps z (censusReadEffect a0 a1 s).1 := by
  intros
  unfold censusReadEffect
  extract_lets -merge -useContext -underBinder +onlyGivenNames x0
  exact h

theorem execCensusRead_keeps (h : Keeps z s) : ∀ {a0}, OutKeeps z (execCensusRead a0 s) :=
  out_next (runKiosk_keeps (fun _ _ _ ht => censusReadEffect_keeps ht) h)

theorem censusSummaryEffect_keeps (h : Keeps z s) : ∀ {a0 a1}, Keeps z (censusSummaryEffect a0 a1 s).1 :=
  h

theorem execCensusSummary_keeps (h : Keeps z s) : ∀ {a0}, OutKeeps z (execCensusSummary a0 s) :=
  out_next (runKiosk_keeps (fun _ _ _ ht => censusSummaryEffect_keeps ht) h)

theorem censusPlanCheckEffect_keeps (h : Keeps z s) : ∀ {a0 a1}, Keeps z (censusPlanCheckEffect a0 a1 s).1 := by
  intros
  unfold censusPlanCheckEffect
  extract_lets -merge -useContext -underBinder +onlyGivenNames x0
  exact h

theorem lioMclkSetEffect_keeps (h : Keeps z s) : ∀ {a0 a1}, Keeps z (lioMclkSetEffect a0 a1 s).1 := by
  intros
  unfold lioMclkSetEffect
  extract_lets -merge -useContext -underBinder +onlyGivenNames x0 x1 s2
  have hs2 : Keeps z s2 := keeps_ite h (onLio_keeps h)
  clear_value s2
  exact keeps_ite_1 (keeps_ite hs2 (drivePin_keeps (openGate_keeps hs2))) h

theorem execLioMclkSet_keeps (h : Keeps z s) : ∀ {a0}, OutKeeps z (execLioMclkSet a0 s) :=
  out_next (runKiosk_keeps (fun _ _ _ ht => lioMclkSetEffect_keeps ht) h)

theorem readStart_keeps (h : Keeps z s) : ∀ {a0}, Keeps z (readStart a0 s) :=
  onMod_keeps h

theorem probeModule_keeps (h : Keeps z s) : ∀ {a0 a1 a2}, Keeps z (probeModule a0 a1 a2 s) := by
  intros
  unfold probeModule
  split
  all_goals first
    | exact onMod_keeps h
    | skip
      extract_lets -merge -useContext -underBinder +onlyGivenNames x0
      exact keeps_ite (onLio_keeps (readStart_keeps h)) (keeps_ite (readStart_keeps h) h)

theorem execCensusProbe_keeps (h : Keeps z s) : ∀ {a0}, OutKeeps z (execCensusProbe a0 s) := by
  intros
  unfold execCensusProbe
  extract_lets -merge -useContext -underBinder +onlyGivenNames x0 s1
  have hs1 : Keeps z s1 := onLio_keeps h
  clear_value s1
  exact out_ite (out_next h) (out_ite (out_next (censusEnd_keeps (foldl_keeps hs1 fun t2 t2a ht2 => probeModule_keeps ht2))) (out_next h))

theorem readFailed_keeps (h : Keeps z s) : ∀ {a0}, Keeps z (readFailed a0 s) :=
  keeps_ite (onMod_keeps h) (moduleDone_keeps (raise_keeps (unreadable_keeps h)))

theorem execCensusReadRetry_keeps (h : Keeps z s) : ∀ {a0}, OutKeeps z (execCensusReadRetry a0 s) :=
  out_next (keeps_ite (readFailed_keeps h) h)

theorem tdmStop_keeps (h : Keeps z s) : Keeps z (tdmStop s) :=
  foldl_keeps (onSig_keeps h) fun t0 t0a ht0 => onGroup_keeps ht0

theorem groupLatch_keeps (h : Keeps z s) : ∀ {a0 a1}, Keeps z (groupLatch a0 a1 s) := by
  intros
  unfold groupLatch
  extract_lets -merge -useContext -underBinder +onlyGivenNames s0
  have hs0 : Keeps z s0 := onSig_keeps h
  clear_value s0
  split
  all_goals first
    | exact hs0
    | skip
      refine foldl_keeps hs0 (fun t1 t1a ht1 => ?_)
      split
      all_goals first
        | exact onSig_keeps ht1
        | exact ht1

theorem execLioPortConfig_keeps (h : Keeps z s) : ∀ {a0}, OutKeeps z (execLioPortConfig a0 s) :=
  out_next (runKiosk_keeps (fun _ _ _ ht => lioPortConfigEffect_keeps ht) h)

theorem censusRunEffect_keeps (h : Keeps z s) : ∀ {a0 a1}, Keeps z (censusRunEffect a0 a1 s).1 := by
  intros
  unfold censusRunEffect
  extract_lets -merge -useContext -underBinder +onlyGivenNames x0
  exact keeps_ite_1 (onLio_keeps h) (runStart_keeps h)

theorem execCensusRun_keeps (h : Keeps z s) : ∀ {a0}, OutKeeps z (execCensusRun a0 s) :=
  out_next (runKiosk_keeps (fun _ _ _ ht => censusRunEffect_keeps ht) h)

theorem execI2cBusStuck_keeps (h : Keeps z s) : ∀ {a0 a1}, OutKeeps z (execI2cBusStuck a0 a1 s) := by
  intros
  unfold execI2cBusStuck
  extract_lets -merge -useContext -underBinder +onlyGivenNames s0
  have hs0 : Keeps z s0 := raise_keeps (stickLio_keeps h)
  clear_value s0
  exact out_ite (out_next h) (out_next (foldl_keeps hs0 fun t1 t1a ht1 => moduleDone_keeps (unreadable_keeps ht1)))

theorem execCensusPlanCheck_keeps (h : Keeps z s) : ∀ {a0}, OutKeeps z (execCensusPlanCheck a0 s) :=
  out_next (runKiosk_keeps (fun _ _ _ ht => censusPlanCheckEffect_keeps ht) h)

theorem groupFrame_keeps (h : Keeps z s) : ∀ {a0}, Keeps z (groupFrame a0 s) := by
  intros
  unfold groupFrame
  extract_lets -merge -useContext -underBinder +onlyGivenNames x0 x1 s2 x3
  have hs2 : Keeps z s2 := onGroup_keeps h
  clear_value s2
  refine keeps_ite ?_ hs2
  refine foldl_keeps hs2 (fun t4 t4a ht4 => ?_)
  extract_lets -merge -useContext -underBinder +onlyGivenNames x5 x6
  exact onSig_keeps ht4

theorem execCensusReadComplete_keeps (h : Keeps z s) : ∀ {a0 a1}, OutKeeps z (execCensusReadComplete a0 a1 s) := by
  intros
  unfold execCensusReadComplete
  extract_lets -merge -useContext -underBinder +onlyGivenNames x0
  exact out_ite (out_next (keeps_ite (moduleDone_keeps (dmirRead_keeps h)) (readFailed_keeps h))) (out_next h)

theorem tdmFrames_keeps (h : Keeps z s) : Keeps z (tdmFrames s) :=
  foldl_keeps (onSig_keeps h) fun t0 t0a ht0 => groupFrame_keeps ht0

/-! ### Engine -/

theorem sysFail_keeps (h : Keeps z s) : Keeps z (sysFail s) :=
  onClk_keeps h

theorem stopSas_keeps (h : Keeps z s) : ∀ {a0}, Keeps z (stopSas a0 s) :=
  foldl_keeps h fun t0 t0a ht0 => onPort_keeps ht0

theorem onDp_keeps (h : Keeps z s) : ∀ {a0 a1}, Keeps z (onDp a0 a1 s) :=
  onHost_keeps h

theorem dpCloseAll_keeps (h : Keeps z s) : ∀ {a0}, Keeps z (dpCloseAll a0 s) :=
  foldl_keeps h fun t0 t0a ht0 => onDp_keeps ht0

theorem sessionEnd_keeps (h : Keeps z s) : Keeps z (sessionEnd s) :=
  dpCloseAll_keeps (onSm_keeps h)

theorem zeroVolatile_keeps (h : Keeps z s) : Keeps z (zeroVolatile s) :=
  stopSas_keeps (sessionEnd_keeps (onSm_keeps h))

theorem leaveApproved_keeps (h : Keeps z s) : Keeps z (leaveApproved s) :=
  keeps_ite (zeroVolatile_keeps (onSm_keeps h)) h

theorem resetBase_keeps (h : Keeps z s) : Keeps z (resetBase s) :=
  ⟨h.1, fun hz => memWf_filter _ _ (h.2 hz)⟩

theorem systemReset_keeps (h : Keeps z s) : ∀ {a0}, Keeps z (systemReset a0 s) :=
  keeps_ite h (onClk_keeps (resetBase_keeps h))

theorem stopWaves_keeps (h : Keeps z s) : Keeps z (stopWaves s) :=
  onWave_keeps (abandonAll_keeps (xpReplies_keeps h))

theorem mediaFail_keeps (h : Keeps z s) : Keeps z (mediaFail s) := by
  unfold mediaFail
  extract_lets -merge -useContext -underBinder +onlyGivenNames s0 s1
  have hs0 : Keeps z s0 := tdmStop_keeps (linksIdle_keeps (stopWaves_keeps h))
  clear_value s0
  have hs1 : Keeps z s1 := onWave_keeps hs0
  clear_value s1
  exact onClk_keeps hs1

theorem clockAbsent_keeps (h : Keeps z s) : Keeps z (clockAbsent s) :=
  keeps_ite h (onClk_keeps (systemReset_keeps h))

theorem pinsFuse_keeps (h : Keeps z s) : Keeps z (pinsFuse s) :=
  onClk_keeps h

theorem zeroStore_keeps (h : Keeps z s) : Keeps z (zeroStore s) :=
  zeroVolatile_keeps (onSm_keeps h)

theorem zeroTotal_keeps (h : Keeps z s) : Keeps z (zeroTotal s) :=
  zeroStore_keeps (onSm_keeps h)

theorem hostLost_keeps (h : Keeps z s) : Keeps z (hostLost s) := by
  unfold hostLost
  extract_lets -merge -useContext -underBinder +onlyGivenNames s0
  have hs0 : Keeps z s0 := dpCloseAll_keeps h
  clear_value s0
  exact foldl_keeps hs0 fun t1 t1a ht1 => onKiosk_keeps ht1

theorem closeInj_keeps (h : Keeps z s) : ∀ {a0}, Keeps z (closeInj a0 s) := by
  intros
  unfold closeInj
  split
  all_goals first
    | exact h
    | skip
      extract_lets -merge -useContext -underBinder +onlyGivenNames x0 s1 s2 x3 s4 s5
      have hs1 : Keeps z s1 := onFlt_keeps h
      clear_value s1
      have hs2 : Keeps z s2 := onFlt_keeps hs1
      clear_value s2
      have hs4 : Keeps z s4 := keeps_ite (keeps_ite (keeps_ite (putRep_keeps hs2) hs2) (foldl_keeps hs2 fun t6 t6a ht6 => putRep_keeps ht6)) hs1
      clear_value s4
      have hs5 : Keeps z s5 := keeps_ite (putRep_keeps hs4) hs4
      clear_value s5
      exact putRep_keeps hs5

theorem nolutReset_keeps (h : Keeps z s) : Keeps z (nolutReset s) := by
  unfold nolutReset
  extract_lets -merge -useContext -underBinder +onlyGivenNames s0 s1 s2 s3 s4 s5 s6
  have hs0 : Keeps z s0 := sessionEnd_keeps (onSm_keeps h)
  clear_value s0
  have hs1 : Keeps z s1 := onHost_keeps hs0
  clear_value s1
  have hs2 : Keeps z s2 := onMat_keeps hs1 (fun hm => memWf_filter _ _ hm)
  clear_value s2
  have hs3 : Keeps z s3 := onNet_keeps hs2
  clear_value s3
  have hs4 : Keeps z s4 := onPlan_keeps hs3
  clear_value s4
  have hs5 : Keeps z s5 := foldl_keeps hs4 fun t7 t7a ht7 => closeInj_keeps ht7
  clear_value s5
  have hs6 : Keeps z s6 := keeps_ite (raise_keeps hs5) hs5
  clear_value s6
  exact keeps_ite h (onClk_keeps hs6)

theorem smFail_keeps (h : Keeps z s) : Keeps z (smFail s) := by
  unfold smFail
  split
  all_goals first
    | exact answerFail_keeps (onSm_keeps h)
    | exact h

theorem sdsFail_keeps (h : Keeps z s) : Keeps z (sdsFail s) := by
  unfold sdsFail
  extract_lets -merge -useContext -underBinder +onlyGivenNames s0 s1
  have hs0 : Keeps z s0 := onClk_keeps h
  clear_value s0
  have hs1 : Keeps z s1 := foldl_keeps hs0 fun t2 t2a ht2 => linkSet_keeps ht2
  clear_value s1
  exact octEval_keeps (onTwin_keeps hs1)

theorem powerOn_keeps (h : Keeps z s) : Keeps z (powerOn s) :=
  onClk_keeps (resetBase_keeps h)

theorem ddrFail_keeps (h : Keeps z s) : Keeps z (ddrFail s) :=
  dpCloseAll_keeps (onMat_keeps h (fun hm => hm))

/-! ### Faults -/

theorem fltInjectCancelEffect_keeps (h : Keeps z s) : ∀ {a0 a1}, Keeps z (fltInjectCancelEffect a0 a1 s).1 := by
  intros
  unfold fltInjectCancelEffect
  extract_lets -merge -useContext -underBinder +onlyGivenNames x0
  exact keeps_ite (foldl_keeps h fun t1 t1a ht1 => closeInj_keeps ht1) (closeInj_keeps h)

theorem execFltInjectCancel_keeps (h : Keeps z s) : ∀ {a0}, OutKeeps z (execFltInjectCancel a0 s) :=
  out_next (runKiosk_keeps (fun _ _ _ ht => fltInjectCancelEffect_keeps ht) h)

theorem haltFirmware_keeps (h : Keeps z s) : ∀ {a0}, Keeps z (haltFirmware a0 s) := by
  intros
  unfold haltFirmware
  extract_lets -merge -useContext -underBinder +onlyGivenNames x0 s1 s2 s3
  have hs1 : Keeps z s1 := foldl_keeps h fun t4 t4a ht4 => onKiosk_keeps ht4
  clear_value s1
  have hs2 : Keeps z s2 := onHost_keeps hs1
  clear_value s2
  have hs3 : Keeps z s3 := keeps_ite (k0Show_keeps hs2) hs2
  clear_value s3
  exact onHost_keeps hs3

theorem nfaultTell_keeps (h : Keeps z s) : Keeps z (nfaultTell s) :=
  sendMsi_keeps (setIrq_keeps h)

theorem reactFatal_keeps (h : Keeps z s) : ∀ {a0}, Keeps z (reactFatal a0 s) := by
  intros
  unfold reactFatal
  extract_lets -merge -useContext -underBinder +onlyGivenNames s0 s1 s2 s3 s4
  have hs0 : Keeps z s0 := onFlt_keeps h
  clear_value s0
  have hs1 : Keeps z s1 := tdmStop_keeps (linksIdle_keeps (stopWaves_keeps (pinsFuse_keeps hs0)))
  clear_value s1
  have hs2 : Keeps z s2 := onTwin_keeps hs1
  clear_value s2
  have hs3 : Keeps z s3 := keeps_ite (setTwin_keeps hs2) hs2
  clear_value s3
  have hs4 : Keeps z s4 := foldl_keeps hs3 fun t5 t5a ht5 => onPort_keeps ht5
  clear_value s4
  exact keeps_ite h (haltFirmware_keeps (nfaultTell_keeps hs4))

theorem dropWork_keeps (h : Keeps z s) : ∀ {a0}, Keeps z (dropWork a0 s) :=
  onWave_keeps h

theorem injectedAct_keeps (h : Keeps z s) : ∀ {a0 a1}, Keeps z (injectedAct a0 a1 s) :=
  keeps_ite (urgentMove_keeps h) (keeps_ite (urgentMove_keeps h) (keeps_ite (nolutReset_keeps h) (keeps_ite (smFail_keeps h) h)))

theorem instNote_keeps (h : Keeps z s) : ∀ {a0 a1 a2 a3}, Keeps z (instNote a0 a1 a2 a3 s) := by
  intros
  unfold instNote
  extract_lets -merge -useContext -underBinder +onlyGivenNames x0 x1
  have hx1 : ∀ x1a0, Keeps z (x1 x1a0) := by
    intro x1a0
    unfold x1
    beta_reduce
    exact onFlt_keeps h
  clear_value x1
  split
  all_goals first
    | exact hx1 _
    | skip
      extract_lets -merge -useContext -underBinder +onlyGivenNames x2
      refine keeps_ite (hx1 _) ?_
      split
      all_goals first
        | exact hx1 _
        | exact h

theorem flushMerge_keeps (h : Keeps z s) : ∀ {a0}, Keeps z (flushMerge a0 s) :=
  keeps_ite h (logRec_keeps h)

theorem noteEnded_keeps (h : Keeps z s) : ∀ {a0 a1}, Keeps z (noteEnded a0 a1 s) := by
  intros
  unfold noteEnded
  extract_lets -merge -useContext -underBinder +onlyGivenNames x0 s1 s2
  have hs1 : Keeps z s1 := foldl_keeps h fun t3 t3a ht3 => flushMerge_keeps ht3
  clear_value s1
  have hs2 : Keeps z s2 := onFlt_keeps hs1
  clear_value s2
  exact logRec_keeps hs2

theorem noteRep_keeps (h : Keeps z s) : ∀ {a0 a1}, Keeps z (noteRep a0 a1 s) := by
  intros
  unfold noteRep
  split
  all_goals first
    | exact onFlt_keeps h
    | skip
      extract_lets -merge -useContext -underBinder +onlyGivenNames s0 x1
      have hs0 : Keeps z s0 := onFlt_keeps h
      clear_value s0
      exact keeps_ite (logPut_keeps hs0) (logRec_keeps hs0)

theorem reactSevere_keeps (h : Keeps z s) : ∀ {a0}, Keeps z (reactSevere a0 s) := by
  intros
  unfold reactSevere
  extract_lets -merge -useContext -underBinder +onlyGivenNames s0 s1 s2 s3
  have hs0 : Keeps z s0 := onFlt_keeps h
  clear_value s0
  have hs1 : Keeps z s1 := onTwin_keeps hs0
  clear_value s1
  have hs2 : Keeps z s2 := keeps_ite hs1 (nfaultTell_keeps (onFlt_keeps hs1))
  clear_value s2
  have hs3 : Keeps z s3 := keeps_ite hs2 (yieldSoon_keeps hs2)
  clear_value s3
  exact keeps_ite (injectedAct_keeps hs3) hs3

theorem collect_keeps (h : Keeps z s) : ∀ {a0}, Keeps z (collect a0 s) := by
  intros
  unfold collect
  split
  all_goals first
    | exact h
    | skip
      extract_lets -merge -useContext -underBinder +onlyGivenNames x0 x1 s2
      have hs2 : Keeps z s2 := noteRep_keeps (instNote_keeps h)
      clear_value s2
      exact keeps_ite (noteEnded_keeps h) (keeps_ite (onFlt_keeps hs2) (keeps_ite (onFlt_keeps hs2) (keeps_ite (reactSevere_keeps hs2) (keeps_ite (reactFatal_keeps hs2) hs2))))

theorem isolate_keeps (h : Keeps z s) : ∀ {a0 a1}, Keeps z (isolate a0 a1 s) :=
  keeps_ite (onPlayer_keeps h) (keeps_ite (onXp_keeps h) (keeps_ite (onXp_keeps h) (keeps_ite (onXp_keeps h) (keeps_ite (urgentMove_keeps (dropWork_keeps h)) (keeps_ite (dropWork_keeps h) (keeps_ite (urgentMove_keeps (dropWork_keeps h)) (keeps_ite (sysFail_keeps h) (keeps_ite (mediaFail_keeps h) (keeps_ite (nolutReset_keeps h) (keeps_ite (smFail_keeps h) (keeps_ite (ddrFail_keeps h) h)))))))))))

theorem lineBreaks_keeps (h : Keeps z s) : ∀ {a0 a1}, Keeps z (lineBreaks a0 a1 s) := by
  intros
  unfold lineBreaks
  extract_lets -merge -useContext -underBinder +onlyGivenNames x0 x1 x2 s3 x4 s5
  have hs3 : Keeps z s3 := instNote_keeps (onFlt_keeps h)
  clear_value s3
  have hs5 : Keeps z s5 := collect_keeps hs3
  clear_value s5
  exact keeps_ite (isolate_keeps hs5) (injectedAct_keeps hs5)

theorem lineRestored_keeps (h : Keeps z s) : ∀ {a0}, Keeps z (lineRestored a0 s) := by
  intros
  unfold lineRestored
  extract_lets -merge -useContext -underBinder +onlyGivenNames x0 x1 s2 x3 s4 s5
  have hs2 : Keeps z s2 := onFlt_keeps h
  clear_value s2
  have hs4 : Keeps z s4 := collect_keeps hs2
  clear_value s4
  have hs5 : Keeps z s5 := keeps_ite (collect_keeps hs4) hs4
  clear_value s5
  exact keeps_ite (collect_keeps hs5) hs5

theorem holdBack_keeps (h : Keeps z s) : ∀ {a0}, Keeps z (holdBack a0 s) :=
  onFlt_keeps h

theorem scanRep_keeps (h : Keeps z s) : ∀ {a0 a2}, Keeps z (scanRep a0 s a2) := by
  intros
  unfold scanRep
  extract_lets -merge -useContext -underBinder +onlyGivenNames x0
  exact keeps_ite h (keeps_ite (keeps_ite h (holdBack_keeps h)) (keeps_ite (onFlt_keeps h) (keeps_ite (onFlt_keeps h) (collect_keeps h))))

theorem execFaultLineScan_keeps (h : Keeps z s) : ∀ {a0}, OutKeeps z (execFaultLineScan a0 s) := by
  intros
  unfold execFaultLineScan
  extract_lets -merge -useContext -underBinder +onlyGivenNames s0 x1 x2 x3 x4 x5 x6 s7 s8 s9 s10
  have hs0 : Keeps z s0 := ptpTimer_keeps (onClk_keeps h)
  clear_value s0
  have hs7 : Keeps z s7 := onFlt_keeps hs0
  clear_value s7
  have hs8 : Keeps z s8 := foldl_keeps hs7 fun t11 t11a ht11 => lineBreaks_keeps ht11
  clear_value s8
  have hs9 : Keeps z s9 := foldl_keeps hs8 fun t12 t12a ht12 => lineRestored_keeps ht12
  clear_value s9
  have hs10 : Keeps z s10 := foldl_keeps hs9 fun t13 t13a ht13 => scanRep_keeps ht13
  clear_value s10
  exact out_ite (out_next hs0) (out_next (onFlt_keeps hs10))

theorem execFirmwareFaultReport_keeps (h : Keeps z s) : OutKeeps z (execFirmwareFaultReport s) := by
  unfold execFirmwareFaultReport
  split
  all_goals first
    | exact out_next (collect_keeps (onFlt_keeps h))
    | exact out_next h

theorem fltInjectStatusEffect_keeps (h : Keeps z s) : ∀ {a0 a1}, Keeps z (fltInjectStatusEffect a0 a1 s).1 :=
  h

theorem execFltInjectStatus_keeps (h : Keeps z s) : ∀ {a0}, OutKeeps z (execFltInjectStatus a0 s) :=
  out_next (runKiosk_keeps (fun _ _ _ ht => fltInjectStatusEffect_keeps ht) h)

theorem fltStatusReadEffect_keeps (h : Keeps z s) : ∀ {a0 a1}, Keeps z (fltStatusReadEffect a0 a1 s).1 :=
  h

theorem execFltStatusRead_keeps (h : Keeps z s) : ∀ {a0}, OutKeeps z (execFltStatusRead a0 s) :=
  out_next (runKiosk_keeps (fun _ _ _ ht => fltStatusReadEffect_keeps ht) h)

theorem execInjectionWindowEnd_keeps (h : Keeps z s) : OutKeeps z (execInjectionWindowEnd s) := by
  unfold execInjectionWindowEnd
  extract_lets -merge -useContext -underBinder +onlyGivenNames x0
  exact out_next (foldl_keeps h fun t1 t1a ht1 => keeps_ite (closeInj_keeps ht1) ht1)

theorem execFaultMergeFlush_keeps (h : Keeps z s) : OutKeeps z (execFaultMergeFlush s) := by
  unfold execFaultMergeFlush
  extract_lets -merge -useContext -underBinder +onlyGivenNames x0 s1
  have hs1 : Keeps z s1 := onFlt_keeps h
  clear_value s1
  exact out_next (foldl_keeps hs1 fun t2 t2a ht2 => flushMerge_keeps ht2)

theorem fltInjectEffect_keeps (h : Keeps z s) : ∀ {a0 a1}, Keeps z (fltInjectEffect a0 a1 s).1 := by
  intros
  unfold fltInjectEffect
  extract_lets -merge -useContext -underBinder +onlyGivenNames x0 x1 x2 x3 x4 s5 s6 s7
  have hs5 : Keeps z s5 := onFlt_keeps h
  clear_value s5
  have hs6 : Keeps z s6 := instNote_keeps (putRep_keeps hs5)
  clear_value s6
  have hs7 : Keeps z s7 := keeps_ite hs6 (putRep_keeps hs6)
  clear_value s7
  exact keeps_ite (leaveApproved_keeps hs7) hs7

theorem execFltInject_keeps (h : Keeps z s) : ∀ {a0}, OutKeeps z (execFltInject a0 s) :=
  out_next (runKiosk_keeps (fun _ _ _ ht => fltInjectEffect_keeps ht) h)

theorem execFltNfaultWrite_keeps (h : Keeps z s) : ∀ {a0}, OutKeeps z (execFltNfaultWrite a0 s) := by
  intros
  unfold execFltNfaultWrite
  extract_lets -merge -useContext -underBinder +onlyGivenNames x0
  exact out_next (onFlt_keeps h)

theorem fltSourceReadEffect_keeps (h : Keeps z s) : ∀ {a0 a1}, Keeps z (fltSourceReadEffect a0 a1 s).1 := by
  intros
  unfold fltSourceReadEffect
  extract_lets -merge -useContext -underBinder +onlyGivenNames x0 x1 x2 x3
  exact keeps_ite (onFlt_keeps h) h

theorem execNfaultPulseEnd_keeps (h : Keeps z s) : OutKeeps z (execNfaultPulseEnd s) := by
  unfold execNfaultPulseEnd
  split
  all_goals first
    | exact out_ite (out_next (onFlt_keeps h)) (out_next h)
    | exact out_next h

theorem execFltSourceRead_keeps (h : Keeps z s) : ∀ {a0}, OutKeeps z (execFltSourceRead a0 s) :=
  out_next (runKiosk_keeps (fun _ _ _ ht => fltSourceReadEffect_keeps ht) h)

/-! ### Rebase -/

theorem rebaseWaves_keeps (h : Keeps z s) : ∀ {a0 a1}, Keeps z (rebaseWaves a0 a1 s) := by
  intros
  unfold rebaseWaves
  extract_lets -merge -useContext -underBinder +onlyGivenNames x0 s1
  have hs1 : Keeps z s1 := onPlace_keeps (onPlan_keeps (onXp_keeps h))
  clear_value s1
  exact onClk_keeps hs1

theorem rebaseTicks_keeps (h : Keeps z s) : ∀ {a0 a1}, Keeps z (rebaseTicks a0 a1 s) := by
  intros
  unfold rebaseTicks
  extract_lets -merge -useContext -underBinder +onlyGivenNames x0 s1
  have hs1 : Keeps z s1 := onTwin_keeps (onDrv_keeps h)
  clear_value s1
  exact onNet_keeps hs1

/-! ### Clocks -/

theorem dpllSet_keeps (h : Keeps z s) : ∀ {a0}, Keeps z (dpllSet a0 s) :=
  onClk_keeps h

theorem execRateChangeFirstTick_keeps (h : Keeps z s) : OutKeeps z (execRateChangeFirstTick s) := by
  unfold execRateChangeFirstTick
  split
  all_goals first
    | skip
      extract_lets -merge -useContext -underBinder +onlyGivenNames x0 s1 x2 s3 s4 s5
      have hs1 : Keeps z s1 := keeps_ite (streamsClose_keeps h) h
      clear_value s1
      have hs3 : Keeps z s3 := restartTimers_keeps (rebaseTicks_keeps (rebaseWaves_keeps hs1))
      clear_value s3
      have hs4 : Keeps z s4 := onWave_keeps hs3
      clear_value s4
      have hs5 : Keeps z s5 := onClk_keeps hs4
      clear_value s5
      exact out_ite (out_next (compareAll_keeps (drivePin_keeps (openGate_keeps hs5)))) (out_next h)
    | exact out_next h

theorem holdoverEnds_keeps (h : Keeps z s) : Keeps z (holdoverEnds s) :=
  endCond_keeps (endCond_keeps h)

theorem stepTo_keeps (h : Keeps z s) : ∀ {a0}, Keeps z (stepTo a0 s) :=
  onWave_keeps h

theorem gateRefused_keeps (h : Keeps z s) : Keeps z (gateRefused s) :=
  onClk_keeps h

theorem noteRealign_keeps (h : Keeps z s) : ∀ {a0}, Keeps z (noteRealign a0 s) := by
  intros
  unfold noteRealign
  extract_lets -merge -useContext -underBinder +onlyGivenNames x0
  exact onClk_keeps h

theorem execRealignStep_keeps (h : Keeps z s) : ∀ {a0}, OutKeeps z (execRealignStep a0 s) := by
  intros
  unfold execRealignStep
  extract_lets -merge -useContext -underBinder +onlyGivenNames s0 x1 s2
  have hs0 : Keeps z s0 := noteRealign_keeps h
  clear_value s0
  have hs2 : Keeps z s2 := holdoverEnds_keeps (dpllSet_keeps (stepTo_keeps (onClk_keeps hs0)))
  clear_value s2
  exact out_ite (out_next (foldl_keeps hs2 fun t3 t3a ht3 => answerOk_keeps ht3)) (out_next h)

theorem monTripped_keeps (h : Keeps z s) : ∀ {a0}, Keeps z (monTripped a0 s) :=
  onClk_keeps h

theorem ddrTrips_keeps (h : Keeps z s) : Keeps z (ddrTrips s) :=
  raise_keeps (ddrFail_keeps (onClk_keeps (monTripped_keeps h)))

theorem mediaTrips_keeps (h : Keeps z s) : Keeps z (mediaTrips s) :=
  raise_keeps (mediaFail_keeps (monTripped_keeps h))

theorem toRc_keeps {f : State → State} (hf : ∀ t, Keeps z t → Keeps z (f t)) (h : Keeps z s) : Keeps z (toRc f s) :=
  keeps_ite (sysFail_keeps (hf s h)) (clockAbsent_keeps h)

theorem execClockMonitorTrip_keeps (h : Keeps z s) : ∀ {a0}, OutKeeps z (execClockMonitorTrip a0 s) := by
  intros
  unfold execClockMonitorTrip
  refine out_ite (out_next h) ?_
  split
  · exact out_next (clockAbsent_keeps h)
  · refine out_next (toRc_keeps (fun t ht => ?_) h)
    have h1 := raise_keeps (a0 := 0x0908) (a1 := 1) (a2 := 0) (onClk_keeps (g := fun c => { c with refOk := false })
      (monTripped_keeps (a0 := 1) ht))
    exact keeps_ite (ddrTrips_keeps (keeps_ite (mediaTrips_keeps h1) h1)) (keeps_ite (mediaTrips_keeps h1) h1)
  · exact out_next (toRc_keeps (fun _ ht => raise_keeps (monTripped_keeps ht)) h)
  · exact out_next (mediaTrips_keeps h)
  · exact out_next (ddrTrips_keeps h)
  · exact out_next (sdsFail_keeps (monTripped_keeps h))

theorem takeClosing_keeps (h : Keeps z s) : ∀ {a0}, Keeps z (takeClosing a0 s).2 :=
  onClk_keeps h

theorem ptpUsable_keeps (h : Keeps z s) : ∀ {a0}, Keeps z (ptpUsable a0 s) :=
  ptpEval_keeps (onPtp_keeps h)

theorem execPtpTimeAvailable_keeps (h : Keeps z s) : ∀ {a0}, OutKeeps z (execPtpTimeAvailable a0 s) := by
  intros
  unfold execPtpTimeAvailable
  extract_lets -merge -useContext -underBinder +onlyGivenNames s0
  have hs0 : Keeps z s0 := ptpUsable_keeps h
  clear_value s0
  exact out_ite (out_next h) (out_next (keeps_ite (dpllSet_keeps hs0) hs0))

theorem realignLost_keeps (h : Keeps z s) : Keeps z (realignLost s) :=
  foldl_keeps (onClk_keeps h) fun t0 t0a ht0 => answerFail_keeps ht0

theorem monGood_keeps (h : Keeps z s) : ∀ {a0}, Keeps z (monGood a0 s) :=
  onClk_keeps h

theorem execPllLock_keeps (h : Keeps z s) : ∀ {a0}, OutKeeps z (execPllLock a0 s) := by
  intros
  unfold execPllLock
  extract_lets -merge -useContext -underBinder +onlyGivenNames x0 s1
  have hs1 : Keeps z s1 := onClk_keeps h
  clear_value s1
  refine out_ite (out_next h) ?_
  split
  all_goals first
    | exact out_next (onClk_keeps (monGood_keeps hs1))
    | exact out_next (keeps_ite (dpllSet_keeps (monGood_keeps hs1)) (monGood_keeps hs1))
    | exact out_next (monGood_keeps hs1)

theorem clkRealignEffect_keeps (h : Keeps z s) : ∀ {a0 a1}, Keeps z (clkRealignEffect a0 a1 s).1 :=
  onClk_keeps h

theorem execClkRealign_keeps (h : Keeps z s) : ∀ {a0}, OutKeeps z (execClkRealign a0 s) :=
  out_next (runKiosk_keeps (fun _ _ _ ht => clkRealignEffect_keeps ht) h)

theorem clkDpllConfigEffect_keeps (h : Keeps z s) : ∀ {a0 a1}, Keeps z (clkDpllConfigEffect a0 a1 s).1 := by
  intros
  unfold clkDpllConfigEffect
  extract_lets -merge -useContext -underBinder +onlyGivenNames x0
  exact keeps_ite (onClk_keeps h) h

theorem execClkDpllConfig_keeps (h : Keeps z s) : ∀ {a0}, OutKeeps z (execClkDpllConfig a0 s) :=
  out_next (runKiosk_keeps (fun _ _ _ ht => clkDpllConfigEffect_keeps ht) h)

theorem execClkMeasureComplete_keeps (h : Keeps z s) : ∀ {a0}, OutKeeps z (execClkMeasureComplete a0 s) := by
  intros
  unfold execClkMeasureComplete
  split
  all_goals first
    | exact out_next h
    | skip
      extract_lets -merge -useContext -underBinder +onlyGivenNames x0
      exact out_next (answerOk_keeps (onClk_keeps h))

theorem clkStatusReadEffect_keeps (h : Keeps z s) : ∀ {a0 a1}, Keeps z (clkStatusReadEffect a0 a1 s).1 :=
  h

theorem execClkStatusRead_keeps (h : Keeps z s) : ∀ {a0}, OutKeeps z (execClkStatusRead a0 s) :=
  out_next (runKiosk_keeps (fun _ _ _ ht => clkStatusReadEffect_keeps ht) h)

theorem execGateCloseAck_keeps (h : Keeps z s) : ∀ {a0}, OutKeeps z (execGateCloseAck a0 s) := by
  intros
  unfold execGateCloseAck
  extract_lets -merge -useContext -underBinder +onlyGivenNames x0 x1 s2
  have hx0 : Keeps z x0.2 := takeClosing_keeps h
  clear_value x0
  have hs2 : Keeps z s2 := onClk_keeps hx0
  clear_value s2
  exact out_ite (out_next h) (out_next (foldl_keeps hs2 fun t3 t3a ht3 => answerOk_keeps ht3))

theorem execPtpTimeLost_keeps (h : Keeps z s) : ∀ {a0}, OutKeeps z (execPtpTimeLost a0 s) := by
  intros
  unfold execPtpTimeLost
  extract_lets -merge -useContext -underBinder +onlyGivenNames s0
  have hs0 : Keeps z s0 := realignLost_keeps (ptpUsable_keeps h)
  clear_value s0
  split
  all_goals first
    | exact out_next (dpllSet_keeps hs0)
    | exact out_next (raise_keeps (dpllSet_keeps (onClk_keeps hs0)))
    | exact out_next hs0

theorem execDpllLock_keeps (h : Keeps z s) : ∀ {a0 a1 a2}, OutKeeps z (execDpllLock a0 a1 a2 s) := by
  intros
  unfold execDpllLock
  extract_lets -merge -useContext -underBinder +onlyGivenNames s0
  have hs0 : Keeps z s0 := dpllSet_keeps (onClk_keeps h)
  clear_value s0
  exact out_ite (out_ite (out_next hs0) (out_next (stepTo_keeps (keeps_ite (noteRealign_keeps hs0) hs0)))) (out_next h)

theorem clkRateSetEffect_keeps (h : Keeps z s) : ∀ {a0 a1 a2}, Keeps z (clkRateSetEffect a0 a1 a2 s).1 := by
  intros
  unfold clkRateSetEffect
  split
  all_goals first
    | exact h
    | skip
      extract_lets -merge -useContext -underBinder +onlyGivenNames x0
      exact keeps_ite_1 h (openGate_keeps (onClk_keeps h))

theorem execGateCloseTimeout_keeps (h : Keeps z s) : ∀ {a0}, OutKeeps z (execGateCloseTimeout a0 s) := by
  intros
  unfold execGateCloseTimeout
  extract_lets -merge -useContext -underBinder +onlyGivenNames x0 s1
  have hx0 : Keeps z x0.2 := takeClosing_keeps h
  clear_value x0
  have hs1 : Keeps z s1 := gateRefused_keeps (onMat_keeps hx0 (fun hm => hm))
  clear_value s1
  exact out_ite (out_next (foldl_keeps hs1 fun t2 t2a ht2 => answerFail_keeps ht2)) (out_next h)

theorem execPtpTimeReturn_keeps (h : Keeps z s) : ∀ {a0 a1}, OutKeeps z (execPtpTimeReturn a0 a1 s) := by
  intros
  unfold execPtpTimeReturn
  extract_lets -merge -useContext -underBinder +onlyGivenNames x0 s1 s2
  have hs1 : Keeps z s1 := onClk_keeps (ptpUsable_keeps h)
  clear_value s1
  have hs2 : Keeps z s2 := keeps_ite hs1 (raise_keeps hs1)
  clear_value s2
  exact out_ite (out_ite (out_next (holdoverEnds_keeps (dpllSet_keeps (onClk_keeps hs1)))) (out_next (keeps_ite (onClk_keeps hs2) hs2))) (out_next h)

theorem clkGateSetEffect_keeps (h : Keeps z s) : ∀ {a0 a1}, Keeps z (clkGateSetEffect a0 a1 s).1 := by
  intros
  unfold clkGateSetEffect
  extract_lets -merge -useContext -underBinder +onlyGivenNames x0 x1 s2 s3
  have hs2 : Keeps z s2 := keeps_ite (onClk_keeps h) h
  clear_value s2
  have hs3 : Keeps z s3 := keeps_ite (openGate_keeps hs2) hs2
  clear_value s3
  exact keeps_ite_1 (onClk_keeps hs2) hs3

theorem execClkGateSet_keeps (h : Keeps z s) : ∀ {a0}, OutKeeps z (execClkGateSet a0 s) := by
  intros
  unfold execClkGateSet
  extract_lets -merge -useContext -underBinder +onlyGivenNames x0
  exact out_next (runKiosk_keeps (fun _ _ _ ht => clkGateSetEffect_keeps ht) (keeps_ite (gateRefused_keeps h) h))

theorem execClockMonitorRecover_keeps (h : Keeps z s) : ∀ {a0}, OutKeeps z (execClockMonitorRecover a0 s) := by
  intros
  unfold execClockMonitorRecover
  extract_lets -merge -useContext -underBinder +onlyGivenNames s0
  have hs0 : Keeps z s0 := monGood_keeps h
  clear_value s0
  refine out_ite (out_next h) ?_
  split
  all_goals first
    | exact out_next (endCond_keeps (onClk_keeps hs0))
    | exact out_next (endCond_keeps hs0)
    | exact out_next hs0

theorem clkMeasureEffect_keeps (h : Keeps z s) : ∀ {a0 a1}, Keeps z (clkMeasureEffect a0 a1 s).1 :=
  onClk_keeps h

theorem execClkMeasure_keeps (h : Keeps z s) : ∀ {a0}, OutKeeps z (execClkMeasure a0 s) :=
  out_next (runKiosk_keeps (fun _ _ _ ht => clkMeasureEffect_keeps ht) h)

theorem execClkRateSet_keeps (h : Keeps z s) : ∀ {a0 a1}, OutKeeps z (execClkRateSet a0 a1 s) :=
  out_next (runKiosk_keeps (fun _ _ _ ht => clkRateSetEffect_keeps ht) h)

theorem execHoldoverLong_keeps (h : Keeps z s) : OutKeeps z (execHoldoverLong s) :=
  out_ite (out_next (raise_keeps h)) (out_next h)

/-! ### Power -/

theorem pwrVcoreEffect_keeps (h : Keeps z s) : ∀ {a0 a1}, Keeps z (pwrVcoreEffect a0 a1 s).1 := by
  intros
  unfold pwrVcoreEffect
  extract_lets -merge -useContext -underBinder +onlyGivenNames x0
  exact keeps_ite (onClk_keeps h) h

theorem execPwrVcore_keeps (h : Keeps z s) : ∀ {a0}, OutKeeps z (execPwrVcore a0 s) :=
  out_next (runKiosk_keeps (fun _ _ _ ht => pwrVcoreEffect_keeps ht) h)

theorem pwrPinmapReadEffect_keeps (h : Keeps z s) : ∀ {a0 a1}, Keeps z (pwrPinmapReadEffect a0 a1 s).1 :=
  h

theorem execPwrPinmapRead_keeps (h : Keeps z s) : ∀ {a0}, OutKeeps z (execPwrPinmapRead a0 s) :=
  out_next (runKiosk_keeps (fun _ _ _ ht => pwrPinmapReadEffect_keeps ht) h)

theorem execQuarterRelease_keeps (h : Keeps z s) : ∀ {a0}, OutKeeps z (execQuarterRelease a0 s) := by
  intros
  unfold execQuarterRelease
  extract_lets -merge -useContext -underBinder +onlyGivenNames x0 s1 s2
  have hs1 : Keeps z s1 := onClk_keeps h
  clear_value s1
  have hs2 : Keeps z s2 := onPlace_keeps hs1
  clear_value s2
  exact out_ite (out_next (foldl_keeps hs2 fun t3 t3a ht3 => onTile_keeps ht3)) (out_next h)

theorem setCause_keeps (h : Keeps z s) : ∀ {a0}, Keeps z (setCause a0 s) :=
  onClk_keeps h

theorem execFwWatchdog_keeps (h : Keeps z s) : OutKeeps z (execFwWatchdog s) :=
  out_ite (out_next (nolutReset_keeps (setCause_keeps (raise_keeps h)))) (out_next h)

theorem copyImage_keeps (h : Keeps z s) : Keeps z (copyImage s) :=
  onMat_keeps h (fun hm => memWf_memWrite _ _ _ hm)

theorem fwReady_keeps (h : Keeps z s) : Keeps z (fwReady s) := by
  unfold fwReady
  extract_lets -merge -useContext -underBinder +onlyGivenNames s0 s1
  have hs0 : Keeps z s0 := onHost_keeps h
  clear_value s0
  have hs1 : Keeps z s1 := onClk_keeps hs0
  clear_value s1
  exact runStart_keeps (raise_keeps (drivePin_keeps (drivePin_keeps hs1)))

theorem execFwReady_keeps (h : Keeps z s) : OutKeeps z (execFwReady s) :=
  out_ite (out_next (fwReady_keeps (copyImage_keeps h))) (out_next h)

theorem pwrStateSetEffect_keeps (h : Keeps z s) : ∀ {a0 a1}, Keeps z (pwrStateSetEffect a0 a1 s).1 := by
  intros
  unfold pwrStateSetEffect
  extract_lets -merge -useContext -underBinder +onlyGivenNames x0 x1 s2
  have hs2 : Keeps z s2 := onClk_keeps h
  clear_value s2
  split
  all_goals first
    | exact keeps_ite_1 (onClk_keeps hs2) (onClk_keeps hs2)
    | exact keeps_ite_1 (onClk_keeps hs2) (yieldSoon_keeps (onClk_keeps hs2))
    | exact yieldSoon_keeps (onClk_keeps hs2)

theorem execPwrStateSet_keeps (h : Keeps z s) : ∀ {a0}, OutKeeps z (execPwrStateSet a0 s) :=
  out_next (runKiosk_keeps (fun _ _ _ ht => pwrStateSetEffect_keeps ht) h)

theorem execWakeComplete_keeps (h : Keeps z s) : ∀ {a0}, OutKeeps z (execWakeComplete a0 s) := by
  intros
  unfold execWakeComplete
  extract_lets -merge -useContext -underBinder +onlyGivenNames s0 s1 s2 s3 s4
  have hs0 : Keeps z s0 := onClk_keeps h
  clear_value s0
  have hs1 : Keeps z s1 := onWave_keeps hs0
  clear_value s1
  have hs2 : Keeps z s2 := onMat_keeps hs1 (fun hm => hm)
  clear_value s2
  have hs3 : Keeps z s3 := onNet_keeps hs2
  clear_value s3
  have hs4 : Keeps z s4 := onHost_keeps hs3
  clear_value s4
  exact out_ite (out_next (drivePin_keeps (raise_keeps hs4))) (out_next h)

theorem execDdrRetrain_keeps (h : Keeps z s) : OutKeeps z (execDdrRetrain s) :=
  out_ite (out_next (onMat_keeps h (fun hm => hm))) (out_next h)

theorem bootRom_keeps (h : Keeps z s) : Keeps z (bootRom s) := by
  unfold bootRom
  extract_lets -merge -useContext -underBinder +onlyGivenNames s0
  have hs0 : Keeps z s0 := drivePin_keeps (onClk_keeps h)
  clear_value s0
  split
  all_goals first
    | exact onHost_keeps hs0
    | exact openGate_keeps (onHost_keeps hs0)

theorem execRetainEnter_keeps (h : Keeps z s) : OutKeeps z (execRetainEnter s) := by
  unfold execRetainEnter
  extract_lets -merge -useContext -underBinder +onlyGivenNames x0 s1 s2 s3 s4 s5 s6
  have hs1 : Keeps z s1 := zeroVolatile_keeps (tdmStop_keeps (linksIdle_keeps (stopWaves_keeps (hostLost_keeps (sdsFail_keeps h)))))
  clear_value s1
  have hs2 : Keeps z s2 := foldl_keeps hs1 fun t7 t7a ht7 => linkOff_keeps ht7
  clear_value s2
  have hs3 : Keeps z s3 := linkSet_keeps hs2
  clear_value s3
  have hs4 : Keeps z s4 := onWave_keeps hs3
  clear_value s4
  have hs5 : Keeps z s5 := onNet_keeps hs4
  clear_value s5
  have hs6 : Keeps z s6 := onMat_keeps hs5 (fun hm => hm)
  clear_value s6
  exact out_ite (out_next (onClk_keeps hs6)) (out_next h)

theorem pwrPinmapProgramEffect_keeps (h : Keeps z s) : ∀ {a0 a1}, Keeps z (pwrPinmapProgramEffect a0 a1 s).1 := by
  intros
  unfold pwrPinmapProgramEffect
  extract_lets -merge -useContext -underBinder +onlyGivenNames s0
  have hs0 : Keeps z s0 := onClk_keeps h
  clear_value s0
  exact hs0

theorem execPwrPinmapProgram_keeps (h : Keeps z s) : ∀ {a0}, OutKeeps z (execPwrPinmapProgram a0 s) :=
  out_next (runKiosk_keeps (fun _ _ _ ht => pwrPinmapProgramEffect_keeps ht) h)

theorem execDistrictFail_keeps (h : Keeps z s) : ∀ {a0}, OutKeeps z (execDistrictFail a0 s) := by
  intros
  unfold execDistrictFail
  extract_lets -merge -useContext -underBinder +onlyGivenNames x0
  exact out_ite (out_next (raise_keeps (foldl_keeps h fun t1 t1a ht1 => retireTile_keeps ht1))) (out_next h)

theorem execPowerOnResetRelease_keeps (h : Keeps z s) : OutKeeps z (execPowerOnResetRelease s) :=
  out_next (onClk_keeps h)

theorem pwrResetEffect_keeps (h : Keeps z s) : ∀ {a0 a1}, Keeps z (pwrResetEffect a0 a1 s).1 :=
  onClk_keeps h

theorem execPwrReset_keeps (h : Keeps z s) : ∀ {a0}, OutKeeps z (execPwrReset a0 s) :=
  out_next (runKiosk_keeps (fun _ _ _ ht => pwrResetEffect_keeps ht) h)

theorem execCommandedReset_keeps (h : Keeps z s) : OutKeeps z (execCommandedReset s) := by
  unfold execCommandedReset
  split
  all_goals first
    | exact out_ite (out_next (keeps_ite (systemReset_keeps h) (nolutReset_keeps (setCause_keeps h)))) (out_next h)
    | exact out_next h

theorem execFwHeartbeatIncrement_keeps (h : Keeps z s) : OutKeeps z (execFwHeartbeatIncrement s) :=
  out_ite (out_next (onHost_keeps h)) (out_next h)

theorem execPciePerst_keeps (h : Keeps z s) : ∀ {a0}, OutKeeps z (execPciePerst a0 s) := by
  intros
  unfold execPciePerst
  extract_lets -merge -useContext -underBinder +onlyGivenNames s0
  have hs0 : Keeps z s0 := setCause_keeps (onMat_keeps h (fun hm => hm))
  clear_value s0
  exact out_ite (out_next (onMat_keeps h (fun hm => hm))) (out_next (keeps_ite hs0 (hostLost_keeps hs0)))

theorem execDdrTrainingComplete_keeps (h : Keeps z s) : ∀ {a0 a1 a2}, OutKeeps z (execDdrTrainingComplete a0 a1 a2 s) := by
  intros
  unfold execDdrTrainingComplete
  extract_lets -merge -useContext -underBinder +onlyGivenNames s0
  have hs0 : Keeps z s0 := drivePin_keeps (onMat_keeps h (fun hm => hm))
  clear_value s0
  exact out_ite (out_ite (out_next (onMat_keeps hs0 (fun hm => hm))) (out_next (raise_keeps (ddrFail_keeps hs0)))) (out_next h)

theorem execBootcfgMeasure_keeps (h : Keeps z s) : ∀ {a0}, OutKeeps z (execBootcfgMeasure a0 s) := by
  intros
  unfold execBootcfgMeasure
  extract_lets -merge -useContext -underBinder +onlyGivenNames x0 x1
  exact out_ite (out_next (onHost_keeps (onClk_keeps h))) (out_next h)

theorem execCrystalDelayEnd_keeps (h : Keeps z s) : ∀ {a0}, OutKeeps z (execCrystalDelayEnd a0 s) :=
  out_ite (out_ite (out_next (monGood_keeps (onClk_keeps h))) (out_next (onClk_keeps h))) (out_next h)

theorem execNresetLow_keeps (h : Keeps z s) : ∀ {a0 a1}, OutKeeps z (execNresetLow a0 a1 s) :=
  out_ite (out_next h) (out_ite (out_next (systemReset_keeps h)) (out_next h))

theorem execRcStable_keeps (h : Keeps z s) : ∀ {a0}, OutKeeps z (execRcStable a0 s) := by
  intros
  unfold execRcStable
  extract_lets -merge -useContext -underBinder +onlyGivenNames s0
  have hs0 : Keeps z s0 := pinsFuse_keeps (monGood_keeps (onClk_keeps h))
  clear_value s0
  exact out_ite (out_next h) (out_next (onTwin_keeps hs0))

theorem execPowerOnReset_keeps (h : Keeps z s) : OutKeeps z (execPowerOnReset s) :=
  out_next (powerOn_keeps h)

theorem execNolutRestartComplete_keeps (h : Keeps z s) : ∀ {a0}, OutKeeps z (execNolutRestartComplete a0 s) :=
  out_ite (out_next (keeps_ite (fwReady_keeps h) (raise_keeps h))) (out_next h)

end Sys2Proof.Laws
end

