-- ==== Sys2Proof/Laws/KeepsSystem.lean ====
section
/-! SUPPORT. Every operation keeps the canonical form of the byte memory and leaves the queue alone:
security, the host interface, lane instructions, memories and waves. -/

namespace Sys2Proof.Laws

open Sys2Proof Sys2Proof.Machine

variable {z s : State}

/-! ### Security -/

theorem secLibKeySetEffect_keeps (h : Keeps z s) : ∀ {a0 a1}, Keeps z (secLibKeySetEffect a0 a1 s).1 := by
  intros
  unfold secLibKeySetEffect
  extract_lets -merge -useContext -underBinder +onlyGivenNames x0 s1
  have hs1 : Keeps z s1 := keeps_ite h (onSm_keeps h)
  clear_value s1
  exact hs1

theorem execSmConditionalTestFail_keeps (h : Keeps z s) : OutKeeps z (execSmConditionalTestFail s) := by
  unfold execSmConditionalTestFail
  extract_lets -merge -useContext -underBinder +onlyGivenNames s0
  have hs0 : Keeps z s0 := smFail_keeps (leaveApproved_keeps h)
  clear_value s0
  exact out_ite (out_next (raise_keeps (zeroVolatile_keeps (onSm_keeps hs0)))) (out_next h)

theorem execSecLibVerifyComplete_keeps (h : Keeps z s) : ∀ {a0}, OutKeeps z (execSecLibVerifyComplete a0 s) := by
  intros
  unfold execSecLibVerifyComplete
  split
  all_goals first
    | skip
      extract_lets -merge -useContext -underBinder +onlyGivenNames s0 s1
      have hs0 : Keeps z s0 := onSm_keeps h
      clear_value s0
      have hs1 : Keeps z s1 := onSm_keeps hs0
      clear_value s1
      exact out_ite (out_next (answerOk_keeps hs1)) (out_next (answerFail_keeps (onSm_keeps hs0)))
    | exact out_next h

theorem answerThen_keeps {f : State → State} (hf : ∀ t, Keeps z t → Keeps z (f t)) (h : Keeps z s) :
    ∀ {k p}, Keeps z (answerThen k p f s).1 :=
  hf _ (answerOk_keeps h)

theorem secZeroiseEffect_keeps (h : Keeps z s) : ∀ {a0 a1}, Keeps z (secZeroiseEffect a0 a1 s).1 :=
  answerThen_keeps (fun _ ht => by
    split
    · exact zeroStore_keeps ht
    · exact zeroVolatile_keeps ht) h

theorem secRollbackCommitEffect_keeps (h : Keeps z s) : ∀ {a0 a1}, Keeps z (secRollbackCommitEffect a0 a1 s).1 :=
  onSm_keeps h

theorem execSecRollbackCommit_keeps (h : Keeps z s) : ∀ {a0}, OutKeeps z (execSecRollbackCommit a0 s) :=
  out_next (runKiosk_keeps (fun _ _ _ ht => secRollbackCommitEffect_keeps ht) h)

theorem secDebugUnlockEffect_keeps (h : Keeps z s) : ∀ {a0 a1}, Keeps z (secDebugUnlockEffect a0 a1 s).1 :=
  answerThen_keeps (fun _ ht => leaveApproved_keeps (openGate_keeps (onSm_keeps ht))) h

theorem smStatusWrite_keeps (h : Keeps z s) : ∀ {a0}, Keeps z (smStatusWrite a0 s) :=
  onSm_keeps h

theorem tamper_keeps (h : Keeps z s) : Keeps z (tamper s) := by
  unfold tamper
  extract_lets -merge -useContext -underBinder +onlyGivenNames s0
  have hs0 : Keeps z s0 := zeroTotal_keeps (leaveApproved_keeps (onSm_keeps h))
  clear_value s0
  exact raise_keeps (onSm_keeps hs0)

theorem execSecDebugUnlock_keeps (h : Keeps z s) : ∀ {a0}, OutKeeps z (execSecDebugUnlock a0 s) :=
  out_next (runKiosk_keeps (fun _ _ _ ht => secDebugUnlockEffect_keeps ht) h)

theorem execSessionIdleTimeout_keeps (h : Keeps z s) : OutKeeps z (execSessionIdleTimeout s) := by
  unfold execSessionIdleTimeout
  split
  all_goals first
    | exact out_ite (out_next (sessionEnd_keeps h)) (out_next h)
    | exact out_next h

theorem smRandom_keeps (h : Keeps z s) : ∀ {a0 a1}, Keeps z (smRandom a0 a1 s).2 := by
  intros
  unfold smRandom
  extract_lets -merge -useContext -underBinder +onlyGivenNames x0
  exact onSm_keeps h

theorem secEnrolEffect_keeps (h : Keeps z s) : ∀ {a0 a1}, Keeps z (secEnrolEffect a0 a1 s).1 := by
  intros
  unfold secEnrolEffect
  extract_lets -merge -useContext -underBinder +onlyGivenNames x0 s1
  have hs1 : Keeps z s1 := by
    unfold s1
    split
    all_goals first
      | exact keeps_ite (onSm_keeps h) (onSm_keeps h)
      | exact onSm_keeps h
      | exact h
  clear_value s1
  exact hs1

theorem execSecLibKeySet_keeps (h : Keeps z s) : ∀ {a0}, OutKeeps z (execSecLibKeySet a0 s) :=
  out_next (runKiosk_keeps (fun _ _ _ ht => secLibKeySetEffect_keeps ht) h)

theorem secSessionOpenEffect_keeps (h : Keeps z s) : ∀ {a0 a1 a2}, Keeps z (secSessionOpenEffect a0 a1 a2 s).1 := by
  intros
  unfold secSessionOpenEffect
  extract_lets -merge -useContext -underBinder +onlyGivenNames x0 x1 x2 x3
  have hx0 : Keeps z x0.2 := smRandom_keeps h
  clear_value x0
  exact onSm_keeps hx0

theorem execSecSessionOpen_keeps (h : Keeps z s) : ∀ {a0 a1 a2}, OutKeeps z (execSecSessionOpen a0 a1 a2 s) :=
  out_next (runKiosk_keeps (fun _ _ _ ht => secSessionOpenEffect_keeps ht) h)

theorem secLibConfigEffect_keeps (h : Keeps z s) : ∀ {a0 a1}, Keeps z (secLibConfigEffect a0 a1 s).1 :=
  keeps_ite (onSm_keeps h) h

theorem execSessionLockoutEnd_keeps (h : Keeps z s) : OutKeeps z (execSessionLockoutEnd s) := by
  unfold execSessionLockoutEnd
  split
  all_goals first
    | exact out_ite (out_next (onSm_keeps h)) (out_next h)
    | exact out_next h

theorem secKeyLoadEffect_keeps (h : Keeps z s) : ∀ {a0 a1}, Keeps z (secKeyLoadEffect a0 a1 s).1 :=
  onSm_keeps h

theorem execSecKeyLoad_keeps (h : Keeps z s) : ∀ {a0 a1}, OutKeeps z (execSecKeyLoad a0 a1 s) :=
  out_next (runKiosk_keeps (fun _ _ _ ht => secKeyLoadEffect_keeps ht) h)

theorem execSecZeroise_keeps (h : Keeps z s) : ∀ {a0}, OutKeeps z (execSecZeroise a0 s) :=
  out_next (runKiosk_keeps (fun _ _ _ ht => secZeroiseEffect_keeps ht) h)

theorem secLibVerifyEffect_keeps (h : Keeps z s) : ∀ {a0 a1}, Keeps z (secLibVerifyEffect a0 a1 s).1 :=
  onSm_keeps h

theorem execSecLibVerify_keeps (h : Keeps z s) : ∀ {a0}, OutKeeps z (execSecLibVerify a0 s) :=
  out_next (runKiosk_keeps (fun _ _ _ ht => secLibVerifyEffect_keeps ht) h)

theorem enterApproved_keeps (h : Keeps z s) : Keeps z (enterApproved s) :=
  keeps_ite h (zeroVolatile_keeps (onSm_keeps h))

theorem secApprovedEffect_keeps (h : Keeps z s) : ∀ {a0 a1}, Keeps z (secApprovedEffect a0 a1 s).1 := by
  intros
  unfold secApprovedEffect
  split
  · exact answerThen_keeps (fun _ ht => enterApproved_keeps ht) (onSm_keeps h)
  · exact answerThen_keeps (fun _ ht => leaveApproved_keeps ht) (onSm_keeps h)
  · exact h

theorem secIdentityEffect_keeps (h : Keeps z s) : ∀ {a0 a1}, Keeps z (secIdentityEffect a0 a1 s).1 :=
  h

theorem execSecIdentity_keeps (h : Keeps z s) : ∀ {a0}, OutKeeps z (execSecIdentity a0 s) :=
  out_next (runKiosk_keeps (fun _ _ _ ht => secIdentityEffect_keeps ht) h)

theorem secKeyEraseEffect_keeps (h : Keeps z s) : ∀ {a0 a1}, Keeps z (secKeyEraseEffect a0 a1 s).1 := by
  intros
  unfold secKeyEraseEffect
  extract_lets -merge -useContext -underBinder +onlyGivenNames x0
  exact stopSas_keeps (onSm_keeps h)

theorem execSecKeyErase_keeps (h : Keeps z s) : ∀ {a0}, OutKeeps z (execSecKeyErase a0 s) :=
  out_next (runKiosk_keeps (fun _ _ _ ht => secKeyEraseEffect_keeps ht) h)

theorem secSessionCloseEffect_keeps (h : Keeps z s) : ∀ {a0 a1}, Keeps z (secSessionCloseEffect a0 a1 s).1 :=
  answerThen_keeps (fun _ ht => sessionEnd_keeps ht) h

theorem execSecSessionClose_keeps (h : Keeps z s) : ∀ {a0}, OutKeeps z (execSecSessionClose a0 s) :=
  out_next (runKiosk_keeps (fun _ _ _ ht => secSessionCloseEffect_keeps ht) h)

theorem authFailed_keeps (h : Keeps z s) : ∀ {a0}, Keeps z (authFailed a0 s) :=
  onSm_keeps h

theorem secSessionAuthEffect_keeps (h : Keeps z s) : ∀ {a0 a1 a2}, Keeps z (secSessionAuthEffect a0 a1 a2 s).1 := by
  intros
  unfold secSessionAuthEffect
  split
  all_goals first
    | exact answerFail_keeps (authFailed_keeps h)
    | skip
      extract_lets -merge -useContext -underBinder +onlyGivenNames x0
      split
      all_goals first
        | skip
          extract_lets -merge -useContext -underBinder +onlyGivenNames x1 x2 s3 x4
          have hx1 : Keeps z x1.2 := smRandom_keeps h
          clear_value x1
          have hs3 : Keeps z s3 := hx1
          exact onSm_keeps hs3
        | exact answerFail_keeps (authFailed_keeps h)

theorem execSecSessionAuth_keeps (h : Keeps z s) : ∀ {a0 a1 a2 a3}, OutKeeps z (execSecSessionAuth a0 a1 a2 a3 s) :=
  out_next (runKiosk_keeps (fun _ _ _ ht => secSessionAuthEffect_keeps ht) h)

theorem execSecEnrol_keeps (h : Keeps z s) : ∀ {a0}, OutKeeps z (execSecEnrol a0 s) :=
  out_next (runKiosk_keeps (fun _ _ _ ht => secEnrolEffect_keeps ht) h)

theorem secStatusEffect_keeps (h : Keeps z s) : ∀ {a0 a1}, Keeps z (secStatusEffect a0 a1 s).1 :=
  h

theorem execSecStatus_keeps (h : Keeps z s) : ∀ {a0}, OutKeeps z (execSecStatus a0 s) :=
  out_next (runKiosk_keeps (fun _ _ _ ht => secStatusEffect_keeps ht) h)

theorem execSmTamper_keeps (h : Keeps z s) : ∀ {a0}, OutKeeps z (execSmTamper a0 s) :=
  out_ite (out_next (tamper_keeps h)) (out_next h)

theorem execSecLibConfig_keeps (h : Keeps z s) : ∀ {a0}, OutKeeps z (execSecLibConfig a0 s) :=
  out_next (runKiosk_keeps (fun _ _ _ ht => secLibConfigEffect_keeps ht) h)

theorem execSmSelftestComplete_keeps (h : Keeps z s) : ∀ {a0}, OutKeeps z (execSmSelftestComplete a0 s) := by
  intros
  unfold execSmSelftestComplete
  extract_lets -merge -useContext -underBinder +onlyGivenNames s0 s1
  have hs0 : Keeps z s0 := onSm_keeps h
  clear_value s0
  have hs1 : Keeps z s1 := keeps_ite (enterApproved_keeps hs0) hs0
  clear_value s1
  exact out_ite (out_ite (out_next (bootRom_keeps hs1)) (out_next (raise_keeps h))) (out_next h)

theorem execSecApproved_keeps (h : Keeps z s) : ∀ {a0}, OutKeeps z (execSecApproved a0 s) :=
  out_next (runKiosk_keeps (fun _ _ _ ht => secApprovedEffect_keeps ht) h)

theorem execSessionAuthTimeout_keeps (h : Keeps z s) : OutKeeps z (execSessionAuthTimeout s) := by
  unfold execSessionAuthTimeout
  split
  all_goals first
    | exact out_ite (out_next (onSm_keeps h)) (out_next h)
    | exact out_next h

theorem execSmGlitch_keeps (h : Keeps z s) : ∀ {a0}, OutKeeps z (execSmGlitch a0 s) := by
  intros
  unfold execSmGlitch
  extract_lets -merge -useContext -underBinder +onlyGivenNames s0 s1
  have hs0 : Keeps z s0 := smFail_keeps (onSm_keeps h)
  clear_value s0
  have hs1 : Keeps z s1 := raise_keeps hs0
  clear_value s1
  exact out_ite (out_next (keeps_ite (tamper_keeps hs1) hs1)) (out_next h)

/-! ### View -/

theorem z640XpReadEffect_keeps (h : Keeps z s) : ∀ {a0 a1}, Keeps z (z640XpReadEffect a0 a1 s).1 :=
  h

theorem execZ640XpRead_keeps (h : Keeps z s) : ∀ {a0}, OutKeeps z (execZ640XpRead a0 s) :=
  out_next (runKiosk_keeps (fun _ _ _ ht => z640XpReadEffect_keeps ht) h)

theorem z640XpWriteEffect_keeps (h : Keeps z s) : ∀ {a0 a1}, Keeps z (z640XpWriteEffect a0 a1 s).1 :=
  enterWords_keeps h

theorem z640ViewSetEffect_keeps (h : Keeps z s) : ∀ {a0 a1}, Keeps z (z640ViewSetEffect a0 a1 s).1 := by
  intros
  unfold z640ViewSetEffect
  extract_lets -merge -useContext -underBinder +onlyGivenNames x0 x1
  exact keeps_ite (onHost_keeps h) h

theorem z640StripMuteEffect_keeps (h : Keeps z s) : ∀ {a0 a1}, Keeps z (z640StripMuteEffect a0 a1 s).1 :=
  enterWords_keeps h

theorem execZ640StripMute_keeps (h : Keeps z s) : ∀ {a0}, OutKeeps z (execZ640StripMute a0 s) :=
  out_next (runKiosk_keeps (fun _ _ _ ht => z640StripMuteEffect_keeps ht) h)

theorem z640StatusEffect_keeps (h : Keeps z s) : ∀ {a0 a1}, Keeps z (z640StatusEffect a0 a1 s).1 :=
  h

theorem execZ640Status_keeps (h : Keeps z s) : ∀ {a0}, OutKeeps z (execZ640Status a0 s) :=
  out_next (runKiosk_keeps (fun _ _ _ ht => z640StatusEffect_keeps ht) h)

theorem z640InfoEffect_keeps (h : Keeps z s) : ∀ {a0 a1}, Keeps z (z640InfoEffect a0 a1 s).1 :=
  h

theorem execZ640ViewSet_keeps (h : Keeps z s) : ∀ {a0}, OutKeeps z (execZ640ViewSet a0 s) :=
  out_next (runKiosk_keeps (fun _ _ _ ht => z640ViewSetEffect_keeps ht) h)

theorem execZ640Info_keeps (h : Keeps z s) : ∀ {a0}, OutKeeps z (execZ640Info a0 s) :=
  out_next (runKiosk_keeps (fun _ _ _ ht => z640InfoEffect_keeps ht) h)

theorem z640RecallEffect_keeps (h : Keeps z s) : ∀ {a0 a1}, Keeps z (z640RecallEffect a0 a1 s).1 :=
  keeps_ite_1 (onFree_keeps (sceneDiscard_keeps h)) (commitAccept_keeps h)

theorem execZ640XpWrite_keeps (h : Keeps z s) : ∀ {a0}, OutKeeps z (execZ640XpWrite a0 s) :=
  out_next (runKiosk_keeps (fun _ _ _ ht => z640XpWriteEffect_keeps ht) h)

theorem execZ640Recall_keeps (h : Keeps z s) : ∀ {a0}, OutKeeps z (execZ640Recall a0 s) :=
  out_next (runKiosk_keeps (fun _ _ _ ht => z640RecallEffect_keeps ht) h)

/-! ### TwinCmd -/

theorem twinYieldEffect_keeps (h : Keeps z s) : ∀ {a0 a1}, Keeps z (twinYieldEffect a0 a1 s).1 :=
  yieldSoon_keeps h

theorem resolveAct_keeps (h : Keeps z s) : ∀ {a0 a1}, Keeps z (resolveAct a0 a1 s) := by
  intros
  unfold resolveAct
  extract_lets -merge -useContext -underBinder +onlyGivenNames s0
  have hs0 : Keeps z s0 := endCond_keeps (onTwin_keeps h)
  clear_value s0
  exact keeps_ite (keeps_ite (keeps_ite (enterRunIn_keeps (onTwin_keeps hs0)) hs0) (keeps_ite (onTwin_keeps hs0) hs0)) h

theorem twinResolveEffect_keeps (h : Keeps z s) : ∀ {a0 a1}, Keeps z (twinResolveEffect a0 a1 s).1 := by
  intros
  unfold twinResolveEffect
  extract_lets -merge -useContext -underBinder +onlyGivenNames x0 x1
  exact onTwin_keeps h

theorem twinJoinEffect_keeps (h : Keeps z s) : ∀ {a0 a1}, Keeps z (twinJoinEffect a0 a1 s).1 := by
  intros
  unfold twinJoinEffect
  extract_lets -merge -useContext -underBinder +onlyGivenNames s0
  have hs0 : Keeps z s0 := keeps_ite (startJoin_keeps h) (setTwin_keeps (onTwin_keeps h))
  clear_value s0
  exact hs0

theorem twinStatusReadEffect_keeps (h : Keeps z s) : ∀ {a0 a1}, Keeps z (twinStatusReadEffect a0 a1 s).1 := by
  intros
  unfold twinStatusReadEffect
  extract_lets -merge -useContext -underBinder +onlyGivenNames x0
  exact h

theorem execTwinStatusRead_keeps (h : Keeps z s) : ∀ {a0}, OutKeeps z (execTwinStatusRead a0 s) :=
  out_next (runKiosk_keeps (fun _ _ _ ht => twinStatusReadEffect_keeps ht) h)

theorem setPair_keeps (h : Keeps z s) : ∀ {a0}, Keeps z (setPair a0 s) := by
  intros
  unfold setPair
  extract_lets -merge -useContext -underBinder +onlyGivenNames s0
  have hs0 : Keeps z s0 := keeps_ite (openGate_keeps h) h
  clear_value s0
  exact keeps_ite hs0 (setTwin_keeps (onTwin_keeps hs0))

theorem twinPolicyEffect_keeps (h : Keeps z s) : ∀ {a0 a1}, Keeps z (twinPolicyEffect a0 a1 s).1 := by
  intros
  unfold twinPolicyEffect
  extract_lets -merge -useContext -underBinder +onlyGivenNames x0 x1
  exact keeps_ite_1 (setPair_keeps (onTwin_keeps h)) h

theorem twinMismatchReadEffect_keeps (h : Keeps z s) : ∀ {a0 a1}, Keeps z (twinMismatchReadEffect a0 a1 s).1 :=
  h

theorem execTwinMismatchRead_keeps (h : Keeps z s) : ∀ {a0}, OutKeeps z (execTwinMismatchRead a0 s) :=
  out_next (runKiosk_keeps (fun _ _ _ ht => twinMismatchReadEffect_keeps ht) h)

theorem twinPromoteEffect_keeps (h : Keeps z s) : ∀ {a0 a1}, Keeps z (twinPromoteEffect a0 a1 s).1 := by
  intros
  unfold twinPromoteEffect
  extract_lets -merge -useContext -underBinder +onlyGivenNames x0 x1 x2 x3
  exact onTwin_keeps h

theorem twinAddressEffect_keeps (h : Keeps z s) : ∀ {a0 a1}, Keeps z (twinAddressEffect a0 a1 s).1 := by
  intros
  unfold twinAddressEffect
  extract_lets -merge -useContext -underBinder +onlyGivenNames x0 x1 x2
  exact keeps_ite_1 (onPort_keeps h) h

theorem execTwinPolicy_keeps (h : Keeps z s) : ∀ {a0}, OutKeeps z (execTwinPolicy a0 s) :=
  out_next (runKiosk_keeps (fun _ _ _ ht => twinPolicyEffect_keeps ht) h)

theorem execTwinJoin_keeps (h : Keeps z s) : ∀ {a0}, OutKeeps z (execTwinJoin a0 s) :=
  out_next (runKiosk_keeps (fun _ _ _ ht => twinJoinEffect_keeps ht) h)

theorem execTwinYield_keeps (h : Keeps z s) : ∀ {a0}, OutKeeps z (execTwinYield a0 s) :=
  out_next (runKiosk_keeps (fun _ _ _ ht => twinYieldEffect_keeps ht) h)

theorem execTwinResolve_keeps (h : Keeps z s) : ∀ {a0}, OutKeeps z (execTwinResolve a0 s) :=
  out_next (runKiosk_keeps (fun _ _ _ ht => twinResolveEffect_keeps ht) h)

theorem execTwinPromote_keeps (h : Keeps z s) : ∀ {a0}, OutKeeps z (execTwinPromote a0 s) :=
  out_next (runKiosk_keeps (fun _ _ _ ht => twinPromoteEffect_keeps ht) h)

theorem execTwinAddress_keeps (h : Keeps z s) : ∀ {a0}, OutKeeps z (execTwinAddress a0 s) :=
  out_next (runKiosk_keeps (fun _ _ _ ht => twinAddressEffect_keeps ht) h)

/-! ### Kiosk -/

theorem sysLogStatusEffect_keeps (h : Keeps z s) : ∀ {a0 a1}, Keeps z (sysLogStatusEffect a0 a1 s).1 :=
  h

theorem openSeal_keeps (h : Keeps z s) : ∀ {a0 a1 a2}, Keeps z (openSeal a0 a1 a2 s).2 := by
  intros
  unfold openSeal
  extract_lets -merge -useContext -underBinder +onlyGivenNames x0
  refine keeps_ite_2 h ?_
  split
  all_goals first
    | exact h
    | skip
      extract_lets -merge -useContext -underBinder +onlyGivenNames x1
      split
      all_goals first
        | exact onSm_keeps h
        | exact h
    | exact keeps_ite_2 h h

theorem sealFailed_keeps (h : Keeps z s) : Keeps z (sealFailed s) :=
  sessionEnd_keeps (onSm_keeps h)

theorem ringKiosk_keeps (h : Keeps z s) : ∀ {a0}, Keeps z (ringKiosk a0 s) := by
  intros
  unfold ringKiosk
  extract_lets -merge -useContext -underBinder +onlyGivenNames x0 x1 x2 x3
  have hx2 : ∀ x2a0 x2a1, Keeps z x2a1 → Keeps z (x2 x2a0 x2a1) := by
    intro x2a0 x2a1 hx2a1
    unfold x2
    beta_reduce
    exact onKiosk_keeps hx2a1
  clear_value x2
  have hx3 : Keeps z x3.2 := openSeal_keeps h
  clear_value x3
  refine keeps_ite h ?_
  refine keeps_ite (onKiosk_keeps (onHost_keeps h)) ?_
  refine keeps_ite (answerFail_keeps (hx2 _ _ h)) ?_
  split
  all_goals first
    | exact answerFail_keeps (hx2 _ _ (sealFailed_keeps hx3))
    | skip
      extract_lets -merge -useContext -underBinder +onlyGivenNames s4
      have hs4 : Keeps z s4 := hx2 _ _ hx3
      clear_value s4
      split
      all_goals first
        | exact answerFail_keeps hs4
        | exact hs4

theorem sysVersionEffect_keeps (h : Keeps z s) : ∀ {a0 a1}, Keeps z (sysVersionEffect a0 a1 s).1 :=
  h

theorem execSysVersion_keeps (h : Keeps z s) : ∀ {a0}, OutKeeps z (execSysVersion a0 s) :=
  out_next (runKiosk_keeps (fun _ _ _ ht => sysVersionEffect_keeps ht) h)

theorem sysEchoEffect_keeps (h : Keeps z s) : ∀ {a0 a1}, Keeps z (sysEchoEffect a0 a1 s).1 :=
  h

theorem ringZero_keeps (h : Keeps z s) : Keeps z (ringZero s) := by
  unfold ringZero
  split
  · rename_i t e
    exact execKiosk0Ack_keeps h t e
  · exact h

theorem doorbell_keeps (h : Keeps z s) : ∀ {a0}, Keeps z (doorbell a0 s) :=
  keeps_ite (ringZero_keeps h) (ringKiosk_keeps h)

theorem execKioskDoorbell_keeps (h : Keeps z s) : ∀ {a0 a1}, OutKeeps z (execKioskDoorbell a0 a1 s) :=
  out_ite (out_next (doorbell_keeps h)) (out_next h)

theorem sysTimeEffect_keeps (h : Keeps z s) : ∀ {a0 a1 a2 a3}, Keeps z (sysTimeEffect a0 a1 a2 a3 s).1 := by
  intros
  unfold sysTimeEffect
  extract_lets -merge -useContext -underBinder +onlyGivenNames x0
  exact h

theorem execSysTime_keeps (h : Keeps z s) : ∀ {a0 a1 a2}, OutKeeps z (execSysTime a0 a1 a2 s) :=
  out_next (runKiosk_keeps (fun _ _ _ ht => sysTimeEffect_keeps ht) h)

theorem sysEventConfigEffect_keeps (h : Keeps z s) : ∀ {a0 a1}, Keeps z (sysEventConfigEffect a0 a1 s).1 :=
  keeps_ite (onHost_keeps h) h

theorem execSysEventConfig_keeps (h : Keeps z s) : ∀ {a0}, OutKeeps z (execSysEventConfig a0 s) :=
  out_next (runKiosk_keeps (fun _ _ _ ht => sysEventConfigEffect_keeps ht) h)

theorem execSysEcho_keeps (h : Keeps z s) : ∀ {a0}, OutKeeps z (execSysEcho a0 s) :=
  out_next (runKiosk_keeps (fun _ _ _ ht => sysEchoEffect_keeps ht) h)

theorem sysKioskStatusEffect_keeps (h : Keeps z s) : ∀ {a0 a1}, Keeps z (sysKioskStatusEffect a0 a1 s).1 :=
  h

theorem execSysKioskStatus_keeps (h : Keeps z s) : ∀ {a0}, OutKeeps z (execSysKioskStatus a0 s) :=
  out_next (runKiosk_keeps (fun _ _ _ ht => sysKioskStatusEffect_keeps ht) h)

theorem execSysLogStatus_keeps (h : Keeps z s) : ∀ {a0}, OutKeeps z (execSysLogStatus a0 s) :=
  out_next (runKiosk_keeps (fun _ _ _ ht => sysLogStatusEffect_keeps ht) h)

/-! ### Boot -/

theorem stagingWrite_keeps (h : Keeps z s) : ∀ {a0 a1}, Keeps z (stagingWrite a0 a1 s) :=
  keeps_ite h (onMat_keeps h (memWf_foldl _ (fun m i hm => memWf_stagingByte _ _ m i hm)))

theorem execNetworkBootTimeout_keeps (h : Keeps z s) : OutKeeps z (execNetworkBootTimeout s) :=
  out_ite (out_next (onHost_keeps h)) (out_next h)

theorem execBootImageLoaded_keeps (h : Keeps z s) : ∀ {a0}, OutKeeps z (execBootImageLoaded a0 s) := by
  intros
  unfold execBootImageLoaded
  refine out_ite ?_ (out_next h)
  split
  all_goals first
    | exact out_next (onHost_keeps (onMat_keeps h (fun hm => memWf_memWrite _ _ _ hm)))
    | exact out_ite (out_next (onHost_keeps h)) (out_next h)

theorem fwLoad_keeps (h : Keeps z s) : ∀ {a0}, Keeps z (fwLoad a0 s) :=
  keeps_ite h (keeps_ite (onHost_keeps h) (keeps_ite (onHost_keeps h) (onHost_keeps h)))

theorem execFwLoadWrite_keeps (h : Keeps z s) : ∀ {a0}, OutKeeps z (execFwLoadWrite a0 s) :=
  out_ite (out_next (fwLoad_keeps h)) (out_next h)

theorem execFwVerifyComplete_keeps (h : Keeps z s) : ∀ {a0 a1 a2}, OutKeeps z (execFwVerifyComplete a0 a1 a2 s) := by
  intros
  unfold execFwVerifyComplete
  extract_lets -merge -useContext -underBinder +onlyGivenNames x0 x1
  exact out_ite (out_ite (out_next (onMat_keeps (onSm_keeps (onHost_keeps h)) (fun hm => hm))) (out_next (onHost_keeps h))) (out_next h)

theorem execStagingWindowWrite_keeps (h : Keeps z s) : ∀ {a0 a1}, OutKeeps z (execStagingWindowWrite a0 a1 s) :=
  out_ite (out_next (stagingWrite_keeps h)) (out_next h)

/-! ### DataPort -/

theorem bulkStatusEffect_keeps (h : Keeps z s) : ∀ {a0 a1}, Keeps z (bulkStatusEffect a0 a1 s).1 := by
  intros
  unfold bulkStatusEffect
  extract_lets -merge -useContext -underBinder +onlyGivenNames x0
  exact h

theorem execBulkStatus_keeps (h : Keeps z s) : ∀ {a0}, OutKeeps z (execBulkStatus a0 s) :=
  out_next (runKiosk_keeps (fun _ _ _ ht => bulkStatusEffect_keeps ht) h)

theorem blockWords_keeps (h : Keeps z s) : ∀ {a0 a1}, Keeps z (blockWords a0 a1 s) :=
  foldl_keeps h fun t0 t0a ht0 => outsideWrite_keeps ht0

theorem byteWords_keeps (h : Keeps z s) : ∀ {a0 a1}, Keeps z (byteWords a0 a1 s) := by
  intros
  unfold byteWords
  refine foldl_keeps h (fun t0 t0a ht0 => ?_)
  extract_lets -merge -useContext -underBinder +onlyGivenNames x1 s2
  have hs2 : Keeps z s2 := keeps_ite (onSm_keeps ht0) ht0
  clear_value s2
  exact onMat_keeps hs2 (fun hm => memWf_memPut _ _ _ hm)

theorem gainWords_keeps : ∀ {l : List (Nat × List Byte)} {n : Nat} {s : State}, Keeps z s → Keeps z (gainWords l n s).1
  | [], _, _, h => h
  | (a, b) :: t, n, s, h => by
    unfold gainWords
    split
    · exact gainWords_keeps (onXp_keeps h)
    · exact onXp_keeps h

theorem applyWords_keeps (h : Keeps z s) : ∀ {a0 a1}, Keeps z (applyWords a0 a1 s).1 :=
  keeps_ite_1 (gainWords_keeps h) (keeps_ite_1 (byteWords_keeps h) (blockWords_keeps h))

theorem dpCount_keeps (h : Keeps z s) : ∀ {a0 a1}, Keeps z (dpCount a0 a1 s) :=
  onDp_keeps h

theorem dpFail_keeps (h : Keeps z s) : ∀ {a0 a1 a2}, Keeps z (dpFail a0 a1 a2 s) :=
  sendMsi_keeps (setIrq_keeps (onDp_keeps h))

theorem dpApply_keeps (h : Keeps z s) : ∀ {a0 a1 a2}, Keeps z (dpApply a0 a1 a2 s) := by
  intros
  unfold dpApply
  extract_lets -merge -useContext -underBinder +onlyGivenNames x0 x1 s2
  have hx1 : Keeps z x1.1 := applyWords_keeps h
  clear_value x1
  have hs2 : Keeps z s2 := dpCount_keeps (onDp_keeps hx1)
  clear_value s2
  split
  all_goals first
    | exact dpFail_keeps hs2
    | exact hs2

theorem dpEnd_keeps (h : Keeps z s) : ∀ {a0}, Keeps z (dpEnd a0 s) := by
  intros
  unfold dpEnd
  extract_lets -merge -useContext -underBinder +onlyGivenNames x0 s1 x2 s3
  have hs1 : Keeps z s1 := onDp_keeps h
  clear_value s1
  have hs3 : Keeps z s3 := keeps_ite (onTwin_keeps hs1) hs1
  clear_value s3
  exact keeps_ite hs1 (keeps_ite (onTwin_keeps hs1) (dpApply_keeps hs3))

theorem bulkCloseEffect_keeps (h : Keeps z s) : ∀ {a0 a1}, Keeps z (bulkCloseEffect a0 a1 s).1 := by
  intros
  unfold bulkCloseEffect
  extract_lets -merge -useContext -underBinder +onlyGivenNames x0 s1 x2
  have hs1 : Keeps z s1 := dpEnd_keeps h
  clear_value s1
  exact onDp_keeps hs1

theorem spaceRead_keeps (h : Keeps z s) : ∀ {a0 a1}, Keeps z (spaceRead a0 a1 s).2 := by
  intros
  unfold spaceRead
  split
  all_goals first
    | exact h
    | skip
      extract_lets -merge -useContext -underBinder +onlyGivenNames x0 x1
      exact h
    | exact onFree_keeps h

theorem spaceReads_keeps : ∀ {space : Nat} {d : Int} {n : Nat} {a : Int} {p : List Byte × State}, Keeps z p.2 →
    Keeps z (spaceReads space d n a p).2.1
  | _, _, 0, _, _, h => h
  | space, d, n + 1, a, p, h => by
    unfold spaceReads
    split
    · exact h
    · exact spaceReads_keeps (p := (_, _)) (spaceRead_keeps h)

theorem crcWords_keeps (h : Keeps z s) : ∀ {a0}, Keeps z (crcWords a0 s).2.1 :=
  spaceReads_keeps h

theorem bulkCrcEffect_keeps (h : Keeps z s) : ∀ {a0 a1}, Keeps z (bulkCrcEffect a0 a1 s).1 := by
  intros
  unfold bulkCrcEffect
  extract_lets -merge -useContext -underBinder +onlyGivenNames x0
  have hx0 : Keeps z x0.2.1 := crcWords_keeps h
  clear_value x0
  exact hx0

theorem execBulkCrc_keeps (h : Keeps z s) : ∀ {a0}, OutKeeps z (execBulkCrc a0 s) :=
  out_next (runKiosk_keeps (fun _ _ _ ht => bulkCrcEffect_keeps ht) h)

theorem bulkSpaceInfoEffect_keeps (h : Keeps z s) : ∀ {a0 a1}, Keeps z (bulkSpaceInfoEffect a0 a1 s).1 := by
  intros
  unfold bulkSpaceInfoEffect
  extract_lets -merge -useContext -underBinder +onlyGivenNames x0
  exact h

theorem dpSetAddr_keeps (h : Keeps z s) : ∀ {a0 a1}, Keeps z (dpSetAddr a0 a1 s) :=
  onDp_keeps (dpEnd_keeps h)

theorem execDpAddrWrite_keeps (h : Keeps z s) : ∀ {a0 a1}, OutKeeps z (execDpAddrWrite a0 a1 s) :=
  out_next (dpSetAddr_keeps h)

theorem execDpBurstIdleEnd_keeps (h : Keeps z s) : ∀ {a0}, OutKeeps z (execDpBurstIdleEnd a0 s) := by
  intros
  unfold execDpBurstIdleEnd
  extract_lets -merge -useContext -underBinder +onlyGivenNames x0
  exact out_ite (out_next (dpEnd_keeps h)) (out_next h)

theorem bulkOpenEffect_keeps (h : Keeps z s) : ∀ {a0 a1}, Keeps z (bulkOpenEffect a0 a1 s).1 :=
  onDp_keeps h

theorem execDpErrorClear_keeps (h : Keeps z s) : ∀ {a0}, OutKeeps z (execDpErrorClear a0 s) :=
  out_next (onDp_keeps h)

theorem dpNotOpen_keeps (h : Keeps z s) : ∀ {a0}, Keeps z (dpNotOpen a0 s) :=
  onDp_keeps h

theorem readWords_keeps : ∀ {c : Nat} {ded : Option Nat} {l : List Nat} {k : Nat} {acc : List Byte} {s : State}, Keeps z s →
    Keeps z (readWords c ded l k acc s).2
  | _, _, [], _, _, _, h => h
  | c, ded, i :: t, k, acc, s, h => by
    unfold readWords
    extract_lets q0 w s1 q a bad r
    have h1 : Keeps z s1 := keeps_ite (dpEnd_keeps h) h
    clear_value bad
    by_cases hq : q.error = true ∨ q.open_ = false
    · rw [if_pos hq]
      exact h1
    · rw [if_neg hq]
      cases bad with
      | some st => exact dpFail_keeps h1
      | none =>
        exact keeps_ite_2 (dpFail_keeps (busErr_keeps (onMat_keeps h1 (fun hm => hm))))
          (readWords_keeps (dpCount_keeps (onDp_keeps (spaceRead_keeps h1))))

theorem dpRead_keeps (h : Keeps z s) : ∀ {a0 a1 a2 a3}, Keeps z (dpRead a0 a1 a2 a3 s).2 := by
  intros
  unfold dpRead
  extract_lets -merge -useContext -underBinder +onlyGivenNames x0 x1 s2 x3
  have hs2 : Keeps z s2 := keeps_ite h (dpEnd_keeps h)
  clear_value s2
  have hx3 : Keeps z x3.2 := readWords_keeps hs2
  clear_value x3
  exact keeps_ite_2 h (keeps_ite_2 (dpNotOpen_keeps h) (keeps_ite_2 h hx3))

theorem execDataPortRead_keeps (h : Keeps z s) : ∀ {a0 a1 a2 a3}, OutKeeps z (execDataPortRead a0 a1 a2 a3 s) := by
  intros
  unfold execDataPortRead
  extract_lets -merge -useContext -underBinder +onlyGivenNames x0
  have hx0 : Keeps z x0.2 := dpRead_keeps h
  clear_value x0
  exact out_next (onHost_keeps hx0)

theorem writeWords_keeps : ∀ {c o : Nat} {d : List (Option Byte)} {l : List Nat} {left : Nat} {s : State}, Keeps z s →
    Keeps z (writeWords c o d l left s)
  | _, _, _, [], _, _, h => h
  | c, o, d, i :: t, left, s, h => by
    unfold writeWords
    extract_lets q0 w s1 q a bad
    have h1 : Keeps z s1 := keeps_ite (dpEnd_keeps h) h
    clear_value bad
    by_cases hq : q.error = true ∨ q.open_ = false
    · rw [if_pos hq]
      exact h1
    · rw [if_neg hq]
      cases bad with
      | some st => exact keeps_ite (dpEnd_keeps h1) (dpFail_keeps (dpEnd_keeps h1))
      | none => exact writeWords_keeps (onDp_keeps h1)

theorem dpWrite_keeps (h : Keeps z s) : ∀ {a0 a1 a2}, Keeps z (dpWrite a0 a1 a2 s) := by
  intros
  unfold dpWrite
  extract_lets -merge -useContext -underBinder +onlyGivenNames x0 s1
  have hs1 : Keeps z s1 := writeWords_keeps h
  clear_value s1
  exact keeps_ite h (keeps_ite (dpNotOpen_keeps h) (keeps_ite h (keeps_ite (dpEnd_keeps hs1) hs1)))

theorem execBulkSpaceInfo_keeps (h : Keeps z s) : ∀ {a0}, OutKeeps z (execBulkSpaceInfo a0 s) :=
  out_next (runKiosk_keeps (fun _ _ _ ht => bulkSpaceInfoEffect_keeps ht) h)

theorem execBulkClose_keeps (h : Keeps z s) : ∀ {a0}, OutKeeps z (execBulkClose a0 s) :=
  out_next (runKiosk_keeps (fun _ _ _ ht => bulkCloseEffect_keeps ht) h)

theorem execDpCommit_keeps (h : Keeps z s) : ∀ {a0}, OutKeeps z (execDpCommit a0 s) :=
  out_next (dpEnd_keeps h)

theorem execBulkOpen_keeps (h : Keeps z s) : ∀ {a0}, OutKeeps z (execBulkOpen a0 s) :=
  out_next (runKiosk_keeps (fun _ _ _ ht => bulkOpenEffect_keeps ht) h)

theorem execDataPortWrite_keeps (h : Keeps z s) : ∀ {a0 a1 a2}, OutKeeps z (execDataPortWrite a0 a1 a2 s) :=
  out_next (dpWrite_keeps h)

/-! ### DspCmd -/

theorem dspPlacementReadEffect_keeps (h : Keeps z s) : ∀ {a0 a1}, Keeps z (dspPlacementReadEffect a0 a1 s).1 := by
  intros
  unfold dspPlacementReadEffect
  extract_lets -merge -useContext -underBinder +onlyGivenNames x0 x1 x2 s3
  have hs3 : Keeps z s3 := onPlace_keeps h
  clear_value s3
  exact foldl_keeps hs3 fun t4 t4a ht4 => onWork_keeps ht4

theorem dspThresholdsEffect_keeps (h : Keeps z s) : ∀ {a0 a1}, Keeps z (dspThresholdsEffect a0 a1 s).1 := by
  intros
  unfold dspThresholdsEffect
  extract_lets -merge -useContext -underBinder +onlyGivenNames x0
  exact keeps_ite_1 (onPlace_keeps h) h

theorem execDspThresholds_keeps (h : Keeps z s) : ∀ {a0}, OutKeeps z (execDspThresholds a0 s) :=
  out_next (runKiosk_keeps (fun _ _ _ ht => dspThresholdsEffect_keeps ht) h)

theorem execSlackWindowEnd_keeps (h : Keeps z s) : ∀ {a0}, OutKeeps z (execSlackWindowEnd a0 s) := by
  intros
  unfold execSlackWindowEnd
  extract_lets -merge -useContext -underBinder +onlyGivenNames s0 s1 x2 s3 s4 s5 s6
  have hs0 : Keeps z s0 := noteMedians_keeps h
  clear_value s0
  have hs1 : Keeps z s1 := foldl_keeps hs0 fun t7 t7a ht7 => noteSpeed_keeps ht7
  clear_value s1
  have hs3 : Keeps z s3 := foldl_keeps hs1 fun t8 t8a ht8 => windowWork_keeps ht8
  clear_value s3
  have hs4 : Keeps z s4 := foldl_keeps hs3 fun t9 t9a ht9 => windowAvenue_keeps ht9
  clear_value s4
  have hs5 : Keeps z s5 := rebalance_keeps (rebalance_keeps (retryMoves_keeps hs4))
  clear_value s5
  have hs6 : Keeps z s6 := onPlace_keeps hs5
  clear_value s6
  refine out_ite (out_next (windowDrop_keeps h)) ?_
  refine out_ite ?_ (out_next h)
  refine out_next ?_
  refine placeSnap_keeps ?_
  split
  all_goals first
    | exact onPlace_keeps hs6
    | exact hs6

theorem auditWrap_keeps (h : Keeps z s) : ∀ {a0 a1}, Keeps z (auditWrap a0 a1 s) := by
  intros
  unfold auditWrap
  extract_lets -merge -useContext -underBinder +onlyGivenNames x0 s1 x2
  have hs1 : Keeps z s1 := keeps_ite (onDist_keeps h) h
  clear_value s1
  exact keeps_ite (foldl_keeps (onPlace_keeps hs1) fun t3 t3a ht3 => onDist_keeps ht3) hs1

theorem execAuditWindowEnd_keeps (h : Keeps z s) : ∀ {a0 a1}, OutKeeps z (execAuditWindowEnd a0 a1 s) := by
  intros
  unfold execAuditWindowEnd
  split
  all_goals first
    | skip
      extract_lets -merge -useContext -underBinder +onlyGivenNames s0
      have hs0 : Keeps z s0 := auditWrap_keeps (onPlace_keeps (endMove_keeps h))
      clear_value s0
      exact out_next (keeps_ite (onWork_keeps hs0) (startTie_keeps hs0))
    | exact out_next h

theorem dspHealthExportEffect_keeps (h : Keeps z s) : ∀ {a0 a1}, Keeps z (dspHealthExportEffect a0 a1 s).1 := by
  intros
  unfold dspHealthExportEffect
  extract_lets -merge -useContext -underBinder +onlyGivenNames x0 s1
  have hs1 : Keeps z s1 := keeps_ite (onPlace_keeps h) h
  clear_value s1
  exact hs1

theorem execShadowRunEnd_keeps (h : Keeps z s) : ∀ {a0 a1}, OutKeeps z (execShadowRunEnd a0 a1 s) := by
  intros
  unfold execShadowRunEnd
  split
  all_goals first
    | exact out_next (keeps_ite (onPlace_keeps h) h)
    | exact out_next h

theorem execTieBreakComplete_keeps (h : Keeps z s) : ∀ {a0 a1}, OutKeeps z (execTieBreakComplete a0 a1 s) := by
  intros
  unfold execTieBreakComplete
  split
  · extract_lets -merge -useContext -underBinder +onlyGivenNames s0
    have hs0 : Keeps z s0 := onPlace_keeps h
    clear_value s0
    refine out_next ?_
    split
    · exact tileLoses_keeps hs0
    · exact noteAudit_keeps (decideMove_keeps (tileLoses_keeps hs0))
    · exact unresolved_keeps hs0
  · exact out_next h

theorem execContextTransferComplete_keeps (h : Keeps z s) : ∀ {a0}, OutKeeps z (execContextTransferComplete a0 s) :=
  out_next (onPlace_keeps h)

theorem healthImport_keeps (h : Keeps z s) : ∀ {a0}, Keeps z (healthImport a0 s) := by
  intros
  unfold healthImport
  extract_lets -merge -useContext -underBinder +onlyGivenNames s0 x1 s2
  have hs0 : Keeps z s0 := by
    refine foldl_keeps h (fun t3 t3a ht3 => ?_)
    extract_lets -merge -useContext -underBinder +onlyGivenNames x4 x5
    exact onTile_keeps (keeps_ite (onPlace_keeps ht3) ht3)
  clear_value s0
  have hs2 : Keeps z s2 := by
    refine foldl_keeps hs0 (fun t6 t6a ht6 => ?_)
    extract_lets -merge -useContext -underBinder +onlyGivenNames x7 x8
    exact keeps_ite (onTile_keeps ht6) ht6
  clear_value s2
  exact hs2

theorem execCellRepair_keeps (h : Keeps z s) : ∀ {a0}, OutKeeps z (execCellRepair a0 s) := by
  intros
  unfold execCellRepair
  extract_lets -merge -useContext -underBinder +onlyGivenNames x0
  exact out_ite (out_next (onTile_keeps h)) (out_ite (out_next (onWave_keeps h)) (out_next (onTile_keeps h)))

theorem dspDistrictReadEffect_keeps (h : Keeps z s) : ∀ {a0 a1}, Keeps z (dspDistrictReadEffect a0 a1 s).1 :=
  h

theorem execDspDistrictRead_keeps (h : Keeps z s) : ∀ {a0}, OutKeeps z (execDspDistrictRead a0 s) :=
  out_next (runKiosk_keeps (fun _ _ _ ht => dspDistrictReadEffect_keeps ht) h)

theorem updateTile_keeps (h : Keeps z s) : ∀ {a0}, Keeps z (updateTile a0 s) := by
  intros
  unfold updateTile
  extract_lets -merge -useContext -underBinder +onlyGivenNames s0
  have hs0 : Keeps z s0 := onTile_keeps h
  clear_value s0
  exact keeps_ite (retireTile_keeps hs0) hs0

theorem dspHealthImportEffect_keeps (h : Keeps z s) : ∀ {a0 a1}, Keeps z (dspHealthImportEffect a0 a1 s).1 := by
  intros
  unfold dspHealthImportEffect
  extract_lets -merge -useContext -underBinder +onlyGivenNames x0 x1
  exact keeps_ite_1 (healthImport_keeps (onPlace_keeps h)) (onPlace_keeps h)

theorem execDspHealthImport_keeps (h : Keeps z s) : ∀ {a0}, OutKeeps z (execDspHealthImport a0 s) :=
  out_next (runKiosk_keeps (fun _ _ _ ht => dspHealthImportEffect_keeps ht) h)

theorem dspAuditConfigEffect_keeps (h : Keeps z s) : ∀ {a0 a1}, Keeps z (dspAuditConfigEffect a0 a1 s).1 := by
  intros
  unfold dspAuditConfigEffect
  extract_lets -merge -useContext -underBinder +onlyGivenNames x0 x1 x2 s3
  have hs3 : Keeps z s3 := onPlace_keeps h
  clear_value s3
  exact keeps_ite_1 (keeps_ite (raise_keeps hs3) hs3) h

theorem execDspAuditConfig_keeps (h : Keeps z s) : ∀ {a0}, OutKeeps z (execDspAuditConfig a0 s) :=
  out_next (runKiosk_keeps (fun _ _ _ ht => dspAuditConfigEffect_keeps ht) h)

theorem dspStatusEffect_keeps (h : Keeps z s) : ∀ {a0 a1}, Keeps z (dspStatusEffect a0 a1 s).1 := by
  intros
  unfold dspStatusEffect
  extract_lets -merge -useContext -underBinder +onlyGivenNames x0
  exact h

theorem execWorkReplace_keeps (h : Keeps z s) : ∀ {a0}, OutKeeps z (execWorkReplace a0 s) := by
  intros
  unfold execWorkReplace
  extract_lets -merge -useContext -underBinder +onlyGivenNames x0 x1
  clear_value x1
  refine out_ite ?_ (out_next h)
  split
  all_goals first
    | exact out_next (endShortfall_keeps (pinCheck_keeps (settleWork_keeps h)))
    | exact out_next h

theorem execAuditStart_keeps (h : Keeps z s) : ∀ {a0}, OutKeeps z (execAuditStart a0 s) := by
  intros
  unfold execAuditStart
  extract_lets -merge -useContext -underBinder +onlyGivenNames x0 x1 x2
  refine out_ite ?_ (out_next h)
  split
  all_goals first
    | skip
      extract_lets -merge -useContext -underBinder +onlyGivenNames x3 x4 s5 x6
      have hs5 : Keeps z s5 := onDist_keeps h
      clear_value s5
      exact out_next (startMove_keeps hs5)
    | exact out_next h

theorem execHealthUpdate_keeps (h : Keeps z s) : OutKeeps z (execHealthUpdate s) := by
  unfold execHealthUpdate
  extract_lets -merge -useContext -underBinder +onlyGivenNames s0
  have hs0 : Keeps z s0 := onPlace_keeps h
  clear_value s0
  exact out_ite (out_next (foldl_keeps hs0 fun t1 t1a ht1 => updateTile_keeps ht1)) (out_next h)

theorem execDspStatus_keeps (h : Keeps z s) : ∀ {a0}, OutKeeps z (execDspStatus a0 s) :=
  out_next (runKiosk_keeps (fun _ _ _ ht => dspStatusEffect_keeps ht) h)

theorem execHealthSave_keeps (h : Keeps z s) : OutKeeps z (execHealthSave s) :=
  out_ite (out_next (raise_keeps (onPlace_keeps h))) (out_next h)

theorem execDspPlacementRead_keeps (h : Keeps z s) : ∀ {a0}, OutKeeps z (execDspPlacementRead a0 s) :=
  out_next (runKiosk_keeps (fun _ _ _ ht => dspPlacementReadEffect_keeps ht) h)

theorem execDspHealthExport_keeps (h : Keeps z s) : ∀ {a0}, OutKeeps z (execDspHealthExport a0 s) :=
  out_next (runKiosk_keeps (fun _ _ _ ht => dspHealthExportEffect_keeps ht) h)

/-! ### Forward -/

theorem forwardedCmd_keeps {code : Nat} {m : Meaning} (hm : forwardedCmd code = some m) {k : Nat} {p : List Byte}
    (h : Keeps z s) : Keeps z (m.2 k p s).1 := by
  unfold forwardedCmd at hm
  split at hm <;> cases hm
  · exact @planLoadEffect_keeps z s h k p
  · exact @planBlockInsertEffect_keeps z s h k p
  · exact @planBlockRemoveEffect_keeps z s h k p
  · exact @planEqBypassEffect_keeps z s h k p
  · exact @planUnloadEffect_keeps z s h k p
  · exact @xpNodeWriteEffect_keeps z s h k p
  · exact @xpStepTimeoutEffect_keeps z s h k p
  · exact @xpSceneCommitEffect_keeps z s h k p
  · exact @xpSceneDiscardEffect_keeps z s h k p
  · exact @xpOvlDefineEffect_keeps z s h k p
  · exact @xpOvlClearEffect_keeps z s h k p
  · exact @xpOvlSetEffect_keeps z s h k p
  · exact @xpOvlBindEffect_keeps z s h k p
  · exact @blkParamWriteEffect_keeps z s h k p
  · exact @blkCoefWriteEffect_keeps z s h k p
  · exact @blkSosWriteEffect_keeps z s h k p
  · exact @playerStartEffect_keeps z s h k p
  · exact @playerStopEffect_keeps z s h k p
  · exact @playerBindEffect_keeps z s h k p
  · exact @drvLinkConfigEffect_keeps z s h k p
  · exact @drvThermalSetEffect_keeps z s h k p
  · exact @drvPilotSetEffect_keeps z s h k p
  · exact @drvKerbSetEffect_keeps z s h k p
  · exact @drvZLimitsEffect_keeps z s h k p
  · exact @drvChannelCtlEffect_keeps z s h k p
  · exact @drvCalWriteEffect_keeps z s h k p
  · exact @z640XpWriteEffect_keeps z s h k p
  · exact @z640StripMuteEffect_keeps z s h k p
  · exact @z640RecallEffect_keeps z s h k p

theorem applyCmd_keeps (h : Keeps z s) : ∀ {r}, Keeps z (applyCmd r s) := by
  intro r
  unfold applyCmd
  split
  · exact h
  · rename_i m hm
    extract_lets s1
    have h1 : Keeps z s1 := keeps_ite (onKiosk_keeps h) h
    split
    · exact answerFail_keeps h1
    · exact settle_keeps (forwardedCmd_keeps hm h1)

theorem joinBlock_keeps (h : Keeps z s) : ∀ {a0}, Keeps z (joinBlock a0 s) := by
  intros
  unfold joinBlock
  extract_lets -merge -useContext -underBinder +onlyGivenNames x0
  exact foldl_keeps h fun t1 t1a ht1 => onLane_keeps ht1

theorem joinPlan_keeps (h : Keeps z s) : ∀ {a0}, Keeps z (joinPlan a0 s) := by
  intros
  unfold joinPlan
  extract_lets -merge -useContext -underBinder +onlyGivenNames x0
  exact keeps_ite h (onPlan_keeps (takeEffect_keeps h))

theorem applyConfig_keeps (h : Keeps z s) : ∀ {a0}, Keeps z (applyConfig a0 s) := by
  intros
  unfold applyConfig
  extract_lets -merge -useContext -underBinder +onlyGivenNames x0
  have hx0 : ∀ x0a0, Keeps z (x0 x0a0) := by
    intro x0a0
    unfold x0
    beta_reduce
    exact byteWords_keeps h
  clear_value x0
  split
  all_goals first
    | exact hx0 _
    | exact joinPlan_keeps h
    | exact onXp_keeps h
    | skip
      extract_lets -merge -useContext -underBinder +onlyGivenNames x1
      exact onXp_keeps h
    | skip
      extract_lets -merge -useContext -underBinder +onlyGivenNames x2
      exact onXp_keeps h
    | exact onChan_keeps h
    | exact onDrv_keeps h
    | exact joinBlock_keeps h

theorem applyData_keeps (h : Keeps z s) : ∀ {a0}, Keeps z (applyData a0 s) :=
  keeps_ite (dpApply_keeps h) (applyWords_keeps h)

theorem applyRec_keeps (h : Keeps z s) : ∀ {a1}, Keeps z (applyRec s a1) := by
  intros
  unfold applyRec
  extract_lets -merge -useContext -underBinder +onlyGivenNames s0 s1
  have hs0 : Keeps z s0 := onTwin_keeps h
  clear_value s0
  have hs1 : Keeps z s1 := keeps_ite (applyConfig_keeps hs0) (keeps_ite (applyData_keeps hs0) (keeps_ite (resolveAct_keeps hs0) (applyCmd_keeps hs0)))
  clear_value s1
  exact onTwin_keeps hs1

theorem forwardAll_keeps (h : Keeps z s) : Keeps z (forwardAll s) := by
  unfold forwardAll
  extract_lets -merge -useContext -underBinder +onlyGivenNames x0
  exact foldl_keeps (onTwin_keeps h) fun t1 t1a ht1 => applyRec_keeps ht1

theorem execForwardedCommandApply_keeps (h : Keeps z s) : OutKeeps z (execForwardedCommandApply s) :=
  out_next (forwardAll_keeps h)

/-! ### LaneAlu -/

theorem execAdds_keeps (h : Keeps z s) : ∀ {a0 a1 a2 a3 a4}, OutKeeps z (execAdds a0 a1 a2 a3 a4 s) :=
  out_next (issue_keeps h)

theorem execLshi_keeps (h : Keeps z s) : ∀ {a0 a1 a2 a3 a4}, OutKeeps z (execLshi a0 a1 a2 a3 a4 s) :=
  out_next (issue_keeps h)

theorem execMulf_keeps (h : Keeps z s) : ∀ {a0 a1 a2 a3 a4}, OutKeeps z (execMulf a0 a1 a2 a3 a4 s) :=
  out_next (issue_keeps h)

theorem execLdih_keeps (h : Keeps z s) : ∀ {a0 a1 a2 a3}, OutKeeps z (execLdih a0 a1 a2 a3 s) :=
  out_next (issue_keeps h)

theorem execLsh_keeps (h : Keeps z s) : ∀ {a0 a1 a2 a3 a4}, OutKeeps z (execLsh a0 a1 a2 a3 a4 s) :=
  out_next (issue_keeps h)

theorem execAshi_keeps (h : Keeps z s) : ∀ {a0 a1 a2 a3 a4}, OutKeeps z (execAshi a0 a1 a2 a3 a4 s) :=
  out_next (issue_keeps h)

theorem execXori_keeps (h : Keeps z s) : ∀ {a0 a1 a2 a3 a4}, OutKeeps z (execXori a0 a1 a2 a3 a4 s) :=
  out_next (issue_keeps h)

theorem execCmpi_keeps (h : Keeps z s) : ∀ {a0 a1 a2 a3}, OutKeeps z (execCmpi a0 a1 a2 a3 s) :=
  out_next (issue_keeps h)

theorem execAddi_keeps (h : Keeps z s) : ∀ {a0 a1 a2 a3 a4}, OutKeeps z (execAddi a0 a1 a2 a3 a4 s) :=
  out_next (issue_keeps h)

theorem execAbs_keeps (h : Keeps z s) : ∀ {a0 a1 a2 a3}, OutKeeps z (execAbs a0 a1 a2 a3 s) :=
  out_next (issue_keeps h)

theorem execNot_keeps (h : Keeps z s) : ∀ {a0 a1 a2 a3}, OutKeeps z (execNot a0 a1 a2 a3 s) :=
  out_next (issue_keeps h)

theorem execAndi_keeps (h : Keeps z s) : ∀ {a0 a1 a2 a3 a4}, OutKeeps z (execAndi a0 a1 a2 a3 a4 s) :=
  out_next (issue_keeps h)

theorem execMin_keeps (h : Keeps z s) : ∀ {a0 a1 a2 a3 a4}, OutKeeps z (execMin a0 a1 a2 a3 a4 s) :=
  out_next (issue_keeps h)

theorem execMov_keeps (h : Keeps z s) : ∀ {a0 a1 a2 a3}, OutKeeps z (execMov a0 a1 a2 a3 s) :=
  out_next (issue_keeps h)

theorem execAddsi_keeps (h : Keeps z s) : ∀ {a0 a1 a2 a3 a4}, OutKeeps z (execAddsi a0 a1 a2 a3 a4 s) :=
  out_next (issue_keeps h)

theorem execSub_keeps (h : Keeps z s) : ∀ {a0 a1 a2 a3 a4}, OutKeeps z (execSub a0 a1 a2 a3 a4 s) :=
  out_next (issue_keeps h)

theorem execOr_keeps (h : Keeps z s) : ∀ {a0 a1 a2 a3 a4}, OutKeeps z (execOr a0 a1 a2 a3 a4 s) :=
  out_next (issue_keeps h)

theorem execMax_keeps (h : Keeps z s) : ∀ {a0 a1 a2 a3 a4}, OutKeeps z (execMax a0 a1 a2 a3 a4 s) :=
  out_next (issue_keeps h)

theorem execLdi_keeps (h : Keeps z s) : ∀ {a0 a1 a2 a3}, OutKeeps z (execLdi a0 a1 a2 a3 s) :=
  out_next (issue_keeps h)

theorem execMuli_keeps (h : Keeps z s) : ∀ {a0 a1 a2 a3 a4}, OutKeeps z (execMuli a0 a1 a2 a3 a4 s) :=
  out_next (issue_keeps h)

theorem execOri_keeps (h : Keeps z s) : ∀ {a0 a1 a2 a3 a4}, OutKeeps z (execOri a0 a1 a2 a3 a4 s) :=
  out_next (issue_keeps h)

theorem execNeg_keeps (h : Keeps z s) : ∀ {a0 a1 a2 a3}, OutKeeps z (execNeg a0 a1 a2 a3 s) :=
  out_next (issue_keeps h)

theorem execXor_keeps (h : Keeps z s) : ∀ {a0 a1 a2 a3 a4}, OutKeeps z (execXor a0 a1 a2 a3 a4 s) :=
  out_next (issue_keeps h)

theorem execSubs_keeps (h : Keeps z s) : ∀ {a0 a1 a2 a3 a4}, OutKeeps z (execSubs a0 a1 a2 a3 a4 s) :=
  out_next (issue_keeps h)

theorem execAsh_keeps (h : Keeps z s) : ∀ {a0 a1 a2 a3 a4}, OutKeeps z (execAsh a0 a1 a2 a3 a4 s) :=
  out_next (issue_keeps h)

theorem execAnd_keeps (h : Keeps z s) : ∀ {a0 a1 a2 a3 a4}, OutKeeps z (execAnd a0 a1 a2 a3 a4 s) :=
  out_next (issue_keeps h)

theorem execCmp_keeps (h : Keeps z s) : ∀ {a0 a1 a2 a3}, OutKeeps z (execCmp a0 a1 a2 a3 s) :=
  out_next (issue_keeps h)

theorem execAdd_keeps (h : Keeps z s) : ∀ {a0 a1 a2 a3 a4}, OutKeeps z (execAdd a0 a1 a2 a3 a4 s) :=
  out_next (issue_keeps h)

theorem execNegs_keeps (h : Keeps z s) : ∀ {a0 a1 a2 a3}, OutKeeps z (execNegs a0 a1 a2 a3 s) :=
  out_next (issue_keeps h)

/-! ### LaneMul -/

theorem execAdda_keeps (h : Keeps z s) : ∀ {a0 a1 a2 a3}, OutKeeps z (execAdda a0 a1 a2 a3 s) :=
  out_next (issue_keeps h)

theorem execFirtapn_keeps (h : Keeps z s) : ∀ {a0 a1 a2 a3 a4 a5 a6}, OutKeeps z (execFirtapn a0 a1 a2 a3 a4 a5 a6 s) :=
  out_next (issue_keeps h)

theorem execSuba_keeps (h : Keeps z s) : ∀ {a0 a1 a2 a3}, OutKeeps z (execSuba a0 a1 a2 a3 s) :=
  out_next (issue_keeps h)

theorem execAsha_keeps (h : Keeps z s) : ∀ {a0 a1 a2 a3}, OutKeeps z (execAsha a0 a1 a2 a3 s) :=
  out_next (issue_keeps h)

theorem execPld_keeps (h : Keeps z s) : ∀ {a0 a1 a2 a3}, OutKeeps z (execPld a0 a1 a2 a3 s) :=
  out_next (issue_keeps h)

theorem execCpya_keeps (h : Keeps z s) : ∀ {a0 a1 a2 a3}, OutKeeps z (execCpya a0 a1 a2 a3 s) :=
  out_next (issue_keeps h)

theorem execMovag_keeps (h : Keeps z s) : ∀ {a0 a1 a2 a3}, OutKeeps z (execMovag a0 a1 a2 a3 s) :=
  out_next (issue_keeps h)

theorem execLdal_keeps (h : Keeps z s) : ∀ {a0 a1 a2 a3}, OutKeeps z (execLdal a0 a1 a2 a3 s) :=
  out_next (issue_keeps h)

theorem execLdah_keeps (h : Keeps z s) : ∀ {a0 a1 a2 a3}, OutKeeps z (execLdah a0 a1 a2 a3 s) :=
  out_next (issue_keeps h)

theorem execNega_keeps (h : Keeps z s) : ∀ {a0 a1 a2}, OutKeeps z (execNega a0 a1 a2 s) :=
  out_next (issue_keeps h)

theorem execMoval_keeps (h : Keeps z s) : ∀ {a0 a1 a2 a3}, OutKeeps z (execMoval a0 a1 a2 a3 s) :=
  out_next (issue_keeps h)

theorem execFirtap_keeps (h : Keeps z s) : ∀ {a0 a1 a2 a3 a4 a5 a6}, OutKeeps z (execFirtap a0 a1 a2 a3 a4 a5 a6 s) :=
  out_next (issue_keeps h)

theorem execTsta_keeps (h : Keeps z s) : ∀ {a0 a1 a2}, OutKeeps z (execTsta a0 a1 a2 s) :=
  out_next (issue_keeps h)

theorem execMsu_keeps (h : Keeps z s) : ∀ {a0 a1 a2 a3 a4 a5 a6 a7}, OutKeeps z (execMsu a0 a1 a2 a3 a4 a5 a6 a7 s) :=
  out_next (issue_keeps h)

theorem execMpy_keeps (h : Keeps z s) : ∀ {a0 a1 a2 a3 a4 a5 a6 a7}, OutKeeps z (execMpy a0 a1 a2 a3 a4 a5 a6 a7 s) :=
  out_next (issue_keeps h)

theorem execClra_keeps (h : Keeps z s) : ∀ {a0 a1 a2}, OutKeeps z (execClra a0 a1 a2 s) :=
  out_next (issue_keeps h)

theorem execMpyn_keeps (h : Keeps z s) : ∀ {a0 a1 a2 a3 a4 a5 a6 a7}, OutKeeps z (execMpyn a0 a1 a2 a3 a4 a5 a6 a7 s) :=
  out_next (issue_keeps h)

theorem execMovah_keeps (h : Keeps z s) : ∀ {a0 a1 a2 a3}, OutKeeps z (execMovah a0 a1 a2 a3 s) :=
  out_next (issue_keeps h)

theorem execMac_keeps (h : Keeps z s) : ∀ {a0 a1 a2 a3 a4 a5 a6 a7}, OutKeeps z (execMac a0 a1 a2 a3 a4 a5 a6 a7 s) :=
  out_next (issue_keeps h)

/-! ### Regs -/

theorem regSeen_keeps (h : Keeps z s) : ∀ {a0}, Keeps z (regSeen a0 s) := by
  intros
  unfold regSeen
  split
  all_goals first
    | exact onHost_keeps h
    | exact onWave_keeps h
    | exact onXp_keeps h
    | exact onPlace_keeps h
    | exact onTwin_keeps h
    | exact onMat_keeps h (fun hm => hm)
    | exact onFlt_keeps h
    | skip
      refine keeps_ite (onDp_keeps h) ?_
      split
      all_goals first
        | exact ringRead_keeps h
        | exact h

theorem wordRead_keeps (h : Keeps z s) : ∀ {a0}, Keeps z (wordRead a0 s).2.2 := by
  intros
  unfold wordRead
  split
  all_goals first
    | exact regSeen_keeps h
    | exact h

theorem hostRead_keeps (h : Keeps z s) : ∀ {a0}, Keeps z (hostRead a0 s).2 := by
  intros
  unfold hostRead
  extract_lets -merge -useContext -underBinder +onlyGivenNames x0
  have hx0 : Keeps z x0.2.2 := wordRead_keeps h
  clear_value x0
  exact keeps_ite hx0 (busErr_keeps hx0)

theorem readOut_keeps {p} (h : Keeps z p.2) : Keeps z (readOut p) :=
  onHost_keeps h

theorem execSampleCountRead_keeps (h : Keeps z s) : OutKeeps z (execSampleCountRead s) :=
  out_ite (out_next (readOut_keeps (hostRead_keeps h))) (out_next h)

theorem execSpiStatus_keeps (h : Keeps z s) : OutKeeps z (execSpiStatus s) :=
  out_ite (out_next (readOut_keeps h)) (out_next h)

theorem kioskPut_keeps (h : Keeps z s) : ∀ {a0 a1 a2}, Keeps z (kioskPut a0 a1 a2 s) :=
  keeps_ite (onKiosk_keeps h) (keeps_ite (keeps_ite (doorbell_keeps h) h) (keeps_ite (onKiosk_keeps h) h))

theorem dpPut_keeps (h : Keeps z s) : ∀ {a0 a1 a2}, Keeps z (dpPut a0 a1 a2 s) := by
  intros
  unfold dpPut
  split
  all_goals first
    | exact keeps_ite (dpEnd_keeps h) h
    | exact dpSetAddr_keeps h
    | exact onDp_keeps h
    | exact h

theorem nfaultWrite_keeps (h : Keeps z s) : ∀ {v}, Keeps z (nfaultWrite v s) := by
  intro v
  unfold nfaultWrite
  split
  · rename_i t e
    exact execFltNfaultWrite_keeps h t e
  · exact h

theorem subPut_keeps (h : Keeps z s) : ∀ {a0 a1}, Keeps z (subPut a0 a1 s) := by
  intros
  unfold subPut
  split
  all_goals first
    | exact onXp_keeps h
    | exact onPlace_keeps h
    | exact onDrv_keeps h
    | exact onLio_keeps h
    | exact onTwin_keeps h
    | exact onMat_keeps h (fun hm => hm)
    | exact onClk_keeps h
    | exact onFlt_keeps h
    | exact nfaultWrite_keeps h
    | exact smStatusWrite_keeps h
    | exact h

theorem sysPut_keeps (h : Keeps z s) : ∀ {a0 a1}, Keeps z (sysPut a0 a1 s) := by
  intros
  unfold sysPut
  split
  all_goals first
    | exact fwLoad_keeps h
    | exact onHost_keeps h
    | exact h

theorem regPut_keeps (h : Keeps z s) : ∀ {a0 a1 a2}, Keeps z (regPut a0 a1 a2 s) := by
  intros
  unfold regPut
  refine keeps_ite (kioskPut_keeps h) ?_
  refine keeps_ite (sysPut_keeps h) ?_
  refine keeps_ite (dpPut_keeps h) ?_
  split
  all_goals first
    | exact ringWrite_keeps h
    | skip
      split
      all_goals first
        | exact onPort_keeps h
        | exact subPut_keeps h

theorem reqPut_keeps (h : Keeps z s) : ∀ {a0 a1}, Keeps z (reqPut a0 a1 s) := by
  intros
  unfold reqPut
  refine foldl_keeps h (fun t0 t0a ht0 => ?_)
  split
  all_goals first
    | exact onKiosk_keeps ht0
    | exact ht0

theorem wordWrite_keeps (h : Keeps z s) : ∀ {a0 a1 a2}, Keeps z (wordWrite a0 a1 a2 s).2 := by
  intros
  unfold wordWrite
  refine keeps_ite_2 (reqPut_keeps h) ?_
  split
  all_goals first
    | exact h
    | skip
      split
      all_goals first
        | exact regPut_keeps h
        | exact h

theorem hostWrite_keeps (h : Keeps z s) : ∀ {a0 a1}, Keeps z (hostWrite a0 a1 s) := by
  intros
  unfold hostWrite
  extract_lets -merge -useContext -underBinder +onlyGivenNames x0
  have hx0 : Keeps z x0.2 := wordWrite_keeps h
  clear_value x0
  exact keeps_ite hx0 (busErr_keeps hx0)

theorem bar2Read_keeps (h : Keeps z s) : ∀ {a0 a1}, Keeps z (bar2Read a0 a1 s).2 :=
  dpRead_keeps h

theorem spiDone_keeps (h : Keeps z s) : ∀ {a0}, Keeps z (spiDone a0 s) :=
  onHost_keeps h

theorem execReadClearRegister_keeps (h : Keeps z s) : ∀ {a0}, OutKeeps z (execReadClearRegister a0 s) :=
  out_ite (out_next (readOut_keeps (hostRead_keeps h))) (out_next h)

theorem execRegisterWrite_keeps (h : Keeps z s) : ∀ {a0 a1}, OutKeeps z (execRegisterWrite a0 a1 s) :=
  out_ite (out_next (hostWrite_keeps h)) (out_next h)

theorem bar2Write_keeps (h : Keeps z s) : ∀ {a0 a1}, Keeps z (bar2Write a0 a1 s) :=
  keeps_ite (dpWrite_keeps h) (stagingWrite_keeps h)

theorem execSpiWrite_keeps (h : Keeps z s) : ∀ {a0 a1 a2}, OutKeeps z (execSpiWrite a0 a1 a2 s) := by
  intros
  unfold execSpiWrite
  extract_lets -merge -useContext -underBinder +onlyGivenNames x0 x1 s2
  have hs2 : Keeps z s2 := spiDone_keeps h
  clear_value s2
  exact out_ite (out_ite (out_next (bar2Write_keeps hs2)) (out_next (foldl_keeps hs2 fun t3 t3a ht3 => hostWrite_keeps ht3))) (out_next h)

theorem execLogMarkWrite_keeps (h : Keeps z s) : ∀ {a0}, OutKeeps z (execLogMarkWrite a0 s) :=
  out_ite (out_next (onHost_keeps h)) (out_next h)

theorem execSpiRead_keeps (h : Keeps z s) : ∀ {a0 a1}, OutKeeps z (execSpiRead a0 a1 s) := by
  intros
  unfold execSpiRead
  extract_lets -merge -useContext -underBinder +onlyGivenNames x0 x1 s2 x3 x4
  have hs2 : Keeps z s2 := spiDone_keeps h
  clear_value s2
  have hx3 : Keeps z x3.2 := by
    refine foldl_keeps_on Prod.snd ?_ (fun t5 t5a ht5 => ?_)
    · beta_reduce
      exact hs2
    · beta_reduce at ht5 ⊢
      extract_lets -merge -useContext -underBinder +onlyGivenNames x6
      have hx6 : Keeps z x6.2 := hostRead_keeps ht5
      clear_value x6
      exact hx6
  clear_value x3
  have hx4 : Keeps z x4.2 := keeps_ite_2 (bar2Read_keeps hs2) hx3
  clear_value x4
  exact out_ite (out_next (readOut_keeps hx4)) (out_next h)

/-! ### Matrix -/

theorem memBytes_keeps (h : Keeps z s) : ∀ {a0 a1}, Keeps z (memBytes a0 a1 s) := by
  intros
  unfold memBytes
  refine foldl_keeps h (fun t0 t0a ht0 => ?_)
  split
  all_goals first
    | exact keeps_ite (byteWords_keeps ht0) (onMat_keeps ht0 (fun hm => memWf_memPut _ _ _ hm))
    | exact ht0

theorem memBeat_keeps (h : Keeps z s) : ∀ {a0 a1 a2 a3}, Keeps z (memBeat a0 a1 a2 a3 s).2.2 :=
  keeps_ite_2_2 (keeps_ite_2_2 h (keeps_ite_2_2 (libRefused_keeps h) (memBytes_keeps h))) (keeps_ite_2_2 (onMat_keeps h (fun hm => hm)) h)

theorem obBeat_keeps (h : Keeps z s) : ∀ {a0 a1 a2 a3}, Keeps z (obBeat a0 a1 a2 a3 s).2.2 := by
  intros
  unfold obBeat
  refine keeps_ite_2_2 h ?_
  refine keeps_ite_2_2 (memBytes_keeps h) ?_
  split
  all_goals exact h

theorem regBeat_keeps (h : Keeps z s) : ∀ {a0 a1 a2}, Keeps z (regBeat a0 a1 a2 s).2.2 := by
  intros
  unfold regBeat
  extract_lets -merge -useContext -underBinder +onlyGivenNames x0 x1
  have hx1 : Keeps z x1.2.2 := by
    refine foldl_keeps_on (fun q => Prod.snd (Prod.snd q)) ?_ (fun t2 t2a ht2 => ?_)
    · beta_reduce
      exact h
    · beta_reduce at ht2 ⊢
      extract_lets -merge -useContext -underBinder +onlyGivenNames x3 x4 x5
      have hx4 : Keeps z x4.2 := wordWrite_keeps ht2
      clear_value x4
      have hx5 : Keeps z x5.2.2 := wordRead_keeps ht2
      clear_value x5
      exact keeps_ite_2_2 hx4 hx5
  clear_value x1
  exact hx1

theorem remapBeat_keeps (h : Keeps z s) : ∀ {a0 a1}, Keeps z (remapBeat a0 a1 s).2.2 := by
  intros
  unfold remapBeat
  refine keeps_ite_2_2 ?_ h
  split
  all_goals first
    | exact onMat_keeps h (fun hm => hm)
    | exact h

theorem beatDo_keeps (h : Keeps z s) : ∀ {a0 a1}, Keeps z (beatDo a0 a1 s).2.2 := by
  intros
  unfold beatDo
  extract_lets -merge -useContext -underBinder +onlyGivenNames x0 x1 x2
  have hx2 : Keeps z x2.2.2 := h
  clear_value x2
  refine keeps_ite_2_2 hx2 ?_
  split
  all_goals first
    | exact memBeat_keeps h
    | exact obBeat_keeps h
    | exact regBeat_keeps h
    | skip
      extract_lets -merge -useContext -underBinder +onlyGivenNames x3 x4
      have hx4 : Keeps z x4.2 := bar2Read_keeps h
      clear_value x4
      exact keeps_ite_2_2 (bar2Write_keeps h) hx4
    | exact keeps_ite_2_2 (remapBeat_keeps h) hx2
    | exact hx2

theorem beatStep_keeps {p} (h : Keeps z p.2.2) : ∀ {a0 a2}, Keeps z (beatStep a0 p a2).2.2 := by
  intros
  unfold beatStep
  extract_lets -merge -useContext -underBinder +onlyGivenNames x0 s1
  have hx0 : Keeps z x0.2.2 := beatDo_keeps h
  clear_value x0
  have hs1 : Keeps z s1 := keeps_ite hx0 (busErr_keeps hx0)
  clear_value s1
  exact hs1

theorem beatsFrom_keeps (h : Keeps z s) : ∀ {a0 a1 a2}, Keeps z (beatsFrom a0 a1 a2 s).2.2 := by
  intros
  unfold beatsFrom
  refine foldl_keeps_on (fun q => Prod.snd (Prod.snd q)) ?_ (fun t0 t0a ht0 => ?_)
  · beta_reduce
    exact h
  · beta_reduce at ht0 ⊢
    exact beatStep_keeps ht0

theorem planOpFails_keeps (h : Keeps z s) : Keeps z (planOpFails s) := by
  unfold planOpFails
  split
  all_goals first
    | exact keeps_ite (answerFail_keeps (onPlan_keeps h)) h
    | exact h

theorem reaction_keeps (h : Keeps z s) : ∀ {a0 a1 a2 a3}, Keeps z (reaction a0 a1 a2 a3 s) := by
  intros
  unfold reaction
  extract_lets -merge -useContext -underBinder +onlyGivenNames x0
  split
  all_goals first
    | exact raise_keeps h
    | exact keeps_ite (raise_keeps h) h
    | exact dpFail_keeps h
    | exact onRing_keeps h
    | exact planOpFails_keeps h
    | exact smFail_keeps (raise_keeps h)
    | exact h

theorem deliver_keeps (h : Keeps z s) : Keeps z (deliver s) :=
  onMat_keeps h (fun hm => hm)

theorem reactOnce_keeps (h : Keeps z s) : ∀ {a0 a1 a2}, Keeps z (reactOnce a0 a1 a2 s) := by
  intros
  unfold reactOnce
  split
  all_goals first
    | skip
      extract_lets -merge -useContext -underBinder +onlyGivenNames x0
      exact reaction_keeps h
    | exact h

theorem txFinish_keeps (h : Keeps z s) : ∀ {a0}, Keeps z (txFinish a0 s) := by
  intros
  unfold txFinish
  extract_lets -merge -useContext -underBinder +onlyGivenNames x0 x1 s2
  have hx1 : Keeps z x1.2.2 := beatsFrom_keeps h
  clear_value x1
  have hs2 : Keeps z s2 := reactOnce_keeps hx1
  clear_value s2
  exact deliver_keeps (onMat_keeps hs2 (fun hm => hm))

theorem busRun_keeps : ∀ {n : Nat} {s : State}, Keeps z s → Keeps z (busRun n s)
  | 0, _, h => h
  | n + 1, s, h => by
    unfold busRun
    split
    · exact busRun_keeps (txFinish_keeps h)
    · exact h

theorem busSettle_keeps (h : Keeps z s) : Keeps z (busSettle s) :=
  busRun_keeps h

theorem readRest_keeps (h : Keeps z s) : ∀ {a0}, Keeps z (readRest a0 s) :=
  keeps_ite h (beatsFrom_keeps h)

theorem masterReset_keeps (h : Keeps z s) : ∀ {a0}, Keeps z (masterReset a0 s) := by
  intros
  unfold masterReset
  extract_lets -merge -useContext -underBinder +onlyGivenNames x0 x1 s2 s3
  have hs2 : Keeps z s2 := foldl_keeps h fun t4 t4a ht4 => readRest_keeps ht4
  clear_value s2
  have hs3 : Keeps z s3 := onMat_keeps hs2 (fun hm => hm)
  clear_value s3
  exact busSettle_keeps (keeps_ite (raise_keeps hs3) hs3)

theorem execPcieFlr_keeps (h : Keeps z s) : OutKeeps z (execPcieFlr s) :=
  out_ite (out_next h) (out_next (masterReset_keeps (hostLost_keeps (setCause_keeps h))))

theorem releaseEarly_keeps (h : Keeps z s) : ∀ {a0}, Keeps z (releaseEarly a0 s) := by
  intros
  unfold releaseEarly
  extract_lets -merge -useContext -underBinder +onlyGivenNames x0 s1
  have hs1 : Keeps z s1 := h
  clear_value s1
  refine raise_keeps ?_
  split
  all_goals exact ⟨hs1.1, hs1.2⟩

theorem txIssue_keeps (h : Keeps z s) : ∀ {a0}, Keeps z (txIssue a0 s) := by
  intros
  unfold txIssue
  extract_lets -merge -useContext -underBinder +onlyGivenNames x0 s1
  have hs1 : Keeps z s1 := onMat_keeps h (fun hm => hm)
  clear_value s1
  split
  all_goals first
    | exact busSettle_keeps hs1
    | skip
      extract_lets -merge -useContext -underBinder +onlyGivenNames x2 x3 s4
      have hx3 : Keeps z x3.2.2 := beatsFrom_keeps hs1
      clear_value x3
      have hs4 : Keeps z s4 := reactOnce_keeps hx3
      clear_value s4
      exact keeps_ite (onMat_keeps hs4 (fun hm => hm)) hs1

theorem execMatrixTransaction_keeps (h : Keeps z s) : ∀ {a0}, OutKeeps z (execMatrixTransaction a0 s) := by
  intros
  unfold execMatrixTransaction
  refine out_ite (out_next h) ?_
  split
  all_goals first
    | exact out_next (releaseEarly_keeps h)
    | exact out_ite (out_stop rfl) (out_next (txIssue_keeps h))

theorem execMasterReset_keeps (h : Keeps z s) : ∀ {a0}, OutKeeps z (execMasterReset a0 s) :=
  out_ite (out_next (masterReset_keeps h)) (out_next h)

theorem execSysRemapWrite_keeps (h : Keeps z s) : ∀ {a0 a1}, OutKeeps z (execSysRemapWrite a0 a1 s) :=
  out_ite (out_next (onMat_keeps h (fun hm => hm))) (out_next (busErr_keeps h))

/-! ### Memory -/

theorem gainLost_keeps (h : Keeps z s) : ∀ {a0 a1}, Keeps z (gainLost a0 a1 s) := by
  intros
  unfold gainLost
  extract_lets -merge -useContext -underBinder +onlyGivenNames s0
  have hs0 : Keeps z s0 := tileDed_keeps h
  clear_value s0
  split
  all_goals first
    | exact hs0
    | exact raise_keeps (onXp_keeps hs0)

theorem rowSwap_keeps (h : Keeps z s) : ∀ {a0}, Keeps z (rowSwap a0 s) := by
  intros
  unfold rowSwap
  extract_lets -merge -useContext -underBinder +onlyGivenNames s0
  have hs0 : Keeps z s0 := onMat_keeps h (fun hm => hm)
  clear_value s0
  exact onWave_keeps hs0

theorem corrected_keeps (h : Keeps z s) : ∀ {a0}, Keeps z (corrected a0 s) := by
  intros
  unfold corrected
  extract_lets -merge -useContext -underBinder +onlyGivenNames s0 x1 x2
  have hs0 : Keeps z s0 := keeps_ite (onTile_keeps h) (onMat_keeps h (fun hm => hm))
  clear_value s0
  exact onMat_keeps hs0 (fun hm => hm)

theorem lineZero_keeps (h : Keeps z s) : ∀ {a0 a1}, Keeps z (lineZero a0 a1 s) :=
  onSig_keeps h

theorem regionLost_keeps (h : Keeps z s) : ∀ {a0 a1 a2}, Keeps z (regionLost a0 a1 a2 s) :=
  raise_keeps (lineZero_keeps (onMat_keeps h (fun hm => hm)))

theorem repairOne_keeps (h : Keeps z s) : ∀ {a0}, Keeps z (repairOne a0 s) :=
  keeps_ite (onTile_keeps h) (keeps_ite (onTile_keeps h) (onMat_keeps h (fun hm => hm)))

theorem repairAll_keeps (h : Keeps z s) : Keeps z (repairAll s) :=
  foldl_keeps (onWave_keeps h) fun t0 t0a ht0 => repairOne_keeps ht0

theorem sensorHot_keeps (h : Keeps z s) : ∀ {a0 a1}, Keeps z (sensorHot a0 a1 s) := by
  intros
  unfold sensorHot
  extract_lets -merge -useContext -underBinder +onlyGivenNames x0 s1 x2
  have hs1 : Keeps z s1 := onMat_keeps h (fun hm => hm)
  clear_value s1
  exact keeps_ite (raise_keeps (onFlt_keeps hs1)) hs1

theorem coolEnd_keeps (h : Keeps z s) : Keeps z (coolEnd s) :=
  keeps_ite (foldl_keeps h fun t0 t0a ht0 => endCond_keeps ht0) h

theorem execEdramRefreshRelax_keeps (h : Keeps z s) : ∀ {a0 a1}, OutKeeps z (execEdramRefreshRelax a0 a1 s) := by
  intros
  unfold execEdramRefreshRelax
  extract_lets -merge -useContext -underBinder +onlyGivenNames x0
  exact out_ite (out_next (coolEnd_keeps (onMat_keeps h (fun hm => hm)))) (out_next h)

theorem execTjThresholdCross_keeps (h : Keeps z s) : ∀ {a0 a1}, OutKeeps z (execTjThresholdCross a0 a1 s) :=
  out_ite (out_next h) (out_next (sensorHot_keeps h))

theorem execDdrPatrolScrub_keeps (h : Keeps z s) : ∀ {a0 a1}, OutKeeps z (execDdrPatrolScrub a0 a1 s) :=
  out_ite (out_next (onMat_keeps h (fun hm => hm))) (out_next h)

theorem execTjCrit_keeps (h : Keeps z s) : ∀ {a0 a1}, OutKeeps z (execTjCrit a0 a1 s) :=
  out_ite (out_next (raise_keeps (sensorHot_keeps h))) (out_next h)

theorem rxLost_keeps (h : Keeps z s) : ∀ {a0}, Keeps z (rxLost a0 s) :=
  onRx_keeps h

theorem execSramScrub_keeps (h : Keeps z s) : ∀ {a0 a1}, OutKeeps z (execSramScrub a0 a1 s) := by
  intros
  unfold execSramScrub
  extract_lets -merge -useContext -underBinder +onlyGivenNames s0
  have hs0 : Keeps z s0 := onMat_keeps h (fun hm => hm)
  clear_value s0
  exact out_ite (out_next (keeps_ite (raise_keeps hs0) hs0)) (out_next h)

theorem doubleBit_keeps (h : Keeps z s) : ∀ {a0}, Keeps z (doubleBit a0 s) := by
  intros
  unfold doubleBit
  extract_lets -merge -useContext -underBinder +onlyGivenNames s0
  have hs0 : Keeps z s0 := onMat_keeps h (fun hm => hm)
  clear_value s0
  split
  all_goals first
    | exact gainLost_keeps hs0
    | exact raise_keeps (lineZero_keeps hs0)
    | exact rxLost_keeps hs0
    | exact hs0

theorem execEdramScrub_keeps (h : Keeps z s) : ∀ {a0 a1}, OutKeeps z (execEdramScrub a0 a1 s) :=
  out_ite (out_next h) (out_ite (out_next (doubleBit_keeps h)) (out_next (corrected_keeps h)))

theorem execEdramRowRepair_keeps (h : Keeps z s) : ∀ {a0 a1}, OutKeeps z (execEdramRowRepair a0 a1 s) :=
  out_ite (out_next h) (out_ite (out_ite (out_next (onTile_keeps h)) (out_ite (out_next h) (out_next (raise_keeps (onMat_keeps h (fun hm => hm)))))) (out_next (keeps_ite (rowSwap_keeps h) (repairAll_keeps (rowSwap_keeps h)))))

/-! ### Wave -/

theorem flipAlley_keeps (h : Keeps z s) : Keeps z (flipAlley s) := by
  unfold flipAlley
  extract_lets -merge -useContext -underBinder +onlyGivenNames x0 x1
  exact foldl_keeps h fun t2 t2a ht2 => onXp_keeps ht2

theorem avenueRun_keeps (h : Keeps z s) : ∀ {a0}, Keeps z (avenueRun a0 s) := by
  intros
  unfold avenueRun
  refine foldl_keeps h (fun t0 t0a ht0 => ?_)
  extract_lets -merge -useContext -underBinder +onlyGivenNames x1
  have hx1 : Keeps z x1.1 := avenueColumn_keeps ht0
  clear_value x1
  split
  all_goals first
    | exact replaceCopy_keeps hx1
    | exact hx1

theorem ddrLost_keeps (h : Keeps z s) : ∀ {a1}, Keeps z (ddrLost s a1) :=
  keeps_ite (onMat_keeps h (fun hm => hm)) (regionLost_keeps h)

theorem tickIn_keeps (h : Keeps z s) : ∀ {a0 a1 a2 a3}, Keeps z (tickIn a0 a1 a2 a3 s) := by
  intros
  unfold tickIn
  extract_lets -merge -useContext -underBinder +onlyGivenNames s0 s1
  have hs0 : Keeps z s0 := rxTicks_keeps h
  clear_value s0
  have hs1 : Keeps z s1 := foldl_keeps hs0 fun t2 t2a ht2 => groupLatch_keeps ht2
  clear_value s1
  exact foldl_keeps hs1 fun t3 t3a ht3 => playLatch_keeps ht3

theorem tickOut_keeps (h : Keeps z s) : ∀ {a0 a1}, Keeps z (tickOut a0 a1 s) := by
  intros
  unfold tickOut
  extract_lets -merge -useContext -underBinder +onlyGivenNames s0 s1 s2
  have hs0 : Keeps z s0 := keeps_ite (linksIdle_keeps (stopWaves_keeps h)) (driveTick_keeps h)
  clear_value s0
  have hs1 : Keeps z s1 := onSig_keeps hs0
  clear_value s1
  have hs2 : Keeps z s2 := keeps_ite (tdmStop_keeps hs1) (txTicks_keeps (tdmFrames_keeps hs1))
  clear_value s2
  exact onWave_keeps hs2

theorem tickPins_keeps (h : Keeps z s) : Keeps z (tickPins s) := by
  unfold tickPins
  extract_lets -merge -useContext -underBinder +onlyGivenNames s0
  have hs0 : Keeps z s0 := drivePin_keeps h
  clear_value s0
  exact keeps_ite (drivePin_keeps (drivePin_keeps hs0)) hs0

theorem tick_keeps (h : Keeps z s) : ∀ {a0 a1 a2 a3 a4}, Keeps z (tick a0 a1 a2 a3 a4 s) := by
  intros
  unfold tick
  extract_lets -merge -useContext -underBinder +onlyGivenNames x0 s1 s2 x3 s4 s5 s6
  have hs1 : Keeps z s1 := keeps_ite (rebaseWaves_keeps h) h
  clear_value s1
  have hs2 : Keeps z s2 := keeps_ite (rebaseTicks_keeps hs1) hs1
  clear_value s2
  have hs4 : Keeps z s4 := onWave_keeps hs2
  clear_value s4
  have hs5 : Keeps z s5 := stopTake_keeps (keeps_ite (streamsStep_keeps hs4) hs4)
  clear_value s5
  have hs6 : Keeps z s6 := tickOut_keeps (tickIn_keeps hs5)
  clear_value s6
  exact busSettle_keeps (tickPins_keeps (twinTick_keeps (priReadAll_keeps hs6)))

theorem execMediaTick_keeps (h : Keeps z s) : ∀ {a0 a1 a2 a3 a4}, OutKeeps z (execMediaTick a0 a1 a2 a3 a4 s) := by
  intros
  unfold execMediaTick
  extract_lets -merge -useContext -underBinder +onlyGivenNames s0 s1
  have hs0 : Keeps z s0 := foldl_keeps h fun t2 t2a ht2 => doubleBit_keeps ht2
  clear_value s0
  have hs1 : Keeps z s1 := foldl_keeps hs0 fun t3 t3a ht3 => ddrLost_keeps ht3
  clear_value s1
  exact out_ite (out_next (tick_keeps hs1)) (out_next h)

theorem pairDiff_keeps (h : Keeps z s) : ∀ {a0 a1}, Keeps z (pairDiff a0 a1 s) := by
  intros
  unfold pairDiff
  extract_lets -merge -useContext -underBinder +onlyGivenNames x0
  exact startTie_keeps (noteAudit_keeps h)

theorem secondDed_keeps (h : Keeps z s) : ∀ {a1}, Keeps z (secondDed s a1) := by
  intros
  unfold secondDed
  extract_lets -merge -useContext -underBinder +onlyGivenNames x0
  exact keeps_ite (tileDed_keeps h) h

theorem secondMissed_keeps (h : Keeps z s) : ∀ {a1}, Keeps z (secondMissed s a1) := by
  intros
  unfold secondMissed
  extract_lets -merge -useContext -underBinder +onlyGivenNames x0 x1 x2
  exact keeps_ite (abandon_keeps h) h

theorem discardWork_keeps (h : Keeps z s) : ∀ {a0}, Keeps z (discardWork a0 s) :=
  keeps_ite (squareDiscard_keeps h) (keeps_ite (onSig_keeps h) h)

theorem replicaHold_keeps (h : Keeps z s) : ∀ {a0}, Keeps z (replicaHold a0 s) := by
  intros
  unfold replicaHold
  refine foldl_keeps h (fun t0 t0a ht0 => ?_)
  extract_lets -merge -useContext -underBinder +onlyGivenNames x1
  exact onXp_keeps ht0

theorem squareTake_keeps (h : Keeps z s) : ∀ {a0}, Keeps z (squareTake a0 s) := by
  intros
  unfold squareTake
  extract_lets -merge -useContext -underBinder +onlyGivenNames x0 x1 s2 x3
  have hs2 : Keeps z s2 := foldl_keeps h fun t4 t4a ht4 => noteUndo_keeps ht4
  clear_value s2
  have hx3 : ∀ x3a0 x3a1, Keeps z x3a0 → Keeps z (x3 x3a0 x3a1) := by
    intro x3a0 x3a1 hx3a0
    unfold x3
    beta_reduce
    exact onXp_keeps hx3a0
  clear_value x3
  exact squareApply_keeps (foldl_keeps hs2 fun t5 t5a ht5 => hx3 _ _ ht5)

theorem squareOnce_keeps (h : Keeps z s) : ∀ {a0}, Keeps z (squareOnce a0 s) :=
  keeps_ite h (squareTake_keeps h)

theorem squareDone_keeps (h : Keeps z s) : ∀ {a0}, Keeps z (squareDone a0 s) := by
  intros
  unfold squareDone
  extract_lets -merge -useContext -underBinder +onlyGivenNames x0 s1 x2
  have hs1 : Keeps z s1 := squareOnce_keeps h
  clear_value s1
  exact keeps_ite (squareCommit_keeps (onSig_keeps hs1)) (keeps_ite hs1 (replicaHold_keeps hs1))

theorem shadowTakes_keeps (h : Keeps z s) : ∀ {a0}, Keeps z (shadowTakes a0 s) := by
  intros
  unfold shadowTakes
  extract_lets -merge -useContext -underBinder +onlyGivenNames x0 x1 s2
  have hs2 : Keeps z s2 := keeps_ite (squareDone_keeps h) (handOut_keeps (onLane_keeps h))
  clear_value s2
  exact takeOver_keeps (onPlace_keeps hs2)

theorem workDeadline_keeps (h : Keeps z s) : ∀ {a0 a2}, Keeps z (workDeadline a0 s a2) := by
  intros
  unfold workDeadline
  split
  all_goals first
    | exact h
    | skip
      extract_lets -merge -useContext -underBinder +onlyGivenNames s0
      have hs0 : Keeps z s0 := raise_keeps (onWave_keeps h)
      clear_value s0
      split
      all_goals first
        | exact shadowTakes_keeps hs0
        | exact urgentMove_keeps (discardWork_keeps hs0)
    | exact urgentMove_keeps (discardWork_keeps (tileDed_keeps h))
    | exact discardWork_keeps h

theorem deadline_keeps (h : Keeps z s) : ∀ {a0}, Keeps z (deadline a0 s) := by
  intros
  unfold deadline
  extract_lets -merge -useContext -underBinder +onlyGivenNames x0 s1 s2
  have hs1 : Keeps z s1 := foldl_keeps h fun t3 t3a ht3 => workDeadline_keeps ht3
  clear_value s1
  have hs2 : Keeps z s2 := foldl_keeps (foldl_keeps hs1 fun t5 t5a ht5 => secondDed_keeps ht5) fun t4 t4a ht4 => secondMissed_keeps ht4
  clear_value s2
  exact keeps_ite (seedSettle_keeps hs2) h

theorem flip_keeps (h : Keeps z s) : ∀ {a0}, Keeps z (flip a0 s) :=
  flipAlley_keeps (onSig_keeps h)

theorem shadowEnds_keeps (h : Keeps z s) : Keeps z (shadowEnds s) :=
  foldl_keeps h fun t0 t0a ht0 => keeps_ite (takeOver_keeps ht0) (startTie_keeps (abandon_keeps ht0))

theorem transfers_keeps (h : Keeps z s) : ∀ {a0}, Keeps z (transfers a0 s) :=
  onPlace_keeps h

theorem urgentTakes_keeps (h : Keeps z s) : ∀ {a0}, Keeps z (urgentTakes a0 s) :=
  foldl_keeps h fun t0 t0a ht0 => takeOver_keeps ht0

theorem endWave_keeps (h : Keeps z s) : ∀ {a0}, Keeps z (endWave a0 s) := by
  intros
  unfold endWave
  extract_lets -merge -useContext -underBinder +onlyGivenNames s0
  have hs0 : Keeps z s0 := xpReplies_keeps (onXp_keeps (deadline_keeps h))
  clear_value s0
  exact flip_keeps (repairAll_keeps (shadowEnds_keeps (urgentTakes_keeps (transfers_keeps hs0))))

theorem enterHush_keeps (h : Keeps z s) : ∀ {a0}, Keeps z (enterHush a0 s) := by
  intros
  unfold enterHush
  extract_lets -merge -useContext -underBinder +onlyGivenNames x0 s1 s2 x3 s4 s5 s6
  have hs1 : Keeps z s1 := endWave_keeps (forwardAll_keeps h)
  clear_value s1
  have hs2 : Keeps z s2 := keeps_ite (handSinks_keeps hs1) hs1
  clear_value s2
  have hs4 : Keeps z s4 := foldl_keeps hs2 fun t7 t7a ht7 => applyEntry_keeps ht7
  clear_value s4
  have hs5 : Keeps z s5 := foldl_keeps (onXp_keeps hs4) fun t8 t8a ht8 => onXp_keeps ht8
  clear_value s5
  have hs6 : Keeps z s6 := onWave_keeps (stopWaves_keeps hs5)
  clear_value s6
  exact yieldSoon_keeps (onClk_keeps hs6)

theorem enterRun_keeps (h : Keeps z s) : ∀ {a0}, Keeps z (enterRun a0 s) :=
  restartEq_keeps (onClk_keeps (abandonAll_keeps h))

theorem execPowerStateEffect_keeps (h : Keeps z s) : OutKeeps z (execPowerStateEffect s) := by
  unfold execPowerStateEffect
  split
  all_goals first
    | exact out_ite (out_next (enterHush_keeps h)) (out_next h)
    | exact out_ite (out_next (enterRun_keeps h)) (out_next h)
    | exact out_next h

theorem markDone_keeps (h : Keeps z s) : ∀ {a0}, Keeps z (markDone a0 s) :=
  onWave_keeps h

theorem completeSquare_keeps (h : Keeps z s) : ∀ {a0 a1 a2 a3}, Keeps z (completeSquare a0 a1 a2 a3 s) := by
  intros
  unfold completeSquare
  extract_lets -merge -useContext -underBinder +onlyGivenNames x0 x1 s2
  have hs2 : Keeps z s2 := foldl_keeps h fun t3 t3a ht3 => doubleBit_keeps ht3
  clear_value s2
  exact noteSlack_keeps (markDone_keeps (squareDone_keeps hs2))

theorem siteDiff_keeps (h : Keeps z s) : ∀ {a0}, Keeps z (siteDiff a0 s) := by
  intros
  unfold siteDiff
  split
  all_goals first
    | exact keeps_ite (startTie_keeps (abandon_keeps h)) (onPlace_keeps h)
    | exact h

theorem launch_keeps (h : Keeps z s) : ∀ {a0}, Keeps z (launch a0 s) := by
  intros
  unfold launch
  extract_lets -merge -useContext -underBinder +onlyGivenNames x0 x1 s2 s3 s4 x5 s6 s7 s8 s9 s10 x11 s12
  have hs2 : Keeps z s2 := keeps_ite (rebaseWaves_keeps h) h
  clear_value s2
  have hs3 : Keeps z s3 := forwardAll_keeps hs2
  clear_value s3
  have hs4 : Keeps z s4 := startWaits_keeps (swapPublish_keeps (bypassLaunch_keeps (preNote_keeps hs3)))
  clear_value s4
  have hs6 : Keeps z s6 := endWave_keeps hs4
  clear_value s6
  have hs7 : Keeps z s7 := onWave_keeps hs6
  clear_value s7
  have hs8 : Keeps z s8 := keeps_ite (restartEq_keeps hs7) hs7
  clear_value s8
  have hs9 : Keeps z s9 := preStart_keeps hs8
  clear_value s9
  have hs10 : Keeps z s10 := keeps_ite (handSinks_keeps hs9) (onSig_keeps hs9)
  clear_value s10
  have hs12 : Keeps z s12 := commitsRun_keeps (levelChange_keeps hs10)
  clear_value s12
  exact stopTake_keeps (directApply_keeps (loadWave_keeps hs12))

theorem execWaveLaunch_keeps (h : Keeps z s) : OutKeeps z (execWaveLaunch s) :=
  out_ite (out_next (launch_keeps h)) (out_next h)

theorem avenueSlack_keeps (h : Keeps z s) : ∀ {a0 a1}, Keeps z (avenueSlack a0 a1 s) :=
  onDist_keeps h

theorem compareSites_keeps (h : Keeps z s) : ∀ {a0 a1}, Keeps z (compareSites a0 a1 s) := by
  intros
  unfold compareSites
  extract_lets -merge -useContext -underBinder +onlyGivenNames x0 x1 s2 x3 x4
  have hs2 : Keeps z s2 := keeps_ite (siteDiff_keeps h) h
  clear_value s2
  exact keeps_ite (keeps_ite (pairDiff_keeps hs2) hs2) (keeps_ite (keeps_ite (pairDiff_keeps hs2) hs2) hs2)

theorem execTileComplete_keeps (h : Keeps z s) : ∀ {a0 a1 a2 a3 a4}, OutKeeps z (execTileComplete a0 a1 a2 a3 a4 s) := by
  intros
  unfold execTileComplete
  extract_lets -merge -useContext -underBinder +onlyGivenNames x0 x1 x2 x3 x4 s5
  have hs5 : Keeps z s5 := noteEcc_keeps h
  clear_value s5
  exact out_ite (out_next h) (out_ite (out_next (noteEcc_keeps h)) (out_ite (out_ite (out_next (avenueSlack_keeps (markDone_keeps (keeps_ite h (avenueRun_keeps h))))) (out_next h)) (out_ite (out_ite (out_ite (out_next (compareSites_keeps (markDone_keeps (foldl_keeps hs5 fun t6 t6a ht6 => doubleBit_keeps ht6)))) (out_ite (out_next (compareSites_keeps (markDone_keeps hs5))) (out_next hs5))) (out_next h)) (out_ite (out_next h) (out_ite (out_next (compareSites_keeps (completeSquare_keeps h))) (out_ite (out_next (compareSites_keeps (noteSlack_keeps (markDone_keeps h)))) (out_next (noteEcc_keeps h))))))))

end Sys2Proof.Laws
end

