-- ==== Sys2Proof/Laws/Kiosk.lean ====
section
/-! SUPPORT. Everything that the command in progress on a Kiosk can do (11 R357 to R359). -/

namespace Sys2Proof.Laws

open Sys2Proof Sys2Proof.Machine

variable {code k : Nat} {fwd : List Byte → Bool} {check : List Byte → State → Option Fail}
  {effect : Nat → List Byte → State → Effect} {s : State} {r : Req}

/-- Without its request on the Kiosk a command does nothing. -/
theorem runKiosk_idle (h : heldReq code k s = none) : runKiosk code k fwd check effect s = s := by
  simp [runKiosk, h]

/-- A request that expects another epoch is answered EPOCH_MISMATCH. -/
theorem runKiosk_epoch (h : heldReq code k s = some r) (he : epochOk r s = false) :
    runKiosk code k fwd check effect s = answerFail k { status := 0x0005 } s := by
  simp [runKiosk, h, he]

/-- A request that fails the command's own checks is answered with what they find. -/
theorem runKiosk_fails {f : Fail} (h : heldReq code k s = some r) (he : epochOk r s = true)
    (hc : check r.payload s = some f) : runKiosk code k fwd check effect s = answerFail k f s := by
  simp [runKiosk, h, he, hc]

/-- An accepted request has its effect at once, or is queued for both units of a pair. -/
theorem runKiosk_accepts (h : Accepts code k check r s) :
    runKiosk code k fwd check effect s = if fwd r.payload = true ∧ forwards s = true then queuedForBoth code k r s
      else settle k (effect k r.payload (begun code k (fwd r.payload) r s)) := by
  obtain ⟨h1, h2, h3⟩ := h
  have hs : ∀ g, forwards (s.onHost g) = forwards s := fun _ => rfl
  simp only [runKiosk, h1, h2, h3, hs, if_true]
  by_cases hf : fwd r.payload = true ∧ forwards s = true
  · exact ((if_pos (by simpa using hf)).trans rfl).trans (if_pos hf).symm
  · exact ((if_neg (by simpa using hf)).trans rfl).trans (if_neg hf).symm

/-- A byte of a buffer into which the first `n` bytes of `b` have been put. -/
theorem bufPut_get (b : List Byte) (buf : Tab Byte) (i : Nat) : ∀ n, n ≤ b.length →
    tget (α := Byte) 0 ((List.range n).foldl (fun t i => tput 0 t i (byteAt b i)) buf) i
      = if i < n then byteAt b i else tget (α := Byte) 0 buf i := by
  intro n
  induction n with
  | zero => simp
  | succ n ih =>
    intro hn
    rw [List.range_succ, List.foldl_append]
    simp only [List.foldl_cons, List.foldl_nil]
    by_cases h : i = n
    · subst h
      rw [tget_tput_same]
      simp
    · rw [tget_tput_other _ _ _ _ _ h, ih (by omega)]
      by_cases h2 : i < n <;> simp [h2] <;> omega
/-- What has been put into a buffer is read from it. -/
theorem bufBytes_bufPut (b : List Byte) (buf : Tab Byte) : bufBytes (bufPut buf b) b.length = b := by
  unfold bufBytes bufPut
  apply List.ext_getElem
  · simp
  · intro i h1 h2
    simp only [List.getElem_map, List.getElem_range]
    rw [bufPut_get b buf i _ (Nat.le_refl _)]
    simp [h2, byteAt]

/-- The interrupt of a Kiosk leaves the Kiosks alone. -/
theorem kioskIrq_kiosks (k : Nat) (u : State) : (kioskIrq k u).host.kiosks = u.host.kiosks := by
  unfold kioskIrq sendMsi setIrq
  by_cases h : (tget {} u.host.kiosks k).irqEn = true
  · rw [if_pos h]
    by_cases h2 : k < 20
    · rw [if_pos h2]
      rfl
    · rw [if_neg h2]
      rfl
  · rw [if_neg h]

/-- The interrupt of a Kiosk changes the host interface only. -/
theorem kioskIrq_only (k : Nat) (u : State) : kioskIrq k u = u.onHost fun _ => (kioskIrq k u).host := by
  unfold kioskIrq sendMsi setIrq
  by_cases h : (tget {} u.host.kiosks k).irqEn = true
  · rw [if_pos h]
    by_cases h2 : k < 20
    · rw [if_pos h2]
      rfl
    · rw [if_neg h2]
      rfl
  · rw [if_neg h]
    rfl

/-- A header has 16 bytes. -/
theorem respHeader_length (code tag len : Nat) (e : BitVec 32) (status detail : Nat) :
    (respHeader code tag len e status detail).length = 16 := by
  simp [respHeader, le]

/-- Without a command in progress there is nothing to answer. -/
theorem answer_idle {k status detail : Nat} {p : List Byte} (h : (tget {} s.host.kiosks k).req = none) :
    answer k status detail p s = s := by
  unfold answer
  simp only [h]

/-- The answer of a command in progress that is not sealed: only the host interface changes, and the response stands in the
Kiosk. -/
theorem answer_answers {k status detail : Nat} {p : List Byte} (h : (tget {} s.host.kiosks k).req = some r)
    (hp : Plain k r s) : HostOnly s (answer k status detail p s) ∧ Answered k r status detail p s (answer k status detail p s) := by
  obtain ⟨h1, h2⟩ := hp
  simp only [answer, h, h1, h2, Bool.false_eq_true, if_false]
  constructor
  · unfold HostOnly
    rw [kioskIrq_only]
    rfl
  · have hb := bufBytes_bufPut (respHeader r.code r.tag.toNat p.length (respEpoch r s) status detail ++ p)
      (tget {} s.host.kiosks k).respBuf
    rw [List.length_append, respHeader_length] at hb
    unfold Answered
    simp only [kioskIrq_kiosks, onKiosk, State.onHost, tget_tmod_same]
    exact ⟨trivial, trivial, trivial, hb⟩

end Sys2Proof.Laws
end

