-- ==== Sys2Proof/Laws/Lane.lean ====
section
/-! SUPPORT. Everything that the issue of one lane instruction can do (03 R82 to R110). -/

namespace Sys2Proof.Laws

open Sys2Proof Sys2Proof.Machine

/-! ### Reports -/

@[simp] theorem raise_lanes (c o : Nat) (d : BitVec 64) (s : State) : (raise c o d s).lanes = s.lanes := by
  unfold raise putRep
  repeat' split
  all_goals rfl

/-- A report changes nothing but the fault collector. -/
theorem raise_flt (c o : Nat) (d : BitVec 64) (s : State) : raise c o d s = { s with flt := (raise c o d s).flt } := by
  unfold raise putRep
  repeat' split
  all_goals rfl

/-! ### One Lane -/

@[simp] theorem laneAt_onLane (k : Nat) (f : LaneS → LaneS) (s : State) : laneAt (onLane k f s) k = f (laneAt s k) := by
  simp [laneAt, onLane]

theorem laneAt_onLane_other (k i : Nat) (f : LaneS → LaneS) (s : State) (h : i ≠ k) :
    laneAt (onLane k f s) i = laneAt s i := by
  simp [laneAt, onLane, tget_tmod_other _ _ _ _ _ h]

@[simp] theorem laneAt_raise (c o : Nat) (d : BitVec 64) (s : State) (i : Nat) : laneAt (raise c o d s) i = laneAt s i := by
  simp [laneAt]

@[simp] theorem laneAt_laneSee (k : Nat) (s : State) :
    laneAt (laneSee k s) k = settleTo (laneAt s k).slot (laneAt s k) := by
  unfold laneSee
  simp only
  split <;> simp

theorem laneAt_laneSee_other (k i : Nat) (s : State) (h : i ≠ k) : laneAt (laneSee k s) i = laneAt s i := by
  unfold laneSee
  simp only
  split <;> simp [laneAt_onLane_other _ _ _ _ h]

/-! ### The flow after an instruction -/

@[simp] theorem cacheDrop_cur (l : LaneS) : (cacheDrop l).cur = l.cur := by
  unfold cacheDrop
  repeat' split
  all_goals rfl

@[simp] theorem cacheDrop_pend (l : LaneS) : (cacheDrop l).pend = l.pend := by
  unfold cacheDrop
  repeat' split
  all_goals rfl

@[simp] theorem cacheDrop_slot (l : LaneS) : (cacheDrop l).slot = l.slot := by
  unfold cacheDrop
  repeat' split
  all_goals rfl

@[simp] theorem cacheBack_cur (f : BitVec 12) (l : LaneS) : (cacheBack f l).cur = l.cur := by
  unfold cacheBack
  repeat' split
  all_goals rfl

@[simp] theorem cacheBack_pend (f : BitVec 12) (l : LaneS) : (cacheBack f l).pend = l.pend := by
  unfold cacheBack
  repeat' split
  all_goals rfl

@[simp] theorem cacheBack_slot (f : BitVec 12) (l : LaneS) : (cacheBack f l).slot = l.slot := by
  unfold cacheBack
  repeat' split
  all_goals rfl

@[simp] theorem setLoops_pend (t : List LoopE) (l : LaneS) : (setLoops t l).pend = l.pend := rfl

@[simp] theorem setLoops_slot (t : List LoopE) (l : LaneS) : (setLoops t l).slot = l.slot := rfl

@[simp] theorem regsOf_setLoops (t : List LoopE) (l : LaneS) : regsOf (setLoops t l).cur = regsOf l.cur := by
  unfold setLoops onBank regsOf
  dsimp only
  split <;> rfl

/-- The flow leaves the results on their way, takes the instruction's slots, and changes no register. -/
theorem advance_spec (o : Issued) : (advance o).pend = o.lane.pend ∧ (advance o).slot = o.lane.slot + o.cost ∧
    regsOf (advance o).cur = regsOf o.lane.cur := by
  unfold advance
  dsimp only
  repeat' split
  all_goals simp

/-! ### Issue -/

/-- The state in which an instruction of a Lane issues. -/
def atIssue (k : Nat) (s : State) : State := laneSee k (onLane k (fun l => sosAdvance l.slot (l.slot + 20) l) s)

@[simp] theorem laneAt_atIssue (k : Nat) (s : State) : laneAt (atIssue k s) k = seenLane s k := by
  simp [atIssue, seenLane]

theorem laneAt_atIssue_other (k i : Nat) (s : State) (h : i ≠ k) : laneAt (atIssue k s) i = laneAt s i := by
  simp [atIssue, laneAt_laneSee_other _ _ _ h, laneAt_onLane_other _ _ _ _ h]

/-- An instruction that raises no NOTE and does not stop its block. -/
theorem issue_plain (k : Nat) (body : LaneS → Issued) (s : State) (h : canIssue s k = true)
    (hn : (body (seenLane s k)).note = none) (hf : (body (seenLane s k)).flow ≠ .stop) :
    issue k false body s
      = onLane k (fun _ => { advance (body (seenLane s k)) with noted := (seenLane s k).noted }) (atIssue k s) := by
  have e : laneSee k (onLane k (fun l => sosAdvance l.slot (l.slot + 20) l) s) = atIssue k s := rfl
  unfold issue
  simp only [h, if_true, e, laneAt_atIssue, hn, Bool.false_eq_true, if_false]

/-- What such an instruction leaves. -/
theorem issue_issues (k : Nat) (body : LaneS → Issued) (s : State) (h : canIssue s k = true)
    (hn : (body (seenLane s k)).note = none) (hf : (body (seenLane s k)).flow ≠ .stop) :
    let o := body (seenLane s k)
    let t := laneAt (issue k false body s) k
    t.slot = o.lane.slot + o.cost ∧ t.pend = o.lane.pend ∧ regsOf t.cur = regsOf o.lane.cur := by
  intro o t
  have e : t = { advance o with noted := (seenLane s k).noted } := by
    show laneAt (issue k false body s) k = _
    rw [issue_plain k body s h hn hf, laneAt_onLane]
  have a := advance_spec o
  rw [e]
  exact ⟨a.2.1, a.1, a.2.2⟩

/-- A command that issues such an instruction, whose results, slots and stores are given. -/
theorem issues_of {c : Instr} {k : Nat} {body : LaneS → Issued} {s : State} {ws : List (Nat × LaneWr)} {cost : Nat}
    {stores : LaneS → LaneS} (he : exec c s = .next (issue k false body s)) (h : canIssue s k = true)
    (hn : (body (seenLane s k)).note = none) (hf : (body (seenLane s k)).flow ≠ .stop)
    (hs : (body (seenLane s k)).lane.slot = (seenLane s k).slot) (hc : (body (seenLane s k)).cost = cost)
    (hp : (body (seenLane s k)).lane.pend = (seenLane s k).pend
      ++ ws.map fun w => { vis := (seenLane s k).slot + w.1, shad := (seenLane s k).shadow, w := w.2 })
    (hr : regsOf (body (seenLane s k)).lane.cur = regsOf (stores (seenLane s k)).cur) :
    Issues c s k ws cost stores := by
  have a := issue_issues k body s h hn hf
  refine ⟨_, he, ?_, ?_, ?_⟩
  · rw [a.1, hs, hc]
  · rw [a.2.1, hp]
  · rw [a.2.2, hr]

end Sys2Proof.Laws
end

