-- ==== Sys2Proof/WellFormed.lean ====
section
/-! DEFINITION. Well-formed commands: operands that the chip's own numbering admits, where a type does not say so. -/

namespace Sys2Proof

/-- A piece of placed work (06 R214): a logical Square, a second physical Square, an Alley replica, a Lane block, its DUPLEX
copy or its pre-roll copy. -/
def workWf (w : Nat) : Bool :=
  decide (w < 80 ∨ (0x1000 ≤ w ∧ w < 0x1000 + 40) ∨ w = 0x2000 ∨ w = 0x2001 ∨ (0x4000 ≤ w ∧ w < 0x7000))

/-- A Lane: the work that it carries, or the second site of a move or audit of that work. -/
def laneWf (k : Nat) : Bool :=
  decide ((0x4000 ≤ k ∧ k < 0x7000) ∨ (0x14000 ≤ k ∧ k < 0x17000))

/-- A site of TILE_COMPLETE: placed work, a second site, or an Avenue segment. -/
def siteWf (k : Nat) : Bool :=
  workWf k || (decide (0x10000 ≤ k ∧ k < 0x20000) && workWf (k - 0x10000))
    || decide (0x20000 ≤ k ∧ k < 0x20000 + 64 * 8 ∧ k % 64 < 12)

/-- A word of the eDRAM (12 R390): 96 gain banks with 65,536 nodes each, numbered by gain-space index; the delay pool; four
banks beside the media ports for each of the stream areas. -/
def memAtWf (m : MemAt) : Bool :=
  match m.region.val with
  | 0 => decide (m.bank < 96 ∧ m.word < 5242880)
  | 1 => decide (m.bank < 1024 ∧ m.word < 3728270)
  | _ => decide (m.bank < 4)

/-- A matrix transaction of one of the forms of 12 R384. -/
def busTxWf (tx : BusTx) : Bool :=
  let n := 2 ^ tx.size.val
  if tx.wrap then
    (tx.beats == 2 || tx.beats == 4 || tx.beats == 8 || tx.beats == 16) && n == 16
      && tx.addr.toNat % (16 * tx.beats) == 0
  else decide (1 ≤ tx.beats ∧ tx.beats ≤ 16 ∧ tx.addr.toNat % n = 0) && (tx.beats == 1 || n == 16)

/-- A well-formed command. -/
def Instr.wf (i : Instr) : Bool :=
  match i with
  | .mediaTick pins tdm _ deds _ => pins.length == 8 && tdm.all (fun p => decide (p.1 < 512)) && deds.all memAtWf
  | .waveLaunch => true
  | .tileComplete site _ _ ded _ => siteWf site && ded.all (fun i => decide (i < 5242880))
  | .xpEntryTimeout _ => true
  | .xpTimeoutLog _ => true
  | .sceneCommitRun => true
  | .overlayLevelChange => true
  | .overlayTransitionTimeout _ => true
  | .priReadingNoRate pins => pins.length == 8
  | .priBroken _ => true
  | .nop lane _ => laneWf lane
  | .halt lane _ => laneWf lane
  | .laneWaveComplete lane => laneWf lane
  | .rete lane _ => laneWf lane
  | .sosrun lane _ _ => laneWf lane
  | .soswait lane _ _ => laneWf lane
  | .sosGroupComplete lane slot _ => laneWf lane && decide (slot ≤ 15000)
  | .mov lane _ _ _ => laneWf lane
  | .add lane _ _ _ _ => laneWf lane
  | .adds lane _ _ _ _ => laneWf lane
  | .sub lane _ _ _ _ => laneWf lane
  | .subs lane _ _ _ _ => laneWf lane
  | .neg lane _ _ _ => laneWf lane
  | .negs lane _ _ _ => laneWf lane
  | .abs lane _ _ _ => laneWf lane
  | .and lane _ _ _ _ => laneWf lane
  | .or lane _ _ _ _ => laneWf lane
  | .xor lane _ _ _ _ => laneWf lane
  | .not lane _ _ _ => laneWf lane
  | .ash lane _ _ _ _ => laneWf lane
  | .lsh lane _ _ _ _ => laneWf lane
  | .min lane _ _ _ _ => laneWf lane
  | .max lane _ _ _ _ => laneWf lane
  | .cmp lane _ _ _ => laneWf lane
  | .mulf lane _ _ _ _ => laneWf lane
  | .muli lane _ _ _ _ => laneWf lane
  | .addi lane _ _ _ _ => laneWf lane
  | .addsi lane _ _ _ _ => laneWf lane
  | .andi lane _ _ _ _ => laneWf lane
  | .ori lane _ _ _ _ => laneWf lane
  | .xori lane _ _ _ _ => laneWf lane
  | .ashi lane _ _ _ _ => laneWf lane
  | .lshi lane _ _ _ _ => laneWf lane
  | .cmpi lane _ _ _ => laneWf lane
  | .ldi lane _ _ _ => laneWf lane
  | .ldih lane _ _ _ => laneWf lane
  | .mpy lane _ _ _ _ _ _ _ => laneWf lane
  | .mac lane _ _ _ _ _ _ _ => laneWf lane
  | .msu lane _ _ _ _ _ _ _ => laneWf lane
  | .mpyn lane _ _ _ _ _ _ _ => laneWf lane
  | .pld lane _ _ _ => laneWf lane
  | .firtap lane _ _ _ _ _ _ => laneWf lane
  | .firtapn lane _ _ _ _ _ _ => laneWf lane
  | .ld lane _ _ _ _ => laneWf lane
  | .st lane _ _ _ _ => laneWf lane
  | .clra lane _ _ => laneWf lane
  | .movah lane _ _ _ => laneWf lane
  | .moval lane _ _ _ => laneWf lane
  | .movag lane _ _ _ => laneWf lane
  | .ldah lane _ _ _ => laneWf lane
  | .ldal lane _ _ _ => laneWf lane
  | .adda lane _ _ _ => laneWf lane
  | .suba lane _ _ _ => laneWf lane
  | .cpya lane _ _ _ => laneWf lane
  | .nega lane _ _ => laneWf lane
  | .asha lane _ _ _ => laneWf lane
  | .tsta lane _ _ => laneWf lane
  | .mvta lane _ _ _ _ => laneWf lane
  | .mvfa lane _ _ _ _ => laneWf lane
  | .lda lane _ _ _ _ => laneWf lane
  | .aadd lane _ _ _ => laneWf lane
  | .amod lane _ _ => laneWf lane
  | .mvtc lane _ _ _ => laneWf lane
  | .mvfc lane _ _ _ => laneWf lane
  | .j lane _ _ _ => laneWf lane
  | .call lane _ _ _ _ => laneWf lane
  | .jr lane _ _ _ => laneWf lane
  | .rep lane _ _ _ => laneWf lane
  | .loop lane _ _ _ => laneWf lane
  | .lpop lane _ => laneWf lane
  | .illegalOp lane _ _ => laneWf lane
  | .laneEventTake lane => laneWf lane
  | .budgetOverrun lane => laneWf lane
  | .slackWindowEnd speeds => speeds.all (fun p => decide (p.1 < 416))
  | .vcoreLower => true
  | .contextTransferComplete work => workWf work
  | .shadowRunEnd work _ => workWf work
  | .auditStart _ => true
  | .auditWindowEnd work _ => workWf work
  | .tieBreakComplete work _ => workWf work
  | .healthUpdate => true
  | .healthSave => true
  | .workReplace work => workWf work
  | .cellRepair _ => true
  | .edramRowRepair m _ => memAtWf m
  | .edramScrub m _ => memAtWf m
  | .sramScrub _ _ => true
  | .ddrPatrolScrub _ _ => true
  | .tjThresholdCross _ _ => true
  | .edramRefreshRelax _ _ => true
  | .tjCrit _ _ => true
  | .planStaged _ => true
  | .planTakeEffect => true
  | .planUnloadEffect => true
  | .eqPublishH => true
  | .eqSettle => true
  | .blockSwap => true
  | .fadeEnd _ => true
  | .playerBegin _ => true
  | .playerStopEffect _ => true
  | .playerEntryEnd _ => true
  | .upstreamFrameReceive _ _ _ => true
  | .linkLoss _ => true
  | .ctlTimeout _ => true
  | .thermalUpdate => true
  | .pilotWindowEnd _ _ _ _ _ => true
  | .shortProbeStart _ => true
  | .shortProbeEnd _ _ _ => true
  | .channelResume _ => true
  | .stageDownstreamFrame _ _ _ => true
  | .stageFrameMissing _ _ => true
  | .stageMuteNoInput _ => true
  | .stageCurrentLimit _ _ => true
  | .stageUpstreamSend _ _ _ _ v a => v.length == 4 && a.length == 4
  | .rxFrame _ _ _ _ _ => true
  | .streamLoss _ => true
  | .streamPacketQueue _ => true
  | .streamPacketStale _ => true
  | .txFrameStart _ _ => true
  | .txFrameComplete _ _ _ => true
  | .txUnderrun _ => true
  | .pauseExpire _ => true
  | .pauseWatchdog _ => true
  | .pauseHoldoffEnd _ => true
  | .linkDown _ _ => true
  | .wakeFrame _ => true
  | .wakeTimer => true
  | .ptpTimeAvailable _ => true
  | .ptpTimeLost _ => true
  | .holdoverLong => true
  | .dpllLock _ _ _ => true
  | .ptpTimeReturn _ _ => true
  | .realignStep _ => true
  | .censusProbe _ => true
  | .censusReadComplete _ _ => true
  | .censusReadRetry _ => true
  | .i2cBusStuck _ _ => true
  | .stageDmirReadComplete _ => true
  | .stageDmirRetry _ => true
  | .octotFrameReceive _ _ header _ => header.length == 368
  | .forwardedCommandApply => true
  | .octotLane _ => true
  | .twinStartWait => true
  | .twinRunInEnd => true
  | .seedItemTimeout _ => true
  | .twinReady => true
  | .joinFailed => true
  | .twinAutoRejoin => true
  | .twinDecision => true
  | .twinPromotion => true
  | .twinClaimDrop => true
  | .kioskDoorbell _ _ => true
  | .kiosk0Ack => true
  | .kiosk0EventPost => true
  | .sysVersion _ => true
  | .sysEcho _ => true
  | .sysEventConfig _ => true
  | .sysLogStatus _ => true
  | .sysTime _ _ _ => true
  | .sysKioskStatus _ => true
  | .planLoad _ => true
  | .planVerify _ => true
  | .planStatus _ => true
  | .planLatencyRead _ => true
  | .planBlockInsert _ => true
  | .planBlockRemove _ => true
  | .planEqBypass _ => true
  | .planUnload _ => true
  | .xpNodeWrite _ => true
  | .xpNodeRead _ => true
  | .xpStepTimeout _ => true
  | .xpQueueStatus _ => true
  | .xpSceneCommit _ => true
  | .xpSceneDiscard _ => true
  | .xpSatRead _ => true
  | .xpOvlDefine _ => true
  | .xpOvlClear _ => true
  | .xpOvlSet _ => true
  | .xpOvlBind _ => true
  | .xpOvlStatus _ => true
  | .xpAlleyStatus _ => true
  | .blkParamWrite _ => true
  | .blkParamRead _ => true
  | .blkCoefWrite _ => true
  | .blkSosWrite _ => true
  | .blkStatus _ => true
  | .playerStart _ => true
  | .playerStop _ => true
  | .playerStatus _ => true
  | .playerBind _ => true
  | .dspStatus _ => true
  | .dspPlacementRead _ => true
  | .dspDistrictRead _ => true
  | .dspThresholds _ => true
  | .dspAuditConfig _ => true
  | .dspHealthExport _ => true
  | .dspHealthImport _ => true
  | .drvLinkConfig _ => true
  | .drvLinkStatus _ => true
  | .drvStageSet _ => true
  | .drvCtlRaw _ => true
  | .drvThermalSet _ => true
  | .drvPilotSet _ => true
  | .drvKerbSet _ => true
  | .drvZLimits _ => true
  | .drvMonitorRead _ => true
  | .drvChannelCtl _ => true
  | .drvCalWrite _ => true
  | .netPortConfig _ => true
  | .netPortStatus _ => true
  | .netRingOwner _ => true
  | .netFilterSet _ => true
  | .netRxOpen _ => true
  | .netTxOpen _ => true
  | .netStreamClose _ => true
  | .netStreamStatus _ => true
  | .netStatsRead _ => true
  | .netPtpConfig _ => true
  | .netPtpStatus _ _ _ => true
  | .netWakeSet _ => true
  | .netMacsecSet _ => true
  | .lioPortConfig _ => true
  | .lioMclkSet _ => true
  | .censusRun _ => true
  | .censusSummary _ => true
  | .censusRead _ => true
  | .censusPlanCheck _ => true
  | .twinStatusRead _ => true
  | .twinPolicy _ => true
  | .twinJoin _ => true
  | .twinPromote _ => true
  | .twinYield _ => true
  | .twinResolve _ => true
  | .twinMismatchRead _ => true
  | .twinAddress _ => true
  | .clkStatusRead _ => true
  | .clkRateSet _ _ => true
  | .rateChangeFirstTick => true
  | .clkDpllConfig _ => true
  | .clkRealign _ => true
  | .clkMeasure _ => true
  | .clkMeasureComplete _ => true
  | .clkGateSet _ => true
  | .gateCloseTimeout _ => true
  | .gateCloseAck _ => true
  | .pwrStateSet _ => true
  | .powerStateEffect => true
  | .retainEnter => true
  | .wakeComplete _ => true
  | .pwrVcore _ => true
  | .pwrReset _ => true
  | .pwrPinmapRead _ => true
  | .pwrPinmapProgram _ => true
  | .fltStatusRead _ => true
  | .fltSourceRead _ => true
  | .fltInject _ => true
  | .fltInjectCancel _ => true
  | .fltInjectStatus _ => true
  | .injectionWindowEnd => true
  | .secStatus _ => true
  | .secIdentity _ => true
  | .secSessionOpen _ _ _ => true
  | .secSessionAuth _ _ _ _ => true
  | .secSessionClose _ => true
  | .secEnrol _ => true
  | .secLibKeySet _ => true
  | .secLibConfig _ => true
  | .secLibVerify _ => true
  | .secKeyLoad _ _ => true
  | .secKeyErase _ => true
  | .secRollbackCommit _ => true
  | .secApproved _ => true
  | .secZeroise _ => true
  | .secDebugUnlock _ => true
  | .sessionIdleTimeout => true
  | .sessionAuthTimeout => true
  | .sessionLockoutEnd => true
  | .smSelftestComplete _ => true
  | .smConditionalTestFail => true
  | .smGlitch _ => true
  | .smTamper _ => true
  | .bulkOpen _ => true
  | .bulkClose _ => true
  | .bulkStatus _ => true
  | .bulkCrc _ => true
  | .bulkSpaceInfo _ => true
  | .z640Info _ => true
  | .z640ViewSet _ => true
  | .z640XpWrite _ => true
  | .z640XpRead _ => true
  | .z640StripMute _ => true
  | .z640Recall _ => true
  | .z640Status _ => true
  | .dataPortWrite _ _ _ => true
  | .dataPortRead _ _ _ _ => true
  | .dpBurstIdleEnd _ => true
  | .dpCommit _ => true
  | .dpAddrWrite _ _ => true
  | .dpErrorClear _ => true
  | .sampleCountRead => true
  | .readClearRegister offset => offset.toNat % 4 == 0
  | .fwLoadWrite _ => true
  | .stagingWindowWrite _ _ => true
  | .fwVerifyComplete _ _ _ => true
  | .fwReady => true
  | .logMarkWrite _ => true
  | .ringProdWrite _ _ _ _ => true
  | .ringEnable _ _ _ => true
  | .fltNfaultWrite _ => true
  | .sysRemapWrite _ _ => true
  | .registerWrite offset data => offset.toNat % 4 == 0 && data.length == 4
  | .spiWrite _ _ _ => true
  | .spiRead _ _ => true
  | .spiStatus => true
  | .matrixTransaction tx => busTxWf tx
  | .masterReset _ => true
  | .pcieFlr => true
  | .faultLineScan _ => true
  | .firmwareFaultReport => true
  | .nfaultPulseEnd => true
  | .faultMergeFlush => true
  | .powerOnReset => true
  | .powerOnResetRelease => true
  | .rcStable _ => true
  | .bootcfgMeasure _ => true
  | .crystalDelayEnd _ => true
  | .pllLock _ => true
  | .ddrTrainingComplete _ cap rate => decide (cap ≤ 5 ∧ rate ≤ 4)
  | .ddrRetrain => true
  | .quarterRelease _ => true
  | .districtFail _ => true
  | .nresetLow _ _ => true
  | .pciePerst _ => true
  | .fwWatchdog => true
  | .nolutRestartComplete _ => true
  | .clockMonitorTrip _ => true
  | .clockMonitorRecover _ => true
  | .secLibVerifyComplete _ => true
  | .bootImageLoaded _ => true
  | .networkBootTimeout => true
  | .commandedReset => true
  | .fwHeartbeatIncrement => true

end Sys2Proof
end

