-- ==== Sys2Proof/Tests/Slice0.lean ====
section
/-! SUPPORT. The model's own tests: words and commands written out from the spec, and a witness for the hypotheses of every
statement. -/

namespace Sys2Proof.Tests

open Sys2Proof Sys2Proof.Machine

-- The tests are checked one after another, so that few of them hold memory at once.
set_option Elab.async false

/-! ### Small states -/

/-- A unit in service: clocks, firmware, LPDDR5 and the security module are up, the Kiosks are IDLE and no plan runs. -/
def up : State := { State.reset with
  host := { State.reset.host with
    fwState := 5
    kiosks := (List.range 32).foldl (fun t k => tput {} t k { st := 0 }) [] }
  clk := { State.reset.clk with por := false, rcOk := true, boot := 5, refOk := true, lock := 0xF, monOk := 0x3F }
  mat := { State.reset.mat with ddrState := 2, ddrCap := 2, ddrRate := 1 }
  sm := { State.reset.sm with state := 1 } }

/-- A request that a host has put on a Kiosk. -/
def ask (k code : Nat) (p : List Byte) (s : State) : State := onKiosk k (fun q => { q with
  st := 1
  req := some { code := code, payload := p } }) s

/-- The command, with this payload in this state, is accepted (11 R359). -/
def accepted (c : Instr) (p : List Byte) (s : State) : Bool :=
  match kioskRow c with
  | some q =>
    let t := ask q.kiosk q.code p s
    match heldReq q.code q.kiosk t with
    | some r => epochOk r t && (q.check r.payload t).isNone
    | none => false
  | none => false

/-- What `accepted` finds is the premise of the statements of Kiosk commands. -/
theorem accepts_of_accepted (c : Instr) (p : List Byte) (s : State) (h : accepted c p s = true) :
    ∃ q t r, kioskRow c = some q ∧ Accepts q.code q.kiosk q.check r t := by
  unfold accepted at h
  split at h
  · rename_i q hq
    simp only at h
    split at h
    · rename_i r hr
      rw [Bool.and_eq_true] at h
      exact ⟨q, _, r, hq, hr, h.1, by simpa using h.2⟩
    · cases h
  · cases h

/-- A plan of one block, one bus and one player, the player fed to row 7. -/
def plan : Image := {
  rate := .r48
  h := 8
  sources := [{ src := 0x20000003, row := 7 }]
  buses := [{ col := 4 }]
  blocks := [{ id := 5, type := 1, chIn := 2, chOut := 2, progLen := 1 }]
  progs := [0x010000000]
  players := [{ player := 3, row := 7 }] }

/-- The plan runs and a wave is live. -/
def play : State := { up with
  wave := { up.wave with live := true, running := true, ticked := true, rate := some .r48, num := 1000, count := 1000 }
  plan := { up.plan with run := some plan, loaded := true, epoch := 1 }
  place := { up.place with works := tput {} [] 0x4005 { placed := true, district := 20, slot := 0 } }
  lanes := tput {} [] 0x4005 { phase := .run } }

/-! ### A request that each command of a Kiosk accepts -/

/-- Bytes of fields given as width and value. -/
def bytes (l : List (Nat × Nat)) : List Byte := l.flatMap fun q => le q.1 q.2

/-- A smallest route plan: a header and an empty section of programs. -/
def planFile : List Byte :=
  let b (c : Nat) : List Byte := bytes [(4, 0x4E4C505A), (2, 0x0300), (2, 0), (4, 64), (1, 0), (1, 8), (1, 0xFF), (1, 1), (8, 9),
    (4, c), (1, 0xFF), (3, 0), (4, 4), (4, 48), (4, 0), (4, 0), (16, 0)]
  b (crc32 (b 0)).toNat

/-- The unit with a route plan in plan space. -/
def withPlan : State := up.onMat fun m => { m with mem := memWrite m.mem 0x400000000 planFile }

/-- The unit as the claimant of a pair. -/
def claimant : State := up.onTwin fun t => { t with
  pair := true
  active := true
  linkUp := true
  unresolved := true
  records := [{}]
  peer := { state := 6 } }

/-- The unit as a standby that is READY. -/
def standby : State := up.onTwin fun t => { t with pair := true, state := 6, linkUp := true }

/-- The plan runs and the library holds entry 2, verified. -/
def withEntry : State :=
  let s := { play with sm := { play.sm with libMb := 1, verified := [2] } }
  s.onMat fun m => { m with
    mem := memWrite m.mem (libBase s + 256) (bytes [(4, 131072), (4, 100), (1, 0), (1, 0), (2, 1)]) }

/-- A view of the first strips and buses. -/
def viewed : State := play.onHost fun h => { h with view := true }

theorem witness_kiosk_system : ([
    accepted (.sysVersion 1) [] up,
    accepted (.sysEcho 31) [1, 2, 3] up,
    accepted (.sysEventConfig 1) [1, 31, 0, 0] up,
    accepted (.sysLogStatus 1) [] up,
    accepted (.sysTime 1 0 0) [] up,
    accepted (.sysKioskStatus 1) [] up]).all id := by decide

theorem witness_kiosk_plan : ([
    accepted (.planStatus 1) [] up,
    accepted (.planLatencyRead 1) [0, 0, 1, 0] (play.onPlan fun p => { p with
      run := some { plan with paths := [{ src := 0x20000003, sink := 0xA0000000 }] } }),
    accepted (.planBlockRemove 1) [5, 0, 0, 0] play,
    accepted (.planEqBypass 1) [1, 0, 0, 0] up,
    accepted (.planUnload 1) [] up]).all id := by decide

theorem witness_kiosk_crosspoint : ([
    accepted (.xpNodeWrite 1) (bytes [(2, 1), (2, 0), (4, 0), (4, 0x40)]) play,
    accepted (.xpNodeRead 1) (bytes [(2, 1), (2, 0), (4, 0)]) play,
    accepted (.xpStepTimeout 1) [255, 0, 0, 0] up,
    accepted (.xpQueueStatus 1) [1, 0, 0, 0] up,
    accepted (.xpSceneCommit 1) (bytes [(1, 9), (7, 0), (8, 1002)]) play,
    accepted (.xpSceneDiscard 1) [255, 0, 0, 0] up,
    accepted (.xpSatRead 1) [7, 1, 1, 0] up,
    accepted (.xpOvlDefine 1) (bytes [(1, 15), (1, 1), (2, 1), (4, 0), (4, 0)]) play,
    accepted (.xpOvlClear 1) [15, 0, 0, 0] up,
    accepted (.xpOvlSet 1) [0xFF, 0, 0, 0xFF] up,
    accepted (.xpOvlBind 1) [7, 0xFF, 1, 0] up,
    accepted (.xpOvlStatus 1) [] up,
    accepted (.xpAlleyStatus 1) [63, 1, 0, 0] up]).all id := by decide

theorem witness_kiosk_blocks : ([
    accepted (.blkParamWrite 1) (bytes [(2, 5), (1, 255), (1, 1), (8, 7)]) play,
    accepted (.blkParamRead 1) [5, 0, 227, 29] play,
    accepted (.blkCoefWrite 1) (bytes [(2, 5), (2, 0), (2, 0x1FFF), (2, 1), (8, 7)]) play,
    accepted (.blkSosWrite 1) (bytes [(2, 5), (2, 383), (1, 1), (1, 0), (2, 0), (40, 0)]) play,
    accepted (.blkStatus 1) [5, 0, 1, 0] play,
    accepted (.playerStart 1) (bytes [(1, 3), (1, 1), (2, 4), (2, 2), (2, 0), (8, 1002)]) withEntry,
    accepted (.playerStop 1) [3, 0, 0, 0] play,
    accepted (.playerStatus 1) [48, 16, 0, 0] up,
    accepted (.playerBind 1) (bytes [(1, 3), (1, 15), (1, 1), (1, 2), (2, 2), (2, 0)]) withEntry]).all id := by decide

theorem witness_kiosk_placement : ([
    accepted (.dspStatus 1) [] up,
    accepted (.dspPlacementRead 1) [0, 0, 14, 0] (play.onPlace fun p => { p with table := [(0x4005, [])] }),
    accepted (.dspDistrictRead 1) [51, 1, 0, 0] up,
    accepted (.dspThresholds 1) (bytes [(1, 1), (1, 128), (1, 127), (1, 16), (2, 4096), (2, 0)]) up,
    accepted (.dspAuditConfig 1) (bytes [(1, 1), (1, 0), (2, 5), (2, 32), (2, 0)]) up,
    accepted (.dspHealthExport 1) [15, 0, 0, 0] up,
    accepted (.dspHealthImport 1) (bytes [(4, 224 * 65536), (4, 0), (224, 0)]) up]).all id := by decide +kernel

theorem witness_kiosk_drive :
    let s := (onChan 127 (fun c => { c with chMute := true, short := .waiting }) (onLink 31 (fun l => { l with up := true }) up))
    ([
    accepted (.drvLinkConfig 1) (bytes [(1, 1), (3, 0), (4, 0xFFFFFFFF)]) up,
    accepted (.drvLinkStatus 1) [31, 1, 1, 0] up,
    accepted (.drvStageSet 1) (bytes [(1, 127), (1, 1), (2, 0), (2, 600), (1, 0xC0), (1, 31)]) s,
    accepted (.drvCtlRaw 1) (bytes [(1, 31), (1, 2), (2, 0x8000), (4, 0)]) s,
    accepted (.drvThermalSet 1) (bytes [(1, 127), (1, 0), (24, 0)]) s,
    accepted (.drvPilotSet 1) (bytes [(1, 127), (1, 1), (1, 1), (1, 30), (2, 80), (1, 8), (1, 0)]) s,
    accepted (.drvKerbSet 1) (bytes [(1, 127), (1, 1), (1, 60), (1, 0), (2, 0), (2, 5000), (2, 0)]) s,
    accepted (.drvZLimits 1) (bytes [(1, 127), (1, 1), (1, 5), (1, 200), (2, 0), (2, 1), (2, 2), (2, 0)]) s,
    accepted (.drvMonitorRead 1) [120, 8, 0, 0] s,
    accepted (.drvChannelCtl 1) [127, 2, 0, 0] s,
    accepted (.drvCalWrite 1) (bytes [(1, 127), (15, 0)]) s]).all id := by decide

theorem witness_kiosk_network : ([
    accepted (.netPortConfig 1) (bytes [(4, 0), (20, 0)]) up,
    accepted (.netPortStatus 1) [4, 0, 0, 0] up,
    accepted (.netRingOwner 1) [135, 1, 0, 0] up,
    accepted (.netFilterSet 1) (bytes [(1, 4), (1, 63), (1, 0), (17, 0)]) up,
    accepted (.netRxOpen 1) (bytes [(2, 511), (1, 1), (1, 1), (1, 8), (1, 1), (2, 2040), (2, 4000), (1, 127), (1, 0), (4, 0xEF000001),
      (4, 0), (2, 5004), (1, 0), (1, 0), (32, 0)]) play,
    accepted (.netTxOpen 1) (bytes [(2, 511), (1, 1), (1, 1), (1, 8), (1, 1), (2, 0), (2, 5004), (1, 96), (1, 14), (4, 0xEF000001),
      (4, 0), (2, 5004), (1, 1), (1, 63), (1, 32), (1, 7), (2, 0), (4, 1), (4, 0), (2, 0), (6, 0), (12, 0)]) play,
    accepted (.netStreamClose 1) [255, 1, 0, 0] up,
    accepted (.netStreamStatus 1) [255, 1, 1, 1] up,
    accepted (.netStatsRead 1) [0, 0, 0, 0] up,
    accepted (.netPtpConfig 1) (bytes [(16, 0)]) up,
    accepted (.netPtpStatus 1 () ()) [] up,
    accepted (.netWakeSet 1) (bytes [(148, 0)]) up,
    accepted (.netMacsecSet 1) (bytes [(1, 3), (1, 0), (34, 0)]) up]).all id := by decide +kernel

theorem witness_kiosk_ports : ([
    accepted (.lioPortConfig 1) [3, 1, 2, 15, 24, 32, 0, 0] up,
    accepted (.lioMclkSet 1) [3, 1, 3, 0] up,
    accepted (.censusRun 1) [2, 0, 0, 0] up,
    accepted (.censusSummary 1) [] up,
    accepted (.censusRead 1) [1, 31, 1, 0] up]).all id := by decide

theorem witness_kiosk_pair : ([
    accepted (.twinStatusRead 1) [] up,
    accepted (.twinPolicy 1) (bytes [(1, 1), (1, 1), (1, 3), (1, 32), (2, 5), (2, 600)]) up,
    accepted (.twinJoin 1) [1, 0, 0, 0] standby,
    accepted (.twinPromote 1) [0, 0, 0, 0] standby,
    accepted (.twinYield 1) [0, 0, 0, 0] claimant,
    accepted (.twinResolve 1) [2, 0, 0, 0] claimant,
    accepted (.twinMismatchRead 1) [0, 0, 0, 0] claimant,
    accepted (.twinAddress 1) (bytes [(1, 3), (1, 1), (14, 0)]) up]).all id := by decide

theorem witness_kiosk_clocks : ([
    accepted (.clkStatusRead 1) [] up,
    accepted (.clkRateSet 1 0) [2, 0, 0, 0] up,
    accepted (.clkDpllConfig 1) (bytes [(1, 1), (1, 1), (2, 200), (4, 1000000), (2, 3600), (2, 0)]) up,
    accepted (.clkRealign 1) [] { up with
      clk := { up.clk with dpll := some 2 }
      net := { up.net with ptp := { up.net.ptp with usable := true } } },
    accepted (.clkMeasure 1) (bytes [(1, 0), (1, 1), (2, 0), (4, 1)]) up,
    accepted (.clkGateSet 1) [15, 2, 0xE8, 3] up,
    accepted (.pwrStateSet 1) (bytes [(1, 1), (1, 1), (2, 0), (4, 86400)]) up,
    accepted (.pwrVcore 1) [1, 12, 16, 0] up,
    accepted (.pwrReset 1) [1, 0xA5, 0, 0] up,
    accepted (.pwrPinmapRead 1) [] up,
    accepted (.pwrPinmapProgram 1) [0, 1, 0, 0] up]).all id := by decide

theorem witness_kiosk_faults : ([
    accepted (.fltStatusRead 1) [] up,
    accepted (.fltSourceRead 1) (bytes [(2, 0x0306), (2, 0), (1, 16), (1, 1), (2, 0)]) up,
    accepted (.fltInject 1) (bytes [(2, 0x0306), (1, 1), (1, 0), (4, 0), (4, 10000000)]) up,
    accepted (.fltInjectCancel 1) [0xFF, 0, 0, 0] up,
    accepted (.fltInjectStatus 1) [] up]).all id := by decide

theorem witness_kiosk_security :
    let s := up.onSm fun m => { m with opers := tput none [] 7 (some { roles := 4 }) }
    ([
    accepted (.secStatus 1) [] up,
    accepted (.secIdentity 1) [] up,
    accepted (.secSessionOpen 31 [] ()) (bytes [(1, 7), (103, 0)]) s,
    accepted (.secSessionAuth 31 [] () ()) (bytes [(96, 0), (4, 86400)]) up,
    accepted (.secSessionClose 31) [] up,
    accepted (.secEnrol 31) (bytes [(1, 7), (1, 1), (1, 7), (101, 0)]) up,
    accepted (.secLibKeySet 31) (bytes [(1, 3), (103, 0)]) up,
    accepted (.secLibConfig 31) [1, 0, 0, 16] up,
    accepted (.secLibVerify 31) [255, 3, 0, 0] up,
    accepted (.secKeyLoad 31 ()) (bytes [(2, 0x0100), (46, 0)]) up,
    accepted (.secKeyErase 31) [0xFF, 0xFF, 1, 0] up,
    accepted (.secRollbackCommit 31) [3, 0, 0, 0] (up.onHost fun h => { h with fwIndex := 3 }),
    accepted (.secApproved 31) [1, 0, 0, 0] (s.onSm fun m => { m with order := 2 }),
    accepted (.secZeroise 31) [1, 0x5A, 0, 0] up,
    accepted (.secDebugUnlock 31) [0xC3, 0, 0, 0] up]).all id := by decide

theorem witness_kiosk_data_port : ([
    accepted (.bulkOpen 1) (bytes [(1, 3), (1, 1), (1, 1), (1, 0), (4, 0), (4, 8388607)]) up,
    accepted (.bulkClose 1) [3, 0, 0, 0] (onDp 3 (fun d => { d with open_ := true }) up),
    accepted (.bulkStatus 1) [3, 0, 0, 0] up,
    accepted (.bulkCrc 1) (bytes [(4, 1), (4, 0), (4, 1), (4, 1)]) play,
    accepted (.bulkSpaceInfo 1) [7, 0, 0, 0] up]).all id := by decide

theorem witness_kiosk_view : ([
    accepted (.z640Info 1) [] up,
    accepted (.z640ViewSet 1) (bytes [(1, 1), (3, 0), (2, 0), (2, 640), (2, 0), (2, 256)]) play,
    accepted (.z640XpWrite 1) (bytes [(4, 1), (2, 639), (1, 255), (1, 0), (2, 0)]) viewed,
    accepted (.z640XpRead 1) (bytes [(4, 1), (2, 639), (1, 255), (1, 0)]) viewed,
    accepted (.z640StripMute 1) [0x7F, 2, 1, 0] viewed,
    accepted (.z640Recall 1) [2, 0, 0, 0] viewed,
    accepted (.z640Status 1) [] viewed]).all id := by decide +kernel

/-- A block file for PLAN_BLOCK_INSERT: block 6, a delay of one channel. -/
def blockFile : List Byte :=
  let b (c : Nat) : List Byte := bytes [(4, 0x4E4C505A), (2, 0x0300), (2, 0), (4, 80), (1, 0), (1, 8), (1, 0xFF), (1, 1), (8, 9),
    (4, c), (1, 0xFF), (3, 0), (4, 3), (4, 48), (4, 32), (4, 1),
    (2, 6), (1, 6), (1, 0), (1, 1), (1, 1), (2, 0), (4, 0), (8, 0), (4, 0), (2, 0), (2, 0), (4, 0)]
  b (crc32 (b 0)).toNat

set_option maxRecDepth 20000 in
theorem witness_kiosk_block_insert :
    accepted (.planBlockInsert 1) [0, 0, 0, 0]
      { play with
        plan := { play.plan with run := some { plan with blocks := [] } }
        mat := { play.mat with mem := memWrite [] 0x400000000 blockFile } } = true := by decide +kernel

/-- Step 5 of the plan of this file fails, since 192 kHz leaves it eight Alley columns. -/
def wideFile : List Byte :=
  let b (c : Nat) : List Byte := bytes [(4, 0x4E4C505A), (2, 0x0300), (2, 0), (4, 64), (1, 2), (1, 8), (1, 0), (1, 1), (8, 9),
    (4, c), (1, 7), (3, 0), (4, 4), (4, 48), (4, 0), (4, 0), (16, 0)]
  b (crc32 (b 0)).toNat

theorem witness_kiosk_plan_check :
    accepted (.censusPlanCheck 1) (bytes [(8, 0)])
      (up.onMat fun m => { m with mem := memWrite m.mem 0x400000000 wideFile }) = true := by decide +kernel

theorem witness_kiosk_plan_load : accepted (.planLoad 1) (bytes [(16, 0)]) withPlan = true := by decide +kernel

theorem witness_kiosk_plan_verify : accepted (.planVerify 1) (bytes [(8, 0)]) withPlan = true := by decide +kernel

/-- No request is sealed, no response was discarded, and no command is forwarded. -/
theorem witness_kiosk_plain :
    ∀ u ∈ [up, play, withEntry, viewed], forwards u = false ∧ (tget {} (ask 1 0x0001 [] u).host.kiosks 1).drop = false := by
  decide

/-- The claimant forwards a command that it accepts. -/
theorem witness_kiosk_forwarded :
    accepted (.planEqBypass 1) [1, 0, 0, 0] claimant = true ∧ fwdAlways [1, 0, 0, 0] = true ∧ forwards claimant = true := by
  decide

theorem witness_kiosk_turned_away :
    let t := onKiosk 1 (fun q => { q with
      st := 1
      req := some { code := 0x0107, flags := 1, epoch := 2, payload := [1, 0, 0, 0] } }) play
    let u := ask 1 0x0107 [2, 0, 0, 0] play
    ((heldReq 0x0107 1 t).map fun r => epochOk r t) = some false
    ∧ ((heldReq 0x0107 1 u).map fun r => (epochOk r u, planEqBypassCheck r.payload u)) = some (true, some (badParam 0)) := by
  decide

theorem witness_doorbells :
    let u := onKiosk 1 (fun q => { q with st := 1 }) up
    let v := onKiosk 1 (fun q => { q with
      st := 2
      reqBuf := (List.range 16).foldl (fun b i => tput 0 b i (byteAt (bytes [(2, 1), (14, 0)]) i)) [] }) up
    hostUp up = true ∧ (1 : Fin 32) ≠ 0
    ∧ (hostUp State.reset = false ∧ hostUp { up with host := { up.host with fwState := 4 } } = true)
    ∧ (u.host.fwState = 5 ∧ (tget {} u.host.kiosks 1).st = 1)
    ∧ (v.host.fwState = 5 ∧ (tget {} v.host.kiosks 1).st ≠ 1 ∧ (tget {} v.host.kiosks 1).st ≠ 7 ∧
      (tget {} v.host.kiosks 1).req = none ∧ (1 : Fin 32) ≠ 31 ∧ fld (bufBytes (tget {} v.host.kiosks 1).reqBuf 256) 4 2 ≤ 240 ∧
      earlyCheck 1 (bufRequest (tget {} v.host.kiosks 1)) (onKiosk 1 (fun x => { x with
        st := 1
        req := some (bufRequest (tget {} v.host.kiosks 1)) }) v) = none) := by decide +kernel

/-! ### Lanes -/

/-- A wave is live and one Lane is as given. -/
def lane (l : LaneS) : State := { play with lanes := tput {} [] 0x4005 l }

/-- A loop entry over the instruction at address 4. -/
def loopAt (n : BitVec 16) : LoopE := { first := 2, last := 4, count := n, rep := true }

/-- A Lane that runs, at address 4. -/
def running : LaneS := { phase := .run, pc := 4, slot := 14999 }

/-- The same Lane with these loops active. -/
def looping (l : List LoopE) : LaneS := { running with cur := { main := { loops := l } } }

theorem witness_lane_issues : canIssue (lane running) 0x4005 = true ∧ (0 : BitVec 3) ≠ 7 := by decide

theorem witness_post_step : (8192 : Nat) = 4096 ∨ (8192 : Nat) = 8192 := by decide

theorem witness_branches :
    canIssue (lane running) 0x4005 = true ∧ (14 : BitVec 4) ≠ 15 ∧ (seenLane (lane running) 0x4005).delay = .none ∧
      atLoopEnd (seenLane (lane running) 0x4005) = false := by decide

theorem witness_delay_slot :
    let u (d : Delay) := lane { running with delay := d }
    (canIssue (u (.branch (some 9))) 0x4005 = true ∧ (seenLane (u (.branch (some 9))) 0x4005).delay = .branch (some 9))
    ∧ (canIssue (u (.branch none)) 0x4005 = true ∧ (seenLane (u (.branch none)) 0x4005).delay = .branch none ∧
      atLoopEnd (seenLane (u (.branch none)) 0x4005) = false)
    ∧ (canIssue (u .rete) 0x4005 = true ∧ (seenLane (u .rete) 0x4005).delay = .rete ∧
      (seenLane (u .rete) 0x4005).haltWait = false) := by decide

theorem witness_loops :
    let e : LoopE := { first := 9, last := 20, count := 3 }
    let u := lane { looping [e, e, e] with cur := { main := { loops := [e, e, e], d := tput 0 [] 2 1 } } }
    let v := lane (looping [e, e, e, e])
    let l := seenLane u 0x4005
    (canIssue u 0x4005 = true ∧ l.delay = .none ∧ atLoopEnd l = false ∧ l.pc.toNat + 255 + 1 ≤ 0xFFF ∧ (loopsOf l).length < 4)
    ∧ (canIssue v 0x4005 = true ∧ (seenLane v 0x4005).delay = .none ∧ atLoopEnd (seenLane v 0x4005) = false ∧
      4 ≤ (loopsOf (seenLane v 0x4005)).length)
    ∧ (l.pc.toNat < (5 : BitVec 12).toNat ∧ (rdD l 2).truncate 16 ≠ (0 : BitVec 16))
    ∧ (l.pc.toNat < (5 : BitVec 12).toNat ∧ (rdD l 3).truncate 16 = (0 : BitVec 16))
    ∧ loopsOf l = e :: [e, e] := by decide

theorem witness_loop_end :
    let u := lane (looping [loopAt 2])
    let v := lane (looping [loopAt 1])
    (canIssue u 0x4005 = true ∧ (seenLane u 0x4005).delay = .none ∧ loopsOf (seenLane u 0x4005) = loopAt 2 :: [] ∧
      (loopAt 2).last = (seenLane u 0x4005).pc ∧ 1 < (loopAt 2).count.toNat)
    ∧ (canIssue v 0x4005 = true ∧ (seenLane v 0x4005).delay = .none ∧ loopsOf (seenLane v 0x4005) = loopAt 1 :: [] ∧
      (loopAt 1).last = (seenLane v 0x4005).pc ∧ (loopAt 1).count.toNat ≤ 1 ∧ ∀ q ∈ ([] : List LoopE), q.last ≠ 4) := by
  decide

theorem witness_halt_rete_sections :
    let u := lane { running with evSrc := 1, cur := { lctl := 1 } }
    let v := lane { running with
      sosQ := [(7, 14990)]
      cur := { chain := tput none [] 0 (some { group := 7, count := 1 }) } }
    (canIssue (lane running) 0x4005 = true ∧ (seenLane (lane running) 0x4005).shadow = false ∧
      (seenLane (lane running) 0x4005).sosQ = [])
    ∧ (canIssue u 0x4005 = true ∧ (seenLane u 0x4005).delay = .none ∧ atLoopEnd (seenLane u 0x4005) = false ∧
      (seenLane u 0x4005).evSrc ≠ 0 ∧ (seenLane u 0x4005).cur.lctl.getLsbD 0 = true ∧
      ∀ q ∈ (seenLane u 0x4005).sosQ, q.1 ≠ 7)
    ∧ (canIssue v 0x4005 = true ∧ ∃ q ∈ (seenLane v 0x4005).sosQ, q.1 = 7) := by decide

theorem witness_illegal_word :
    canIssue (lane running) 0x4005 = true ∧ laneDecode 0x4005 false 0xFFFFFFFFF = none := by decide

theorem witness_lane_only : issuesOn (.nop 0x4005 false) = some (0x4005, false) ∧
    ∃ t, exec (.nop 0x4005 false) (lane running) = .next t := ⟨rfl, _, rfl⟩

theorem witness_double_bit_error :
    issuesOn (.illegalOp 0x4005 true 0xC00000000) = some (0x4005, true) ∧ canIssue (lane running) 0x4005 = true ∧
      laneDecode 0x4005 true 0xC00000000 = none := by decide

theorem witness_memory_frame :
    issuesOn (.st 0x4005 false false (.abs 8191) (.d 0)) = some (0x4005, false)
    ∧ modeAddr (seenLane (lane running) 0x4005) .x (.abs 8191) % 8192 = 8191
    ∧ ((0 : Nat) % 8192 ≠ 8191)
    ∧ tapMoveAddr (seenLane (lane running) 0x4005) 0 % 8192 ≠ 1 := by decide

theorem witness_takes_event :
    let u (p : BitVec 3) := lane { running with evPend := p }
    ∀ p ∈ [1, 3, 7], (u p).wave.live = true ∧ (laneAt (u p) 0x4005).slot < laneBudget (u p) ∧
      mustTake (laneAt (u p) 0x4005) = true := by decide

theorem witness_wave_completes :
    let u := lane { phase := .halting, slot := 15000 }
    u.wave.live = true ∧ (laneAt u 0x4005).phase = .halting ∧ (laneAt u 0x4005).evPend = 0 ∧ (laneAt u 0x4005).evSrc = 0 ∧
      (laneAt u 0x4005).sosQ = [] ∧ (laneAt u 0x4005).slot ≤ laneBudget u := by decide

theorem witness_budget_overrun :
    let u (p : LanePhase) := lane { phase := p, slot := 15000 }
    let halted (l : LaneS) (s : State) : Prop := l.phase = .halting ∧ l.evPend = 0 ∧ l.evSrc = 0 ∧ l.sosQ = [] ∧
      l.slot = laneBudget s
    (∀ p ∈ [LanePhase.run, .halting], (u p).wave.live = true ∧
      ((laneAt (u p) 0x4005).phase = .run ∨ (laneAt (u p) 0x4005).phase = .halting) ∧
      laneBudget (u p) ≤ (laneAt (u p) 0x4005).slot)
    ∧ halted (laneAt (u .halting) 0x4005) (u .halting) ∧ ¬ halted (laneAt (u .run) 0x4005) (u .run) := by decide

theorem witness_section_group :
    let u (p : LanePhase) := lane {
      phase := p
      sosQ := [(7, 3), (0, 4)]
      cur := { chain := tput none [] 63 (some { group := 7, count := 1 }) } }
    ∀ p ∈ [LanePhase.run, .halting], (u p).wave.live = true ∧
      ((laneAt (u p) 0x4005).phase = .run ∨ (laneAt (u p) 0x4005).phase = .halting) ∧
      (laneAt (u p) 0x4005).sosQ = (7, 3) :: [(0, 4)] ∧ (laneAt (u p) 0x4005).sosRun = none ∧
      groupChains (laneAt (u p) 0x4005) 7 ≠ [] ∧ ∀ c ∈ groupChains (laneAt (u p) 0x4005) 7, c.count ≠ 0 := by decide

/-! ### Waves, the crosspoint, plans, players and placement -/

theorem witness_waves_and_ticks :
    mayLaunch (nextTick play) play = true
    ∧ (ticking play = true ∧ rateIdle play = false)
    ∧ (play.wave.live = true ∧ play.wave.done.contains 0 = false ∧ play.wave.dropped.contains 0 = false ∧ workMix 0 = true ∧
      (workAt (onWork 0 (fun w => { w with placed := true }) play) 0).placed = true)
    ∧ ((workAt play 0x4005).placed = true ∧ workMix 0x4005 = false ∧
      (laneAt (lane { phase := .done }) 0x4005).phase = .done)
    ∧ (∀ p ∈ [Power.hush, .run], (play.onClk fun c => { c with powDue := some (p, 1001) }).clk.powDue = some (p, 1001) ∧
      (1001 : BitVec 64).toNat ≤ (nextTick play).toNat)
    ∧ (let u := play.onClk fun c => { c with rateDue := some (.r96, 999, 5000) }
      u.clk.rateDue = some (.r96, 999, 5000) ∧ rateIdle u = true ∧ pllOk u = true) := by decide

theorem witness_sample_counter :
    (play.wave.step = none ∧ play.wave.firstTick = none ∧ play.wave.ticked = true)
    ∧ (up.wave.step = none ∧ up.wave.firstTick = none ∧ up.wave.ticked = false)
    ∧ (let u := play.onWave fun w => { w with firstTick := some 0 }
      u.wave.step = none ∧ u.wave.firstTick = some 0)
    ∧ (play.onWave fun w => { w with step := some 0xFFFFFFFFFFFFFFFF }).wave.step = some 0xFFFFFFFFFFFFFFFF := by decide

theorem witness_crosspoint :
    let all (q : Nat) (s : State) : State := onWork q (fun w => { w with placed := true }) s
    (let e : QEntry := { idx := 5242879, word := 7, wave := 980, timeout := 20 }
      let u := all 79 { play with
        sig := { play.sig with rowCur := tput 0 [] (rowOf 5242879) 5, rowPrev := tput 0 [] (rowOf 5242879) 5 }
        xp := { play.xp with queue := [e] } }
      queueFind u.xp 5242879 = some e ∧ squareOpen u (sqOf u 5242879) = true ∧ timeoutDue u e = true)
    ∧ (let u := { play with
        wave := { play.wave with num := 5096 }
        xp := { play.xp with toLog := tput {} [] 79 { last := some 1000, held := 1 } } }
      (tget {} u.xp.toLog 79).last = some 1000 ∧ 0 < (tget {} u.xp.toLog 79).held ∧
        (1000 : BitVec 64).toNat + 4096 ≤ (sampleNow u).toNat)
    ∧ (∀ k ∈ [none, some 31], let c : Sched := { tag := 9, at64 := 1000, asap := k }
      let u := play.onXp fun x => { x with scheds := [c] }
      u.xp.scheds.find? (schedDue u) = some c ∧ u.wave.live = true ∧ squaresBegun u = false ∧ c.asap = k)
    ∧ play.wave.live = true
    ∧ (let r : Trans := { start := 1000 }
      let u := all 0 { play with
        wave := { play.wave with num := 1000 + 48000 }
        sig := { play.sig with rowCur := tput 0 [] 0 5, rowPrev := tput 0 [] 0 5 }
        xp := { play.xp with trans := tput none [] 3 (some r) } }
      tget none u.xp.trans 3 = some r ∧ squareOpen u (sqOf u 3) = true ∧ transTimeoutDue u 3 r = true)
    ∧ up.wave.rate = none
    ∧ (let u := play.onXp fun x => { x with pri := tput {} [] 7 { invalidFor := 960 } }
      (tget {} u.xp.pri 7).broken = false ∧ priLimit u ≤ (tget {} u.xp.pri 7).invalidFor ∧ priActs u.xp 7 = false)
    ∧ (let u := play.onXp fun x => { x with bindNext := [(7, some none)] }
      let v := play.onXp fun x => { x with bindNext := [(0, some (some { level := 3 }))] }
      let w := play.onXp fun x => { x with undo := [{ idx := 5242879, timed := true }] }
      w.xp.undo = [{ idx := 5242879, timed := true }] ∧ u.xp.bindNext = [(7, some none)] ∧ v.xp.bindNext = [(0, some (some { level := 3 }))]) := by
  decide

theorem witness_players :
    let u (q : PlayerS) := play.onPlan fun p => { p with players := tput {} [] 63 q }
    let q (u : State) := tget {} u.plan.players 63
    ((q (u { st := 1, startAt := 1000 })).st = 1 ∧ play.wave.live = true ∧
      (q (u { st := 1, startAt := 1000 })).startAt.toNat ≤ play.wave.num.toNat)
    ∧ ((q (u { st := 3, stopAt := 1000 })).st = 3 ∧ play.wave.live = true ∧ (q (u { st := 3, stopAt := 1000 })).stopAt.toNat ≤ play.wave.num.toNat)
    ∧ (∀ m ∈ [(0, 0), (1, 1), (1, 2), (2, 0)], let v := u { st := 2, mode := m.1, loops := m.2, entry := 0, pos := 0 }
      libSamples v (q v).entry ≤ (q v).pos ∧ (q v).st = 2)
    ∧ (let v := u { st := 3 }
      libSamples v (q v).entry ≤ (q v).pos ∧ (q v).st = 3) := by decide

theorem witness_plans :
    (let q : Staged := { img := plan, atSample := 1001 }
      let u := play.onPlan fun p => { p with staged := some q }
      u.plan.staged = some q ∧ q.effect = none ∧ rateWaits q u = false ∧ stagedFail q u = some { status := 0x0013 })
    ∧ (let q : Staged := { img := plan, atSample := 1002 }
      let u := play.onPlan fun p => { p with staged := some q }
      u.plan.staged = some q ∧ q.effect = none ∧ rateWaits q u = false ∧ stagedFail q u = none)
    ∧ (let q : Staged := { img := plan, effect := some 1000 }
      (play.onPlan fun p => { p with staged := some q }).plan.staged = some q ∧ waveCome 1000 play = true ∧
        q.rateChange = false)
    ∧ (let u := play.onPlan fun p => { p with unload := some 1000 }
      u.plan.unload = some 1000 ∧ waveCome 1000 u = true)
    ∧ (let u := play.onPlan fun p => { p with restart := some 934 }
      u.plan.restart = some 934 ∧ u.plan.run = some plan ∧ u.wave.live = true ∧ 934 + 64 ≤ u.wave.num.toNat ∧
        (u.plan.bypassDue.any (·.1)) = false ∧ 934 + 66 ≤ u.wave.num.toNat)
    ∧ (let q : Swap := { img := plan, p := 900, pre := 80, timeout := 20 }
      ∀ on ∈ [true, false], let u := play.onPlan fun p => { p with swap := some q, eqOn := on }
      u.plan.swap = some q ∧ u.plan.run = some plan ∧ swapDue q plan u = true ∧
        (raise 0x0005 0 u.wave.num (swapChain q plan u)).plan.eqOn = on)
    ∧ (let u := lane { phase := .run, fade := some (96, 96) }
      u.plan.run = some plan ∧ (∀ c, imgBlock plan 5 = some c → c.type ≠ 6) ∧ laneCopies u 5 = [0x4005] ∧
        (laneAt u 0x4005).fade = some (96, 96) ∧ 96 ≤ 96) := by
  refine ⟨by decide, by decide +kernel, by decide, by decide, by decide, by decide, by decide +kernel, ?_, by decide, by decide⟩
  intro c hc
  have h : imgBlock plan 5 = some { id := 5, type := 1, chIn := 2, chOut := 2, progLen := 1 } := by decide
  rw [h, Option.some.injEq] at hc
  subst hc
  decide

/-- One shadow run of the Lane of block 5, in its last wave. -/
def shadowing (kind : MoveKind) (equal : Bool) : State :=
  let s := play.onPlace fun p => { p with
    moving := [{ work := 0x4005, kind := kind, sd := 20, dd := 21, f := 900, j := some 902, k := 99, equal := equal }] }
  s.onWave fun w => { w with done := [0x14005, 0x4005] }

/-- The move that `shadowing` holds. -/
def shadow (kind : MoveKind) (equal : Bool) : MoveS :=
  { work := 0x4005, kind := kind, sd := 20, dd := 21, f := 900, j := some 902, k := 99, equal := equal }

theorem witness_placement :
    (∀ e ∈ [true, false], let u := { play with
        wave := { play.wave with num := 255 }
        clk := { play.clk with restart := e } }
      u.wave.live = true ∧ u.wave.num.toNat % 256 = 255 ∧ nolutDown u = e)
    ∧ (play.onPlace fun p => { p with thrNext := some (9, 8, 7, 96) }).place.thrNext = some (9, 8, 7, 96)
    ∧ (∀ e ∈ [true, false], runOver (shadowing .planned e) .planned 0x4005 = some (shadow .planned e)
      ∧ (shadowing .planned e).wave.done.contains 0x4005 = true
      ∧ (shadowing .planned e).wave.done.contains (0x10000 + 0x4005) = true
      ∧ runOver (shadowing .audit e) .audit 0x4005 = some (shadow .audit e)
      ∧ (shadow .planned e).equal = e ∧ ((shadow .planned e).equal && false) = false)
    ∧ (∀ k ∈ [0, 1], let m : MoveS := { shadow .planned true with ended := some (k == 0) }
      let u := play.onPlace fun p => { p with moving := [m] }
      u.place.moving = [m] ∧ m.kind = .planned ∧ m.ended = some (k == 0) ∧ (m.equal = true ∧ k = 0 ∨ k = 1))
    ∧ (let u := play.onClk fun c => { c with now := 2000000 }
      u.place.audOn = true ∧ u.wave.live = true ∧ u.plan.run.isSome = true ∧ heldDistrict u 20 = false ∧ migrating u < 8 ∧
        nolutDown u = false ∧ occupants u 20 ≠ [] ∧
        (tget {} u.place.dist 20).auditAt + u.place.audCycle.toNat * 100000 / (occupants u 20).length ≤ u.clk.now ∧
        (auditPick u 20).isSome = true ∧ (auditOn u 20).isSome = true)
    ∧ ((shadowing .tieBreak false).place.moving.find? fun m => m.work == 0x4005 && m.kind == .tieBreak)
      = some (shadow .tieBreak false)
    ∧ (let u := play.onClk fun c => { c with now := 86400000000 }
      nolutDown u = false ∧ u.place.healthAt + 1000000 ≤ u.clk.now ∧ u.place.saveAt + 86400000000 ≤ u.clk.now)
    ∧ (let u (pin : Option Nat) (d : Nat) := play.onPlace fun p => { p with
        works := tput {} [] 0x4005 { district := d, pin := pin }
        tiles := ((List.range 416).filter fun k => k / 8 != d).map fun k => (k, { retired := true }) }
      let none_ (v : State) := (v.place.works.any fun p => p.1 == 0x4005 && !p.2.placed) = true ∧ nolutDown v = false
      (none_ (u none 20) ∧ (workAt (u none 20) 0x4005).pin = none ∧ (bestSlot (u none 20) 0x4005 allDistricts).isSome = true)
      ∧ (none_ (u (some 20) 20) ∧ (workAt (u (some 20) 20) 0x4005).pin = some 20 ∧
        (siteIn (u (some 20) 20) 0x4005 20).isSome = true)
      ∧ (none_ (u (some 21) 20) ∧ (workAt (u (some 21) 20) 0x4005).pin = some 21 ∧
        siteIn (u (some 21) 20) 0x4005 21 = none ∧ (bestSlot (u (some 21) 20) 0x4005 allDistricts).isSome = true))
    ∧ ((tileAt up 415).spareUsed || up.wave.repairs.contains 415) = false
    ∧ ((tileAt (onTile 415 (fun t => { t with spareUsed := true }) up) 415).spareUsed) = true
    ∧ (up.wave.live = false ∧ play.wave.live = true)
    ∧ (let u := up.onClk fun c => { c with now := 600000000 }
      u.host.fwState = 5 ∧ u.clk.vReqAt + 600000000 ≤ u.clk.now ∧ u.clk.floor < u.clk.vid) := by
  and_intros <;> decide +kernel

/-! ### Memories, the pair, drive links, stages and the network -/

/-- A word of gain memory, of the delay pool and of a stream area. -/
def gainWord : MemAt := { region := 0, bank := 95, word := 5242879 }
def poolWord : MemAt := { region := 1, bank := 1023, word := 0 }

theorem witness_memory :
    (up.clk.por = false ∧ up.clk.power ≠ .retain)
    ∧ (let u := up.onClk fun c => { c with now := 60000000 }
      u.mat.scrubbed + 60000000 ≤ u.clk.now)
    ∧ (let u := up.onClk fun c => { c with now := 86400000000 }
      u.mat.ddrState = 2 ∧ u.mat.patrolled + 86400000000 ≤ u.clk.now)
    ∧ (sparesOut gainWord (onTile 95 (fun t => { t with rowSpares := 0 }) up) = true ∧ gainWord.region = 0)
    ∧ (let u := up.onMat fun m => { m with poolSp := tput 0 [] (bankKey poolWord) 8 }
      sparesOut poolWord u = true ∧ poolWord.region ≠ 0 ∧ u.mat.sparesTold.contains (bankKey poolWord) = false)
    ∧ (sparesOut gainWord play = false ∧ play.wave.live = true)
    ∧ (sparesOut gainWord up = false ∧ up.wave.live = false)
    ∧ (let u := up.onClk fun c => { c with now := 1000000 }
      u.clk.por = false ∧ tget 0 u.mat.rose 3 + 1000000 ≤ u.clk.now)
    ∧ (140 : Int) < 141 := by decide

/-- A unit of a pair. -/
def pair (f : TwinS → TwinS) : State := play.onTwin fun t => f { t with pair := true }

theorem witness_pair_states :
    (let u := { pair (fun t => { t with joinFrom := some 0, state := 1, unit := true }) with
       clk := { play.clk with now := 4000000 } }
     u.twin.joinFrom = some 0 ∧ u.twin.pair = true ∧ u.twin.state = 1 ∧ u.twin.linkUp = false ∧ u.twin.stay = false ∧
       nolutDown u = false ∧ 0 + u.twin.startWait * 100000 * (if u.twin.unit then 2 else 1) ≤ u.clk.now)
    ∧ (let u := pair fun t => { t with state := 3, runInEnd := 1000 }
      u.twin.state = 3 ∧ u.twin.runInEnd.toNat ≤ (sampleNow u).toNat)
    ∧ (let u := pair fun t => { t with state := 4, seedLeft := [(2, 1023)] }
      u.twin.state = 4 ∧ u.twin.seedLeft.contains (2, 1023) = true ∧ u.twin.seedPut.contains 1023 = false)
    ∧ (let u := pair fun t => { t with state := 5, linkUp := true, convRun := 4800 }
      u.twin.state = 5 ∧ u.twin.linkUp = true ∧ 4800 ≤ u.twin.convRun)
    ∧ (∀ k ∈ [4, 5], let u := { pair (fun t => { t with state := k }) with clk := { play.clk with now := 60000000 } }
      (u.twin.state = 4 ∨ u.twin.state = 5) ∧ u.twin.joinAt + u.twin.joinLimit * 1000000 ≤ u.clk.now)
    ∧ (let u := { pair (fun t => { t with failed := true, state := 1, linkUp := true }) with
        clk := { play.clk with now := 60000000 } }
      u.twin.failed = true ∧ u.twin.autoRejoin = true ∧ u.twin.state = 1 ∧ u.twin.linkUp = true ∧
        nolutDown u = false ∧ u.twin.joinAt + u.twin.joinLimit * 1000000 ≤ u.clk.now)
    ∧ (∀ a ∈ [true, false], let u := pair fun t => { t with promAt := some (1000, 7, false), active := a }
      u.twin.promAt = some (1000, 7, false) ∧ (1000 : BitVec 64).toNat ≤ (sampleNow u).toNat ∧ u.twin.active = a ∧
        nolutDown u = false ∧ u.plan.staged = none)
    ∧ (let u := pair fun t => { t with dropAt := some 1000 }
      u.twin.dropAt = some 1000 ∧ (1000 : BitVec 64).toNat ≤ (sampleNow u).toNat) := by
  and_intros <;> decide +kernel

/-- A header of the pair link: its magic number and zeros. -/
def octHeader : List Byte := bytes [(4, 0x4F435431), (364, 0)]

theorem witness_pair_frames :
    ((pair id).twin.pair = true ∧ (true && fld [] 0 4 == 0x4F435431 && ([] : List Byte).length == 368) = false)
    ∧ ((pair id).twin.state ≠ 2 ∧ fld octHeader 0 4 = 0x4F435431 ∧ octHeader.length = 368 ∧
      tget 0 (pair id).twin.laneGood 1 < 15 ∧ (pair id).twin.heardAt ≠ some (octParse octHeader []).sample)
    ∧ (let u := pair fun t => { t with laneUp := 2, laneBad := tput 0 [] 1 8 }
      u.twin.laneUp.getLsbD 1 = true ∧ 8 ≤ tget 0 u.twin.laneBad 1)
    ∧ (let d : Decision := { sample := 992, active := true }
      let u := pair fun t => { t with decide := some d, promAt := some (0, 0, false) }
      let v := pair fun t => { t with decide := some d, own := { flags := 0x10 } }
      u.twin.decide = some d ∧ d.sample.toNat + 8 ≤ (sampleNow u).toNat ∧ promBusy (d.sample + 8) u = true ∧
        nolutDown u = false ∧ nolutDown v = false ∧ v.twin.decide = some d ∧ d.sample.toNat + 8 ≤ (sampleNow v).toNat ∧ promBusy (d.sample + 8) v = false ∧
        (v.twin.own.flags.getLsbD 4 || v.twin.own.flags.getLsbD 5) = true ∧
        (v.twin.peer.flags.getLsbD 4 || v.twin.peer.flags.getLsbD 5) = false ∧ d.active = true) := by
  and_intros <;> decide +kernel

theorem witness_drive :
    (let u := onLink 31 (fun l => { l with up := true, bad := 8 }) play
     (linkAt u 31).up = true ∧ 8 ≤ (linkAt u 31).bad)
    ∧ (let r : CtlReq := { waits := 64, repeats := 3, owner := 31 }
      let u := onLink 31 (fun l => { l with req := some r }) play
      (linkAt u 31).req = some r ∧ 64 ≤ r.waits ∧ r.repeats = 3 ∧ r.owner < 32)
    ∧ (let u := { play with
        wave := { play.wave with count := 19 }
        drv := { play.drv with frames := true } }
      u.drv.frames = true ∧ u.wave.count.toNat ≠ 0 ∧ 16 * (u.drv.thermWin + 1) + 3 ≤ u.wave.count.toNat)
    ∧ (∀ ok ∈ [true, false], let u := { onChan 127 (fun c => { c with
          pilot := { mode := 1, window := 4, freq := 200 }
          pilM := if ok then 48000 else 0
          pilI := (2 ^ 160, 0) }) play with
        wave := { play.wave with count := 48000 } }
      let v := u.onDrv fun d => { d with frames := true }
      v.drv.frames = true ∧ pilotOn v (chanAt v 127).pilot = true ∧ (chanAt v 127).short ≠ .probe ∧
        (chanAt v 127).pilAt.toNat + (chanAt v 127).pilot.window * (hz v / 4) ≤ v.wave.count.toNat ∧
        readingOk (chanAt v 127) (pilotW v (pilotHz (chanAt v 127).pilot) ((chanAt v 127).pilot.window * (hz v / 4))) = ok)
    ∧ probeDue (onChan 127 (fun c => { c with short := .waiting }) (onLink 31 (fun l => { l with up := true }) play)) 127
      = true
    ∧ (let u (v : Int) := { onChan 127 (fun c => { c with
          short := .probe
          pilM := 9600
          pilV := (v, 0)
          pilI := (2 ^ 160, 0)
          z := { c.z with shortL := 100 }
          calHost := some { vLsb := 1, iLsb := 1 } }) play with
        wave := { play.wave with count := 9599 } }
      let ok (s : State) : Prop :=
        let q := chanAt s 127
        let zz := zSquare q (Config.free s.free)
        readingOk q (pilotW s (probePilot s q.pilot).2 (hz s / 5)) = true ∧ q.z.shortL * q.z.shortL * zz.2 ≤ zz.1 ∧
          q.probeBad = false
      (∀ v ∈ [2 ^ 160, 2 ^ 160 - 1], (chanAt (u v) 127).short = .probe ∧
        (chanAt (u v) 127).shortAt.toNat + hz (u v) / 5 ≤ (u v).wave.count.toNat + 1)
      ∧ ok (u (2 ^ 160)) ∧ ¬ ok (u (2 ^ 160 - 1)))
    ∧ (let u := onChan 127 (fun c => { c with resume := some 1001 }) play
      (chanAt u 127).resume = some 1001 ∧ (chanAt u 127).short = .none ∧ (chanAt u 127).trip = false ∧
        (chanAt u 127).muteDue = none ∧ (1001 : BitVec 64).toNat ≤ (play.wave.count + 1).toNat) := by
  and_intros <;> decide +kernel

/-- A downstream frame of zeros with its CRC, or with another one. -/
def downFrame (good : Bool) : List Byte :=
  let b := zeros 33
  b ++ be 2 ((crc16 b).toNat + if good then 0 else 1)

theorem witness_stages :
    ((downFrame true).length = 35 ∧ (crc16 ((downFrame true).take 33)).toNat = fldBe (downFrame true) 33 2)
    ∧ ((downFrame false).length = 35 ∧ (crc16 ((downFrame false).take 33)).toNat ≠ fldBe (downFrame false) 33 2)
    ∧ ([] : List Byte).length ≠ 35 ∧ (stageAt up 31).acc = none ∧ (30 : Fin 32) ≠ 31 := by decide +kernel

/-- A port that carries frames. -/
def openPort (p : Nat) (f : PortS → PortS) (s : State) : State :=
  onPort p (fun q => f { q with flags := 1, link := true }) s

/-- A frame of 64 bytes with a good FCS, or with a bad one. -/
def frame64 (good : Bool) : List Byte :=
  let b := zeros 60
  b ++ le 4 ((crc32 b).toNat + if good then 0 else 1)

/-- A transmit ring with one whole descriptor. -/
def sendRing : State :=
  let g := txRing 4 0
  let u := onRing g (fun r => { r with enable := true, base := 0x10000000, prod := 1 }) (openPort 4 id up)
  u.onMat fun m => { m with mem := memWrite m.mem (0x10000000 + 10) [1] }

theorem witness_network_frames :
    (∀ p ∈ [(0 : Fin 5), 4], ∀ w ∈ [Power.run, .hush], let u := (openPort p.val id up).onClk fun c => { c with power := w }
     (portAt u p.val).flags.getLsbD 0 = true ∧ (portAt u p.val).link = true ∧ (u.clk.power = .run ∨ u.clk.power = .hush) ∧
       (zeros 63).length < 64 ∧ 64 ≤ (frame64 false).length ∧
       ¬ (portAt u p.val).maxFrame + macsecAdds u p.val (frame64 false) < (frame64 false).length ∧
       fcsGood (frame64 false) = false ∧ 64 ≤ (frame64 true).length ∧ fcsGood (frame64 true) = true ∧
       (portAt u p.val).maxFrame + macsecAdds u p.val (zeros 1523) < (zeros 1523).length)
    ∧ (macsecRx 0 (frame64 true) (openPort 0 id up)).2 = some (frame64 true, false)
    ∧ (macsecRx 0 (frame64 true) (openPort 0 (fun q => { q with secy := true }) up)).2 = none
    ∧ (let u := openPort 4 (fun q => { q with fwTx := [{}] }) up
      portFree (txDrain 4 u) 4 = true ∧ (portAt (txDrain 4 u) 4).fwTx = {} :: [])
    ∧ (let u := txDrain 4 sendRing
      portFree u 4 = true ∧ (portAt u 4).fwTx = [] ∧
        (txOrder 4 (portAt u 4).turn).find? (fun r => txReady u (txRing 4 r) (([0] : List Nat).getD r 0)) = some 0 ∧
        (txHead u (txRing 4 0)).isSome = true)
    ∧ (let u := onRing 135 (fun r => { r with inFly := some (1, 64) }) (openPort 4 (fun q => { q with sending := some 135 }) up)
      (portAt u 4).sending = some 135 ∧ (portAt u 4).fwOut = none ∧ (ringAt u 135).inFly = some (1, 64)) := by
  and_intros <;> decide +kernel

/-- A magic packet for a port whose address is 0. -/
def magicFrame : List Byte :=
  let b := List.replicate 6 0xFF ++ zeros 96
  b ++ le 4 (crc32 b).toNat

set_option maxRecDepth 20000 in
theorem witness_network :
    (let u := onPort 4 (fun q => { q with pauseEnd := some 99999 }) up
     (portAt u 4).pauseEnd = some 99999 ∧ 99999 < (u.clk.now + 1) * 100000)
    ∧ (let u := { onPort 4 (fun q => { q with pauseEnd := some 50000001, pausedAt := some 0 }) up with
        clk := { up.clk with now := 500 } }
      (portAt u 4).pauseEnd = some 50000001 ∧ (portAt u 4).pausedAt = some 0 ∧ 0 + (portAt u 4).wdUs ≤ u.clk.now ∧
        u.clk.now * 100000 < 50000001)
    ∧ (let u := { onPort 4 (fun q => { q with holdAt := some 0 }) up with clk := { up.clk with now := 10000 } }
      (portAt u 4).holdAt = some 0 ∧ 0 + (portAt u 4).holdMs * 1000 ≤ u.clk.now)
    ∧ (let u := openPort 0 id up
      (portAt u 0).flags.getLsbD 0 = true ∧ u.clk.power = .run ∧ ((0 : Fin 5) = 4 ∨ u.clk.lock.getLsbD 3 = true))
    ∧ (let u := { onPort 4 (fun q => { q with mac := some 0 }) up with
        clk := { up.clk with power := .retain }
        net := { (onPort 4 (fun q => { q with mac := some 0 }) up).net with magic := true } }
      fcsGood magicFrame = true ∧ wakeMatch u magicFrame = some 1 ∧ u.clk.power = .retain)
    ∧ (let u := up.onClk fun c => { c with power := .retain, wakeS := 86400, now := 86400000000 }
      u.clk.power = .retain ∧ u.clk.wakeS ≠ 0 ∧ u.clk.retAt + u.clk.wakeS * 1000000 ≤ u.clk.now)
    ∧ (∀ k ∈ [1, 2], let u := onRx 511 (fun r => { r with state := k, ptime := 3 }) play
      ((rxAt u 511).state = 1 ∨ (rxAt u 511).state = 2) ∧
        (rxAt u 511).lastAt.toNat + 8 * packetLen u (rxAt u 511).ptime ≤ u.wave.count.toNat)
    ∧ (∀ b ∈ [true, false], (txAt (onTx 511 (fun t => { t with ready := some (9, b, []) }) play) 511).ready
      = some (9, b, [])) := by
  and_intros <;> decide +kernel

/-- A module's DMIR of zeros, with its CRC. -/
def zeroDmir : List Byte :=
  let b := zeros 252
  b ++ le 4 (crc32 b).toNat

set_option maxRecDepth 20000 in
theorem witness_census :
    (let u := up.onLio fun x => { x with busy := true, probe := true }
     nolutDown u = false ∧ u.lio.busy = true ∧ u.lio.probe = true)
    ∧ (nolutDown (onMod 31 (fun m => { m with st := 1 }) up) = false ∧
      (modAt (onMod 31 (fun m => { m with st := 1 }) up) 31).st = 1 ∧ dmirCrc zeroDmir = true ∧ dmirCrc [] = false)
    ∧ (let u := onMod 63 (fun m => { m with st := 1 }) (onLink 31 (fun l => { l with dmir := zeros 256 }) up)
      nolutDown u = false ∧ (modAt u (32 + 31)).st = 1 ∧ (linkAt u 31).dmir.length = 256)
    ∧ (let u := onMod 63 (fun m => { m with st := 3, retryAt := some 0 }) (onLink 31 (fun l => { l with up := true }) up)
      (modAt u (32 + 31)).retryAt = some 0 ∧ 0 ≤ u.clk.now ∧ nolutDown u = false ∧ (linkAt u 31).up = true ∧ (modAt u (32 + 31)).st = 3) := by
  and_intros <;> decide +kernel

/-! ### The host, boot, clocks, power, faults, security and the matrix -/

theorem witness_host :
    hostUp up = true
    ∧ (let u := up.onHost fun h => { h with k0 := [{}] }
      u.host.fwState = 5 ∧ (tget {} u.host.kiosks 0).st ≠ 3 ∧ u.host.k0 = {} :: [])
    ∧ ((tget {} (onKiosk 0 (fun q => { q with st := 3 }) up).host.kiosks 0).st = 3)
    ∧ (spiGood 0x83FFFFFF = true ∧ spiBar2 0x83FFFFFF = true ∧ spiGood 0x03FFFFFF = true ∧ spiBar2 0x03FFFFFF = false ∧
      ([0] : List Byte) ≠ [])
    ∧ (let u := { onDp 3 (fun d => { d with burstNext := some 4 }) up with clk := { up.clk with now := 2 } }
      (dpAt u 3).burstNext.isSome = true ∧ (dpAt u 3).burstAt + 2 ≤ u.clk.now) := by and_intros <;> decide +kernel

/-- A unit whose firmware is in this state. -/
def booting (n : Nat) : State := up.onHost fun h => { h with fwState := n }

/-- The public key of the private key 1: the base point of P-384 (SEC 2). -/
def rootPub : List Byte := 4 :: (be 48 ecG.1 ++ be 48 ecG.2)

/-- A signature with r, the base point's first coordinate, whose nonce is 1. -/
def signed (s : Nat) : List Byte := be 48 ecG.1 ++ be 48 s

/-- A boot image of 273 bytes with ROLLBACK_INDEX 64, which root 1 has signed. The signature was computed outside the model. -/
def imageFile : List Byte :=
  bytes [(4, 0x4E4C4946), (4, 0), (1, 64), (1, 1), (2, 0), (4, 273), (4, 273), (12, 0)] ++ sha384 rootPub
    ++ signed 0xACCA4DC336B74BDF7B6FB5D295FA729B77FFB32008BFA6B5B81C02E13227EBA796CF1DC0CB5DE5EDBEC0E785447FFF6F ++ rootPub

/-- The roots of a unit whose root 1 is the key of `imageFile`. -/
def rooted (s : State) : State := s.onSm fun m => { m with roots := [[], sha384 rootPub] }

set_option maxRecDepth 20000 in
theorem witness_boot :
    (let u := State.reset.onClk fun c => { c with por := false }
     u.clk.por = false ∧ u.clk.rcOk = false)
    ∧ ((up.onClk fun c => { c with boot := 2 }).clk.boot = 2 ∧ ([1, 1, 1, 1, 1, 1, 1, 63] : List (BitVec 6)).length = 8)
    ∧ (up.onClk fun c => { c with boot := 3 }).clk.boot = 3
    ∧ (let u := up.onSm fun m => { m with state := 0 }
      u.clk.boot = 5 ∧ u.sm.state = 0 ∧ u.sm.request = false)
    ∧ (hostUp (booting 1) = true ∧ (booting 2).host.fwState = 2 ∧ (booting 2).host.bootSrc = 0)
    ∧ (let u := (booting 2).onHost fun h => { h with bootSrc := 2 }
      u.host.fwState = 2 ∧ u.host.bootSrc = 2)
    ∧ (let u := (booting 3).onMat fun m => { m with mem := memWrite [] stagingAt imageFile }
      u.host.fwState = 3 ∧ imageErr (rooted u) stagingAt = 0 ∧ imageErr u stagingAt = 1)
    ∧ (let u := (booting 4).onMat fun m => { m with ddrState := 1 }
      u.host.fwState = 4 ∧ u.mat.ddrState ≤ 1 ∧ 1 ≤ 5 ∧ 5 ≤ 5 ∧ 1 ≤ 4 ∧ 4 ≤ 4)
    ∧ up.mat.ddrState = 2
    ∧ (let u := (booting 4).onClk fun c => { c with quarters := 3 }
      u.host.fwState = 4 ∧ u.clk.quarters < 4 ∧ 2 ≤ u.mat.ddrState ∧ quarterOf 51 = u.clk.quarters)
    ∧ (let u := (booting 4).onClk fun c => { c with quarters := 4 }
      u.host.fwState = 4 ∧ u.clk.quarters = 4 ∧ u.clk.restart = false) := by and_intros <;> decide +kernel

/-- The media clock in state `n`, with usable time from the network. -/
def timed (n : Nat) : State := { play with
  clk := { play.clk with dpll := some n }
  net := { play.net with ptp := { play.net.ptp with usable := true } } }

theorem witness_clocks :
    (∀ n ∈ [0, 2], (timed n).clk.dpll = some n)
    ∧ (∀ n ∈ [0, 1, 2, 3], (timed n).clk.restart = false) ∧ (realignLost (ptpUsable false (timed 2))).clk.dpll = some 2
    ∧ (let u := (timed 3).onClk fun c => { c with now := 60000000 }
      u.clk.dpll = some 3 ∧ u.clk.holdAt + u.clk.holdAlarm * 1000000 ≤ u.clk.now)
    ∧ ((timed 1).clk.dpll = some 1 ∧ (timed 1).net.ptp.usable = true ∧ (timed 1).wave.counterValid = false ∧
      (timed 1).clk.relock = false ∧ ((timed 1).onWave fun w => { w with counterValid := true }).wave.counterValid = true)
    ∧ ((timed 3).clk.dpll = some 3 ∧ (1000000 : BitVec 32).toInt.natAbs ≤ (timed 3).clk.stepLim * 1000 ∧
      (-1000000 : BitVec 32).toInt.natAbs ≤ (timed 3).clk.stepLim * 1000)
    ∧ (let u := (timed 2).onClk fun c => { c with realDue := true }
      u.clk.realDue = true ∧ u.net.ptp.usable = true ∧ u.clk.dpll.isSome = true)
    ∧ (up.clk.por = false ∧ ∀ k ∈ [0, 3, 4, 5], up.clk.monOk.getLsbD k = true)
    ∧ (let u := up.onClk fun c => { c with monOk := 0x1F, lock := 7 }
      u.clk.rcOk = true ∧ u.clk.monOk.getLsbD 5 = false ∧ u.clk.refOk = true ∧ u.clk.lock.getLsbD 3 = false ∧
        u.clk.power ≠ .retain)
    ∧ (let u := up.onClk fun c => { c with closing := [(15, 1, 0)], now := 10 }
      (takeClosing 15 u).1 ≠ [] ∧ (u.mat.out.any fun q => txGate q.tx 15) = false ∧
        (u.clk.closing.any fun q => q.1 == 15 && decide (q.2.2 + u.clk.gateTo ≤ u.clk.now)) = true)
    ∧ (up.onClk fun c => { c with meas := some (0, 1, 1, 1) }).clk.meas = some (0, 1, 1, 1) := by
  and_intros <;> decide +kernel

set_option maxRecDepth 20000 in
theorem witness_resets :
    (up.clk.por = false ∧ 1000 ≤ 1000 ∧ 849 < 850)
    ∧ (let u := up.onMat fun m => { m with pcie := true }
      u.flt.fatal = false ∧ u.mat.pcie = true)
    ∧ (let u := up.onClk fun c => { c with now := 1000000 }
      u.host.fwState = 5 ∧ u.host.served + 1000000 ≤ u.clk.now)
    ∧ (let u := { booting 4 with
        clk := { (booting 4).clk with restart := true }
        mat := { (booting 4).mat with mem := memWrite [] copyAt imageFile } }
      u.clk.restart = true ∧ u.host.fwState = 4 ∧ imageErr (rooted u) copyAt = 0 ∧ imageErr u copyAt = 1)
    ∧ (∀ k ∈ [0, 1], let u := up.onClk fun c => { c with resetDue := some (k, 0), now := 1000 }
      0 + 1000 ≤ u.clk.now ∧ u.flt.fatal = false ∧ u.clk.resetDue = some (k, 0))
    ∧ (let u := up.onClk fun c => { c with power := .hush, powDue := some (.retain, 0) }
      u.clk.power = .hush ∧ u.clk.powDue = some (.retain, 0) ∧ u.clk.wakeSrc = 0)
    ∧ (up.onClk fun c => { c with power := .waking }).clk.power = .waking := by and_intros <;> decide +kernel

theorem witness_faults :
    ((State.reset.clk.por = true ∨ State.reset.clk.rcOk = false) ∧
      (State.reset.host.fwState ≠ 5 ∨ ptpCfg State.reset 5 = 0))
    ∧ (up.clk.por = false ∧ up.clk.rcOk = true ∧ up.flt.lineQ = [] ∧ up.flt.broken = [] ∧
      readBroken (up.onClk fun c => { c with now := c.now + 1 }) [] = [] ∧ (up.host.fwState ≠ 5 ∨ ptpCfg up 5 = 0))
    ∧ (up.onFlt fun f => { f with fwQ := [{}] }).flt.fwQ = {} :: []
    ∧ (let u := { up with
        clk := { up.clk with now := 1000 }
        flt := { up.flt with merges := [{ at_ := 1, count := 1 }] } }
      ∀ m ∈ u.flt.merges, u.clk.now < m.at_ + 1000)
    ∧ (let m : Merge := { at_ := 0, count := 1 }
      let u := { up with
        clk := { up.clk with now := 1000 }
        flt := { up.flt with merges := [m] } }
      u.flt.merges = [m] ∧ m.at_ + 1000 ≤ u.clk.now ∧ m.count ≠ 0)
    ∧ (let u := up.onFlt fun f => { f with pulse := some 0 }
      u.flt.pulse = some 0 ∧ 0 ≤ u.clk.now)
    ∧ (let j : Inj := { src := 0x0306 }
      let u := up.onFlt fun f => { f with inj := tput none [] 3 (some j) }
      tget none u.flt.inj 3 = some j ∧ j.until_ ≤ u.clk.now ∧ u.flt.inj = [(3, some j)]) := by
  and_intros <;> decide +kernel

set_option maxRecDepth 20000 in
theorem witness_security :
    up.sm.state = 1
    ∧ detects up = true
    ∧ (let u := { up with
        clk := { up.clk with now := 600000000 }
        sm := { up.sm with session := some {} } }
      u.sm.session = some {} ∧ ({} : Sess).lastAt + ({} : Sess).idle * 1000000 ≤ u.clk.now)
    ∧ (let u := { up with
        clk := { up.clk with now := 10000000 }
        sm := { up.sm with opening := some {} } }
      u.sm.opening = some {} ∧ ({} : Opening).time + 10000000 ≤ u.clk.now)
    ∧ (let u := { up with
        clk := { up.clk with now := 60000000 }
        sm := { up.sm with lockAt := some 0 } }
      u.sm.lockAt = some 0 ∧ 0 + 60000000 ≤ u.clk.now)
    ∧ (let s := { up with sm := { up.sm with
        libMb := 1
        verifying := some (2, 1)
        libKeys := tput none [] 3 (some rootPub) } }
      let u (n : Nat) := s.onMat fun m => { m with
        mem := memWrite m.mem (libBase s + 256) (bytes [(4, 131072), (4, 100), (1, 1), (1, 3), (2, 1), (20, 0)] ++ signed n) }
      let v (n : Nat) := (u n).onSm fun m => { m with verifying := none }
      let good := 0x77C5A1E9B68B688847EB8C089C13C9ACF5EB05419512C72F39C509A9036E404EE62E394589A74F8EEEBCA7B6FA21D2E5
      (u good).sm.verifying = some (2, 1) ∧ libRecordOk (v good) 2 = true ∧ libSigned (v good) 2 = true ∧
        libSigned (v (good + 1)) 2 = false) := by
  and_intros <;> decide +kernel

theorem witness_matrix :
    (let tx : BusTx := { master := 1, addr := 0x10000000, size := 4, beats := 16 }
     up.clk.por = false ∧ txOk tx = true ∧ txDevice up tx = false)
    ∧ (let tx : BusTx := { master := 1, addr := 0x22000000, size := 0, beats := 1 }
      txOk tx = true ∧ txDevice up tx = true)
    ∧ (permitted up 1 .priv = true ∧ permitted up 7 .priv = false)
    ∧ (∀ m ∈ [2, 3, 4, 7], canReset m = true) := by and_intros <;> decide +kernel

theorem witness_staging : hostUp (booting 1) = true ∧ (booting 1).host.fwState = 1 := by decide

/-- The command answers a next state. -/
def completes (c : Instr) (s : State) : Bool :=
  match exec c s with
  | .next _ => true
  | _ => false

theorem completes_next (c : Instr) (s : State) (h : completes c s = true) : ∃ t, exec c s = .next t := by
  unfold completes at h
  split at h
  · exact ⟨_, ‹_›⟩
  · cases h

/-- The commands whose frames are stated complete, so that the frames speak of next states. -/
theorem witness_frames : ([
    .xpEntryTimeout 0, .xpTimeoutLog 0, .overlayTransitionTimeout 0, .playerEntryEnd 0,
    .eqPublishH, .eqSettle, .contextTransferComplete 0, .healthSave,
    .vcoreLower, .stageDownstreamFrame 0 false [], .stageFrameMissing 0 false, .stageMuteNoInput 0,
    .stageCurrentLimit 0 0, .streamLoss 0, .pauseHoldoffEnd 0, .twinRunInEnd,
    .seedItemTimeout 0, .twinReady, .joinFailed, .kiosk0EventPost,
    .kiosk0Ack, .logMarkWrite 0, .spiStatus, .networkBootTimeout,
    .fwHeartbeatIncrement, .sramScrub 0 false, .ddrPatrolScrub 0 0, .ddrRetrain,
    .holdoverLong, .crystalDelayEnd true, .fltNfaultWrite 0, .nfaultPulseEnd,
    .sessionAuthTimeout, .sessionLockoutEnd]
    : List Instr).all (completes · up) = true := by decide +kernel

theorem witness_memory_form : MemInv up ∧ memWf (memWrite [] 5 [1, 0, 2]) = true := by
  unfold MemInv
  decide

theorem witness_step : up.pending = [] ∧ ∀ tx, Instr.waveLaunch ≠ .matrixTransaction tx := ⟨rfl, nofun⟩

theorem witness_encoding :
    laneEncode (.rep 3 false 65535 255) = some 0xB3FFFC0FF ∧ laneOperandsOk (.rep 3 false 65535 255) = true := by decide

/-! ### Words of the spec's own examples -/

/-- 04, the worked example of a 64-tap FIR: the words of its program are the instructions printed beside them. -/
theorem test_fir_program_words :
    ([0x620000000, 0x270F00000, 0xA02000010, 0x800000000, 0x700000000, 0xB00100000, 0x500400000, 0x930000001, 0x724000040,
      0x010000000, 0x924000200] : List W36).map (laneDecode 0x4005 false)
    = [some (.ld 0x4005 false .x (.abs 0) 0), some (.cmpi 0x4005 false 15 0), some (.j 0x4005 false 1 0x010),
      some (.clra 0x4005 false 0), some (.st 0x4005 false false (.ptr 0) (.d 0)), some (.rep 0x4005 false 64 0),
      some (.firtap 0x4005 false 0 false false 0 4), some (.aadd 0x4005 false 0 1),
      some (.st 0x4005 false false (.abs 0x40) (.ac 0)), some (.halt 0x4005 false), some (.lda 0x4005 false 1 0 0x200)] := by
  decide

theorem test_fir_start_words :
    ([0x928000040, 0x92C003FFF, 0x920000200, 0x926000100, 0x92A000040, 0x92E000001, 0x922000100, 0x378000001, 0xA00000004,
      0x000000000] : List W36).map (laneDecode 0x4005 false)
    = [some (.lda 0x4005 false 2 0 64), some (.lda 0x4005 false 3 0 0x3FFF), some (.lda 0x4005 false 0 0 0x200),
      some (.lda 0x4005 false 1 4 0x100), some (.lda 0x4005 false 2 4 64), some (.lda 0x4005 false 3 4 1),
      some (.lda 0x4005 false 0 4 0x100), some (.ldi 0x4005 false 15 1), some (.j 0x4005 false 0 4),
      some (.nop 0x4005 false)] := by decide

/-- 04 R150: the PLD that the example of the biquad cascade spells out. -/
theorem test_pld_word :
    laneDecode 0 false 0x480022EAC
      = some (.pld 0 false (some { d := 1, p := 1, post := true }) (some { d := 5, p := 1, post := true })) := by decide

/-- 04 R123, R130 to R148: one word of each format, written out from its table of fields. -/
theorem test_format_words :
    ([0x104C94000, 0x20230000F, 0x380000FFF, 0x430C80000, 0x800000000 ||| (0xA <<< 28) ||| (1 <<< 26) ||| (0x7F <<< 13),
      0x950000000 ||| (3 <<< 19) ||| 1, 0xA20000000 ||| (0xE <<< 25) ||| (7 <<< 21) ||| 5,
      0xB40000000 ||| (2 <<< 26) ||| 9, 0xB80000000, 0x030000007, 0x020000000, 0x640000000 ||| (3 <<< 27) ||| (2 <<< 19)]
      : List W36).map (laneDecode 0 false)
    = [some (.add 0 false 3 2 5), some (.addi 0 false 2 3 15), some (.ldih 0 false 0 0xFFF),
      some (.mac 0 false true 0 3 2 none none), some (.asha 0 false 1 0x7F), some (.mvtc 0 false .lctl 3),
      some (.call 0 false 0xE 7 5), some (.loop 0 false 2 9), some (.lpop 0 false), some (.sosrun 0 false 7),
      some (.rete 0 false), some (.ld 0 false .y (.disp 2 0) 0)] := by decide

/-- 04 R123: a reserved format, operation, operand encoding and field. -/
theorem test_reserved_words :
    ([0xC00000000, 0x14C000000, 0xA1E000000, 0x000000001, 0x500000000, 0x250000080] : List W36).map
      (laneDecode 0 false) = [none, none, none, none, none, none] := by decide

/-! ### Arithmetic of the spec's own examples -/

/-- 01 R29: output to a 24-bit port. -/
theorem test_port_rounding :
    ([0x000000180, 0x000000280, 0xFFFFFFF80, 0x07FFFFFF9, 0x300000000] : List W36).map (portOut 24)
      = [0x000002, 0x000002, 0, 0x7FFFFF, 0x7FFFFF] := by decide

/-- 02 R43: three rows feed a bus. -/
theorem test_bus_sum :
    product 0x000804DD 0x040000000 = 525533 * 2 ^ 30 ∧ product 0x01100000 0xFFFFFFD00 = 768 * 2 ^ 20 ∧
      2 * product 0x00080000 5 = 5 * 2 ^ 20 ∧
      roundEven (product 0x000804DD 0x040000000 + product 0x01100000 0xFFFFFFD00 + product 0x00080000 5) (2 ^ 20)
        = 0x020137702 ∧ portOut 24 0x020137702 = 0x201377 := by decide

/-- 03 R101, R102: the shortening of a live delay line. -/
theorem test_pointer_steps :
    let l (pt : BitVec 13) (ln : BitVec 14) : LaneS := { cur := { main := {
      pt := tput 0 [] 2 pt
      bs := tput 0 [] 2 0x0400
      ln := tput 0 [] 2 ln } } }
    stepPtr (l 0x042C 48) 2 3 8192 = 0x042F ∧ stepPtr (l 0x042F 48) 2 3 8192 = 0x0402 ∧
      stepPtr (l 0x0429 32) 2 3 8192 = 0x040C ∧ stepPtr (l 0x040C 32) 2 (-5) 8192 = 0x0407 ∧
      stepPtr (l 0x1FFF 0) 2 1 8192 = 0 := by decide

/-- 04, the FIR example: the first tap adds 2^62, and the store of the accumulator gives 2^26. -/
theorem test_first_tap : product80 true 0x010000000 0x080000000 = 2 ^ 62 ∧ roundEven (2 ^ 62) (2 ^ 36) = 2 ^ 26 := by decide

/-- 07 R243: a reading of 7.28 ohms of a coil of 5.60 ohms at 25 °C measures 101.3 °C. -/
theorem test_measured_temperature :
    (measTemp { therm := { re0 := 560, t0 := 400, alpha := 3930 } } 728 1).map (fun t => t.1 * 10 / 65536 / t.2) = some 1013 := by
  decide

/-- 15: SHA-384 of "abc" (FIPS 180-4's example) begins CB00753F45A35E8B, and AES-256-GCM of 16 bytes of zeros under a key and an
IV of zeros gives the ciphertext and tag of test case 14 of its submission. -/
theorem test_crypto :
    beNat ((sha384 [0x61, 0x62, 0x63]).take 8) = 0xCB00753F45A35E8B ∧
      beNat (gcmSeal (zeros 32) (zeros 12) [] (zeros 16)) = 0xCEA7403D4D606B6E074EC5D3BAF39D18D0D1C8A799996BF0265B98B5D48AB919 := by
  decide +kernel

/-- The check values of the two CRCs over the digits 1 to 9. -/
theorem test_crc_check_values :
    crc32 [0x31, 0x32, 0x33, 0x34, 0x35, 0x36, 0x37, 0x38, 0x39] = 0xCBF43926 ∧
      crc16 [0x31, 0x32, 0x33, 0x34, 0x35, 0x36, 0x37, 0x38, 0x39] = 0x29B1 := by decide +kernel

/-- 03 R97: the sum of D1 = 2^35 - 1 and D2 = 1 wraps, sets V, and is visible one slot later. -/
theorem test_add_wraps :
    let u := lane { running with slot := 0, cur := { main := { d := tput 0 (tput 0 [] 1 0x7FFFFFFFF) 2 1 } } }
    (match exec (.add 0x4005 false 3 1 2) u with
      | .next t => some (rdD (seenLane t 0x4005) 3, (seenLane t 0x4005).cur.lst.toNat % 16)
      | _ => none) = some (0x800000000, (nzvc true false true false).toNat) := by decide +kernel

/-- 03 R95: an accumulator's high field rounds half to even when it is stored. -/
theorem test_store_rounds :
    let u := lane { running with slot := 0, cur := { main := { ac := tput 0 [] 0 0x00000000003800000000 } } }
    (match exec (.st 0x4005 false false (.abs 9) (.ac 0)) u with
      | .next t => some (laneRd (laneAt t 0x4005) .x 9)
      | _ => none) = some 0 := by decide +kernel

/-- 11 R357: SYS_ECHO answers what it was sent. -/
theorem test_echo :
    (match exec (.sysEcho 1) (ask 1 0x0002 [7, 8, 9] up) with
      | .next t => some ((tget {} t.host.kiosks 1).st, bufBytes (tget {} t.host.kiosks 1).respBuf 19)
      | _ => none) = some (2, [2, 0, 0, 0, 3, 0, 0, 0, 0, 0, 0, 0, 0, 0, 0, 0, 7, 8, 9]) := by decide +kernel

/-- 11 R358: a payload of the wrong length is answered BAD_PARAM, and nothing is set. -/
theorem test_bad_length :
    (match exec (.xpStepTimeout 1) (ask 1 0x0203 [5] up) with
      | .next t => some (t.xp.stTimeout, (bufBytes (tget {} t.host.kiosks 1).respBuf 16).getD 12 0)
      | _ => none) = some (20, 3) := by decide +kernel

/-- 02 R73: the step timeout is set. -/
theorem test_step_timeout :
    (match exec (.xpStepTimeout 1) (ask 1 0x0203 [5, 0, 0, 0] up) with
      | .next t => some t.xp.stTimeout
      | _ => none) = some 5 := by decide +kernel

/-- 12 R382: a transaction of the debug access port ends in the fault that names the device. -/
theorem test_unspecified_device :
    (match exec (.matrixTransaction { master := 1, addr := 0x22000000, size := 2 }) up with
      | .fault (.unspecifiedDevice a) => some a
      | _ => none) = some 0x22000000 := by decide +kernel

/-! ### Well-formed commands -/

theorem test_wf_accepts :
    ([.waveLaunch, .nop 0x4005 false, .nop 0x16FFF true, .tileComplete 79 0 [] [] false, .tileComplete 0x1004B 0 [] [] false,
      .edramScrub { region := 1, bank := 1023, word := 3728269 } false, .readClearRegister 0x200010,
      .matrixTransaction { addr := 0x100, size := 4, beats := 4, wrap := true }] : List Instr).all (·.wf) = true := by decide

theorem test_wf_refuses :
    ([.mediaTick [] [] [] [] [], .mediaTick (List.replicate 8 ⟨false, true, false, false⟩) [(512, 0)] [] [] [],
      .mediaTick (List.replicate 8 ⟨false, true, false, false⟩) [] [] [{ region := 0, bank := 96 }] [],
      .tileComplete 80 0 [] [] false, .tileComplete 0x10080 0 [] [] false, .tileComplete (0x20000 + 12) 0 [] [] false,
      .tileComplete 0 0 [] [5242880] false, .priReadingNoRate [], .nop 0x3FFF false, .nop 0x7000 false, .halt 0x17000 false,
      .sosGroupComplete 0x4005 15001 false, .slackWindowEnd [(416, 0)], .contextTransferComplete 0x2002,
      .shadowRunEnd 0x1028 true, .workReplace 80, .edramRowRepair { region := 0, bank := 0, word := 5242880 } true,
      .edramScrub { region := 1, bank := 1024 } false, .edramScrub { region := 2, bank := 4 } false,
      .stageUpstreamSend 0 false 0 0 [] [0, 0, 0, 0], .stageUpstreamSend 0 false 0 0 [0, 0, 0, 0] [],
      .octotFrameReceive 0 true [] [], .readClearRegister 2, .registerWrite 1 [none, none, none, none],
      .registerWrite 4 [], .matrixTransaction { beats := 17, size := 4 }, .matrixTransaction { addr := 1, size := 1 },
      .matrixTransaction { beats := 2 }, .matrixTransaction { beats := 3, size := 4, wrap := true },
      .matrixTransaction { addr := 16, beats := 2, size := 4, wrap := true }, .ddrTrainingComplete true 6 1,
      .ddrTrainingComplete true 1 5] : List Instr).all (fun c => !c.wf) = true := by decide +kernel

/-! ### The host's two questions -/

theorem test_no_word_is_a_command : decodeTableWord 32 0 = none ∧ up.withFetchWord 32 0 = up := ⟨rfl, rfl⟩

end Sys2Proof.Tests
end

section
/-! Sample waves and the sample counter (01 R19 to R36; 13 R433, R440): the value of the next tick, the reset state, and what each
wave event does. -/

namespace Sys2Proof.Proofs

open Sys2Proof Sys2Proof.Machine Sys2Proof.Laws

variable {s : State}

/-! ### The value of the next tick (01 R35) -/

/-- A step of the counter names the value. -/
theorem nextTick_of_step {v : BitVec 64} (hs : s.wave.step = some v) : nextTick s = v := by
  simp only [nextTick, hs]

/-- A new counter domain names the value when no step does. -/
theorem nextTick_of_firstTick {v : BitVec 64} (hs : s.wave.step = none) (hf : s.wave.firstTick = some v) :
    nextTick s = v := by
  simp only [nextTick, hs, hf]

/-- A value that nothing names follows the last tick, or is 0 where there has been none. -/
theorem nextTick_of_unnamed (hs : s.wave.step = none) (hf : s.wave.firstTick = none) :
    nextTick s = if s.wave.ticked then s.wave.count + 1 else 0 := by
  simp only [nextTick, hs, hf]

/-! ### What the comparison of modules, the gates and the pins leave alone -/

/-- The comparison of a module touches the local ports and the fault collector only. -/
theorem compareMod_lio_flt (m : Nat) (s : State) :
    compareMod m s = { s with lio := (compareMod m s).lio, flt := (compareMod m s).flt } := by
  unfold compareMod
  dsimp only
  split
  · split
    · rfl
    · rw [raise_flt]
      rfl
  · rfl

@[simp] theorem compareMod_wave (m : Nat) (s : State) : (compareMod m s).wave = s.wave := by
  rw [compareMod_lio_flt]

@[simp] theorem compareMod_clk (m : Nat) (s : State) : (compareMod m s).clk = s.clk := by
  rw [compareMod_lio_flt]

@[simp] theorem compareAll_wave (s : State) : (compareAll s).wave = s.wave :=
  List.foldlRecOn (motive := fun t : State => t.wave = s.wave) _ _ rfl
    fun t ht m _ => (compareMod_wave m t).trans ht

@[simp] theorem compareAll_clk (s : State) : (compareAll s).clk = s.clk :=
  List.foldlRecOn (motive := fun t : State => t.clk = s.clk) _ _ rfl
    fun t ht m _ => (compareMod_clk m t).trans ht

@[simp] theorem openGate_dpll (g : Nat) (s : State) : (openGate g s).clk.dpll = s.clk.dpll := rfl

@[simp] theorem drivePin_dpll (g : Nat) (s : State) : (drivePin g s).clk.dpll = s.clk.dpll := rfl

/-! ### Tables after reset -/

@[simp] theorem tget_nil {α : Type} (d : α) (k : Nat) : tget d [] k = d := rfl

theorem baseWord_reset (i : Nat) : baseWord State.reset.xp i = 0 := tget_nil 0 i

theorem tileAt_reset (k : Nat) : tileAt State.reset k = {} := tget_nil ({} : TileS) k

theorem portAt_reset (p : Nat) : portAt State.reset p = {} := tget_nil ({} : PortS) p

theorem kiosk_reset (k : Nat) : tget {} State.reset.host.kiosks k = {} := tget_nil ({} : KioskS) k

/-! ### The wave events -/

/-- A wave that may be launched is (01 R19). -/
theorem exec_waveLaunch (h : mayLaunch (nextTick s) s = true) : exec .waveLaunch s = .next (launch (nextTick s) s) :=
  if_pos h

/-- While ticks come, a tick reads its memories and then advances the counter (01 R21, R35). -/
theorem exec_mediaTick (pins : List PriPin) (tdm : List (Nat × BitVec 32)) (late : List (Fin 64)) (deds : List MemAt)
    (ddr : List (Nat × Nat × BitVec 40)) (ht : ticking s = true) (hi : rateIdle s = false) :
    let u := ddr.foldl ddrLost (deds.foldl (fun u m => doubleBit m u) s)
    exec (.mediaTick pins tdm late deds ddr) s
      = .next (tick (nextTick u) pins tdm (latePlayers late ddr) (lostPlayers deds) u) := by
  have hc : (ticking s && !rateIdle s) = true := by rw [ht, hi]; rfl
  exact if_pos hc

/-- Work in place that has not yet completed the wave in progress, and is not discarded, completes it by its kind
(01 R22, R24). -/
theorem exec_tileComplete_placed {site : Nat} {slack : BitVec 8} {ecc ded : List Nat} {differs : Bool}
    (hl : s.wave.live = true) (hs : site < 0x10000) (hd : s.wave.done.contains site = false)
    (hx : s.wave.dropped.contains site = false) (hp : (workAt s site).placed = true) :
    exec (.tileComplete site slack ecc ded differs) s =
      if workMix site then .next (compareSites site differs (completeSquare site slack ecc ded s))
      else if (laneAt s site).phase = .done then
        .next (compareSites site differs (noteSlack site slack ecc.length (markDone site s)))
      else .next (noteEcc (siteTile s site) ecc.length s) := by
  have h1 : ¬ 0x10000 ≤ site := by omega
  have h2 : ¬ 0x20000 ≤ site := by omega
  show execTileComplete site slack ecc ded differs s = _
  simp only [execTileComplete, hl, hd, hx, hp, h1, h2, Bool.true_eq_false, Bool.false_eq_true, or_self, if_false]

/-- An accepted HUSH that is due begins (13 R433). -/
theorem exec_powerStateEffect_hush {w : BitVec 64} (hd : s.clk.powDue = some (.hush, w))
    (hw : w.toNat ≤ (nextTick s).toNat) : exec .powerStateEffect s = .next (enterHush w s) := by
  show execPowerStateEffect s = _
  simp only [execPowerStateEffect, hd, hw, if_true]

/-- An accepted return to RUN that is due takes effect (13 R433). -/
theorem exec_powerStateEffect_run {w : BitVec 64} (hd : s.clk.powDue = some (.run, w))
    (hw : w.toNat ≤ (nextTick s).toNat) : exec .powerStateEffect s = .next (enterRun w s) := by
  show execPowerStateEffect s = _
  simp only [execPowerStateEffect, hd, hw, if_true]

/-- A DPLL that runs goes on, and one that does not starts. -/
theorem isSome_orStart (o : Option Nat) (v : Nat) : (if o.isSome then o else some v).isSome = true := by
  cases o <;> rfl

/-- The first tick of a rate: the counter's new domain starts, the change is no longer due, and the DPLL runs (13 R440). -/
theorem exec_rateChangeFirstTick {r : Rate} {last first : BitVec 64} (hd : s.clk.rateDue = some (r, last, first))
    (hi : rateIdle s = true) (hp : pllOk s = true) :
    ∃ t, exec .rateChangeFirstTick s = .next t ∧ t.wave.rate = some r ∧ t.wave.ticked = false ∧ t.wave.step = none ∧
      t.wave.firstTick = some first ∧ t.clk.rateDue = none ∧ t.clk.dpll.isSome = true := by
  have hc : (rateIdle s && pllOk s) = true := by rw [hi, hp]; rfl
  show ∃ t, execRateChangeFirstTick s = .next t ∧ _
  unfold execRateChangeFirstTick
  rw [hd]
  refine ⟨_, if_pos hc, ?_⟩
  generalize restartTimers first _ = u
  rw [compareAll_wave, compareAll_clk]
  refine ⟨rfl, rfl, rfl, rfl, rfl, ?_⟩
  rw [drivePin_dpll, openGate_dpll, onClk_clk]
  exact isSome_orStart _ _

end Sys2Proof.Proofs
end

section
/-! O39, O3 and O38, from the rules above. -/

namespace Sys2Proof.Proofs

open Sys2Proof Sys2Proof.Machine Sys2Proof.Laws

/-- Settles O39: a step comes before the first value of a new domain, and that before the count. -/
theorem sampleCounterValue : Obligations.SampleCounterValue := by
  intro s
  refine ⟨fun hs hf ht => ?_, fun hs hf ht => ?_, fun hs v hf => nextTick_of_firstTick hs hf, fun v hs => nextTick_of_step hs⟩
  · rw [nextTick_of_unnamed hs hf, if_pos ht]
  · rw [nextTick_of_unnamed hs hf, ht]
    rfl

/-- Settles O3: the parts of the reset state are their defaults, and an empty table holds its default at every key. -/
theorem resetValues : Obligations.ResetValues := by
  unfold Obligations.ResetValues
  refine ⟨by decide, ⟨rfl, rfl, rfl, rfl, baseWord_reset⟩, by decide,
    ⟨rfl, rfl, rfl, rfl, rfl, rfl, rfl, fun k => ?_⟩, fun p => ?_, by decide, ⟨rfl, rfl, rfl, fun k => ?_⟩, by decide, by decide⟩
  · rw [tileAt_reset]
  · rw [portAt_reset]
    decide
  · exact congrArg (·.st) (kiosk_reset k)

/-- Settles O38: each clause is the rule of its event. -/
theorem wavesAndTicks : Obligations.WavesAndTicks := by
  refine ⟨fun s h => exec_waveLaunch h,
    fun s pins tdm late deds ddr ht hi => exec_mediaTick pins tdm late deds ddr ht hi,
    fun s site slack ecc ded differs hl hs hd hx hp => ⟨fun hm => ?_, fun hm hph => ?_⟩,
    fun s w hw => ⟨fun hd => exec_powerStateEffect_hush hd hw, fun hd => exec_powerStateEffect_run hd hw⟩,
    fun s r last first hd hi hp => ?_⟩
  · rw [exec_tileComplete_placed hl hs hd hx hp, if_pos hm]
  · rw [exec_tileComplete_placed hl hs hd hx hp, hm, if_neg Bool.false_ne_true, if_pos hph]
  · obtain ⟨t, he, hr, ht, hst, hf, hdue, hpll⟩ := exec_rateChangeFirstTick hd hi hp
    exact ⟨t, he, hr, ht, nextTick_of_firstTick hst hf, hdue, hpll⟩

end Sys2Proof.Proofs
end

section
/-! The crosspoint (02 R45 to R47, R52 to R58): what an application, a report, a player and a level change leave alone, and
what each crosspoint event does. -/

namespace Sys2Proof.Proofs

open Sys2Proof Sys2Proof.Machine Sys2Proof.Laws

variable {s : State}

/-! ### Queues and base words (R40, R48) -/

theorem idx_of_queueFind {x : XpS} {i : Nat} {e : QEntry} (h : queueFind x i = some e) : e.idx = i := by
  simpa using List.find?_some h

@[simp] theorem queueFind_queueDrop (i : Nat) (x : XpS) : queueFind (queueDrop i x) i = none := by
  simp [queueFind, queueDrop]

@[simp] theorem baseWord_setBase (i : Nat) (w : BitVec 32) (x : XpS) : baseWord (setBase i w x) i = w :=
  tget_tput_same 0 x.base i w

/-- An entry that applies gives its node its word. -/
@[simp] theorem baseWord_applyEntry (e : QEntry) (s : State) : baseWord (applyEntry e s).xp e.idx = e.word :=
  baseWord_setBase e.idx e.word (queueDrop e.idx s.xp)

/-- An entry that applies leaves its queue. -/
@[simp] theorem queueFind_applyEntry (e : QEntry) (s : State) : queueFind (applyEntry e s).xp e.idx = none :=
  queueFind_queueDrop e.idx s.xp

/-- What a wave that is missed would take back is remembered with how it came to apply. -/
theorem exists_undo_noteUndo (e : QEntry) (direct timed : Bool) (s : State) :
    ∃ u ∈ (noteUndo e direct timed s).xp.undo, u.idx = e.idx ∧ u.timed = timed :=
  ⟨_, List.mem_cons_self, rfl, rfl⟩

/-! ### What reports, players and Lanes leave alone in the crosspoint -/

@[simp] theorem raise_xp (c o : Nat) (d : BitVec 64) (s : State) : (raise c o d s).xp = s.xp := by
  rw [raise_flt]

@[simp] theorem playTick_xp (p : Nat) (late lost : Bool) (s : State) : (playTick p late lost s).xp = s.xp := by
  unfold playTick
  dsimp only
  split
  · split
    · rfl
    · split
      · exact raise_xp _ _ _ _
      · rfl
  · rfl

@[simp] theorem playFirst_xp (s : State) (p : Nat) : (playFirst s p).xp = s.xp := by
  unfold playFirst
  split
  · exact playTick_xp p false false s
  · rfl

/-- Bound players follow a level change outside the crosspoint. -/
@[simp] theorem playLevels_xp (old new : BitVec 16) (s : State) : (playLevels old new s).xp = s.xp := by
  unfold playLevels
  extract_lets a begun
  exact List.foldlRecOn (motive := fun t : State => t.xp = s.xp) _ _ (onPlan_xp s _)
    fun t ht p _ => (playFirst_xp t p).trans ht

/-- PRIORITY events are latched in the Lanes. -/
@[simp] theorem priorityNext_xp (changed : BitVec 16) (s : State) : (priorityNext changed s).xp = s.xp := by
  unfold priorityNext
  split
  · rfl
  · exact List.foldlRecOn (motive := fun t : State => t.xp = s.xp) _ _ rfl fun t ht b _ =>
      List.foldlRecOn (motive := fun u : State => u.xp = s.xp) _ _ ht fun _ hu _ _ => hu

@[simp] theorem priWakeUp_xp (k : Nat) (w : BitVec 64) (s : State) : (priWakeUp k w s).xp = s.xp := by
  unfold priWakeUp
  split
  · split <;> rfl
  · rfl

/-! ### Timeouts of a completed wave (R47)

That a timeout is counted when its Square has completed the wave is the model's reading (log entry 120). -/

@[simp] theorem countTimeout_undo (q : Nat) (s : State) : (countTimeout q s).xp.undo = s.xp.undo := by
  unfold countTimeout
  extract_lets u l due
  split
  · rw [raise_xp]
    rfl
  · rfl

@[simp] theorem countTimeout_timeouts (q : Nat) (s : State) :
    (countTimeout q s).xp.timeouts = satAdd s.xp.timeouts 1 := by
  unfold countTimeout
  extract_lets u l due
  split
  · rw [raise_xp]
    rfl
  · rfl

/-- A Square that has completed a wave with one timeout application of its own counts that one. -/
theorem squareCommit_of_timed {q : Nat} {u : Undo} (hu : s.xp.undo = [u]) (hq : sqOf s u.idx = q) (ht : u.timed = true) :
    squareCommit q s = countTimeout q (s.onXp fun x => { x with undo := [] }) := by
  simp [squareCommit, State.onXp, hu, hq, ht]

/-! ### Scene commits (R52, R53) -/

/-- A commit changes words and entries in both modes, and no wave. -/
@[simp] theorem sceneApply_wave (tag : Nat) (same : Bool) (s : State) : (sceneApply tag same s).wave = s.wave := by
  unfold sceneApply
  extract_lets c mine
  split
  · exact List.foldlRecOn (motive := fun t : State => t.wave = s.wave) _ _ rfl fun _ ht _ _ => ht
  · rfl

/-- In a wave in progress, the value of the sample counter is the number of that wave. -/
theorem sampleNow_of_live (h : s.wave.live = true) : sampleNow s = s.wave.num := if_pos h

theorem commitRun_of_unasked {c : Sched} (h : c.asap = none) :
    commitRun c s = sceneApply c.tag c.same (s.onXp fun x => { x with scheds := x.scheds.erase c }) := by
  simp only [commitRun, h]

/-- A commit for which a Kiosk waits leaves its response: the wave, and how many entries it has committed (R73). -/
theorem commitRun_of_asap {c : Sched} {k : Nat} (h : c.asap = some k) (hk : k < 32) (hl : s.wave.live = true) :
    commitRun c s = (sceneApply c.tag c.same (s.onXp fun x => { x with scheds := x.scheds.erase c })).onXp fun x => { x with
      replies := x.replies ++
        [(k, le 8 s.wave.num.toNat ++ le 4 (s.xp.queue.filter fun e => e.held && e.tag == c.tag).length)] } := by
  simp only [commitRun, h, hk, if_true]
  rw [sampleNow_of_live (by rwa [sceneApply_wave]), sceneApply_wave, onXp_wave]

/-! ### Level changes (R55 to R58) -/

/-- The level commands of `x`: those that wait, and the levels that those before them have set. -/
def levelCommands (x : XpS) : List LvlCmd × BitVec 16 := (x.lvlCmds, x.cmdSet)

/-- The inputs act on their levels without a command. -/
@[simp] theorem levelCommands_priFollow (n : BitVec 64) (x : XpS) : levelCommands (priFollow n x) = levelCommands x := by
  unfold priFollow
  refine List.foldlRecOn (motive := fun y => levelCommands y = levelCommands x) _ _ rfl fun y hy k _ => ?_
  dsimp only
  split
  · split
    · exact hy
    · exact hy
  · exact hy

/-- Transitions start without a command. -/
@[simp] theorem levelCommands_startTrans (w : BitVec 64) (nodes : List Nat) (old new : XpS) :
    levelCommands (startTrans w nodes old new) = levelCommands new := by
  unfold startTrans
  refine List.foldlRecOn (motive := fun y => levelCommands y = levelCommands new) _ _ rfl fun y hy i _ => ?_
  dsimp only
  split
  · exact hy
  · split
    · exact hy
    · exact hy

@[simp] theorem levelCommands_setActive (m : BitVec 16) (s : State) :
    levelCommands (setActive m s).xp = levelCommands s.xp :=
  levelCommands_startTrans _ _ _ _

/-- A level change in wave `n` takes the commands due by `n`, in their order, and leaves the others waiting. -/
theorem levelCommands_levelChange (n : BitVec 64) (s : State) : levelCommands (levelChange n s).xp =
    (s.xp.lvlCmds.filter fun c => !decide (c.wave.toNat ≤ n.toNat),
      (lvlDue n s.xp).foldl (fun m c => (m ||| c.setM) &&& ~~~ c.clrM) s.xp.cmdSet) := by
  unfold levelChange
  extract_lets due old taken held new after
  have htaken : levelCommands taken.xp = levelCommands { s.xp with
      cmdSet := due.foldl (fun m c => (m ||| c.setM) &&& ~~~ c.clrM) s.xp.cmdSet
      lvlCmds := s.xp.lvlCmds.filter fun c => !decide (c.wave.toNat ≤ n.toNat) } := by
    simp only [taken, onXp_xp, levelCommands_priFollow]
  have hafter : after.xp = (setActive new taken).xp := playLevels_xp old new (setActive new taken)
  clear_value taken after
  show levelCommands after.xp = _
  rw [hafter, levelCommands_setActive, htaken]
  rfl

/-! ### The crosspoint events -/

/-- An entry that is due by timeout in an open Square applies, and is remembered as timed (R45, R46). -/
theorem exec_xpEntryTimeout {i : Fin 5242880} {e : QEntry} (hf : queueFind s.xp i.val = some e)
    (ho : squareOpen s (sqOf s i.val) = true) (hd : timeoutDue s e = true) :
    exec (.xpEntryTimeout i) s = .next (applyEntry e (noteUndo e false true s)) := by
  show execXpEntryTimeout i s = _
  simp only [execXpEntryTimeout, hf, ho, hd, and_self, if_true]

/-- Timeouts that wait for a record are logged together 4,096 waves after the last one (R47). -/
theorem exec_xpTimeoutLog {q : Fin 80} {w : BitVec 64} (hl : (tget {} s.xp.toLog q.val).last = some w)
    (hh : 0 < (tget {} s.xp.toLog q.val).held) (hw : w.toNat + 4096 ≤ (sampleNow s).toNat) :
    exec (.xpTimeoutLog q) s = .next (raise 0x0201 q.val (BitVec.ofNat 64 (tget {} s.xp.toLog q.val).held)
      (s.onXp fun x => { x with toLog := tput {} x.toLog q.val { last := some (sampleNow s), held := 0 } })) := by
  show execXpTimeoutLog q s = _
  simp only [execXpTimeoutLog, hl, hh, hw, and_self, if_true]

/-- The first commit that is due runs while every Square can still take part in the wave (R52, R53). -/
theorem exec_sceneCommitRun {c : Sched} (hc : s.xp.scheds.find? (schedDue s) = some c) (hl : s.wave.live = true)
    (hb : squaresBegun s = false) : exec .sceneCommitRun s = .next (commitRun c s) := by
  show execSceneCommitRun s = _
  simp only [execSceneCommitRun, hc, hl, hb, and_self, if_true]

/-- In a wave in progress the level changes due in it act, and their PRIORITY events are latched (R55, R56). -/
theorem exec_overlayLevelChange (hl : s.wave.live = true) : exec .overlayLevelChange s =
    .next (priorityNext (s.xp.active ^^^ (levelChange s.wave.num s).xp.active) (levelChange s.wave.num s)) :=
  if_pos hl

/-- A transition that is due by timeout in an open Square applies (R58). -/
theorem exec_overlayTransitionTimeout {i : Fin 5242880} {r : Trans} (hr : tget none s.xp.trans i.val = some r)
    (ho : squareOpen s (sqOf s i.val) = true) (hd : transTimeoutDue s i.val r = true) :
    exec (.overlayTransitionTimeout i) s = .next (applyTrans i.val (s.onXp fun x => { x with
      undo := { idx := i.val, base := baseWord x i.val, trans := some r } :: x.undo })) := by
  show execOverlayTransitionTimeout i s = _
  simp only [execOverlayTransitionTimeout, hr, ho, hd, and_self, if_true]

/-- While no rate is set, all pairs are read for the first wave that runs (R56). -/
theorem exec_priReadingNoRate (pins : List PriPin) (hr : s.wave.rate = none) : exec (.priReadingNoRate pins) s =
    .next (priReadAll 0 pins (s.onXp fun x => { x with noRate := x.noRate + 1 })) := by
  show execPriReadingNoRate pins s = _
  simp only [execPriReadingNoRate, hr]

/-- A pair that has read invalid for 20 ms becomes broken, and its level follows; a wake-up that this brings is none of the
crosspoint's (R57). -/
theorem exec_priBroken {k : Fin 8} (hb : (tget {} s.xp.pri k.val).broken = false)
    (hi : priLimit s ≤ (tget {} s.xp.pri k.val).invalidFor) :
    ∃ t, exec (.priBroken k) s = .next t ∧ tget {} t.xp.pri k.val = { tget {} s.xp.pri k.val with
      broken := true, follows := some (if s.wave.rate.isNone then 0 else sampleNow s + 1) } := by
  show ∃ t, execPriBroken k s = .next t ∧ _
  unfold execPriBroken
  extract_lets p w marked told
  have hx : (if priActs told.xp k.val then priWakeUp k.val w told else told).xp = marked.xp := by
    split
    · rw [priWakeUp_xp, raise_xp]
    · exact raise_xp _ _ _ _
  refine ⟨_, if_pos ⟨hb, hi⟩, ?_⟩
  rw [hx]
  exact tget_tput_same _ _ _ _

end Sys2Proof.Proofs
end

section
/-! O40, from the rules above. -/

namespace Sys2Proof.Proofs

open Sys2Proof Sys2Proof.Machine Sys2Proof.Laws

/-- Settles O40: each clause is the rule of its event; what the statement says of the queue, the records, the levels and the
inputs is then a read after a write. -/
theorem crosspointEvents : Obligations.CrosspointEvents := by
  refine ⟨fun s i e hf ho hd => ?_, fun s q u hu hq ht => ?_, fun s q w hl hh hw => ?_, fun s c hc hl hb => ?_,
    fun s hl => ?_, fun s i r hr ho hd => ?_, fun s pins hr => exec_priReadingNoRate pins hr, fun s k hb hi _ => ?_⟩
  · refine ⟨_, exec_xpEntryTimeout hf ho hd, baseWord_applyEntry e _, ?_, exists_undo_noteUndo e false true s⟩
    rw [← idx_of_queueFind hf, queueFind_applyEntry]
  · rw [squareCommit_of_timed hu hq ht]
    exact ⟨countTimeout_undo q _, countTimeout_timeouts q _⟩
  · refine ⟨_, exec_xpTimeoutLog hl hh hw, ?_⟩
    rw [raise_xp, onXp_xp, tget_tput_same]
    exact ⟨rfl, rfl, rfl⟩
  · rw [exec_sceneCommitRun hc hl hb]
    exact ⟨fun ha => by rw [commitRun_of_unasked ha], fun k ha hk => by rw [commitRun_of_asap ha hk hl]⟩
  · obtain ⟨hwait, hset⟩ := Prod.mk.inj (levelCommands_levelChange s.wave.num s)
    refine ⟨_, exec_overlayLevelChange hl, ?_⟩
    rw [priorityNext_xp, sampleNow_of_live hl]
    exact ⟨hwait, hset⟩
  · exact ⟨_, exec_overlayTransitionTimeout hr ho hd, tget_tput_same none s.xp.trans i.val none,
      fun j hj => tget_tput_other none s.xp.trans i.val j none hj, rfl⟩
  · obtain ⟨t, he, hp⟩ := exec_priBroken hb hi
    exact ⟨t, he, by rw [hp], by rw [hp]⟩

end Sys2Proof.Proofs
end

section
/-! The Lane datapath (03 R96 to R101): exact values, pointers, and results on their way to their registers. -/

namespace Sys2Proof.Proofs

open Sys2Proof Sys2Proof.Machine Sys2Proof.Laws

/-! ### Exact values in 36 bits (R96) -/

theorem sat36_eq_clamp36 (x : Int) : sat36 x = clamp36 x := by
  rw [sat36, clamp36, satInt, min_comm x]

theorem not_fits36 (x : Int) : (!fits36 x) = out36 x := by
  have h : satInt 36 x = max (-(2 ^ 35)) (min x (2 ^ 35 - 1)) := rfl
  rw [fits36, out36, ← decide_not, h]
  exact decide_eq_decide.mpr (by omega)

/-! ### Pointers (R101) -/

theorem toNat_ofInt_emod {size : Nat} (h : size = 4096 ∨ size = 8192) (z : Int) :
    ((BitVec.ofInt 13 (z % size)).toNat : Int) = z % size := by
  rw [BitVec.toNat_ofInt]
  obtain rfl | rfl := h <;> omega

/-! ### Results in flight (R97) -/

/-- What one write makes of a D register. -/
def wroteD (r : BitVec 4) (bank : Bool) (v : W36) (p : Pend) : W36 :=
  match p.w with
  | .d q w => if q = r ∧ p.shad = bank then w else v
  | _ => v

theorem bankOf_onBank (sh bank : Bool) (f : Bank → Bank) (c : LaneCtx) :
    bankOf (onBank sh f c) bank = if sh = bank then f (bankOf c bank) else bankOf c bank := by
  cases sh <;> cases bank <;> rfl

/-- A change of one bank that leaves its D registers alone leaves those of both banks alone. -/
theorem bankOf_onBank_d (sh bank : Bool) (f : Bank → Bank) (c : LaneCtx) (hf : ∀ b, (f b).d = b.d) :
    (bankOf (onBank sh f c) bank).d = (bankOf c bank).d := by
  rw [bankOf_onBank]
  split
  · exact hf _
  · rfl

/-- A write changes the D register that it names, in the bank of its instruction, and no other (R97, R109). -/
theorem tget_d_applyWr (p : Pend) (l : LaneS) (bank : Bool) (r : BitVec 4) :
    tget 0 (bankOf (applyWr p.shad p.w l).cur bank).d r.toNat = wroteD r bank (tget 0 (bankOf l.cur bank).d r.toNat) p := by
  obtain ⟨vis, sh, w⟩ := p
  cases w with
  | d q v =>
    simp only [applyWr, wroteD, bankOf_onBank]
    by_cases hs : sh = bank
    · simp only [hs, if_true, tget_tput, and_true, BitVec.toNat_inj, eq_comm (a := r)]
    · simp only [hs, if_false, and_false]
  | ac q v => exact congrArg (tget 0 · r.toNat) (bankOf_onBank_d sh bank _ l.cur fun _ => rfl)
  | pt q v | bs q v | ln q v | dt q v =>
    simp only [applyWr, wroteD]
    split
    · exact congrArg (tget 0 · r.toNat) (bankOf_onBank_d sh bank _ l.cur fun _ => rfl)
    · cases bank <;> rfl
  | nothing => rfl
  | flags | sticky | lst | lctl | epc => cases bank <;> rfl

/-- The D registers after the results due by slot `n`. -/
theorem tget_d_settleTo (n : Nat) (l : LaneS) (bank : Bool) (r : BitVec 4) :
    tget 0 (bankOf (settleTo n l).cur bank).d r.toNat =
      (l.pend.filter fun p => decide (p.vis ≤ n)).foldl (wroteD r bank) (tget 0 (bankOf l.cur bank).d r.toNat) :=
  (List.foldl_hom (fun k : LaneS => tget 0 (bankOf k.cur bank).d r.toNat)
    fun k p => (tget_d_applyWr p k bank r).symm).symm

/-- A write depends on the registers before it only. -/
theorem applyWr_cur_congr (sh : Bool) (w : LaneWr) {l k : LaneS} (h : l.cur = k.cur) :
    (applyWr sh w l).cur = (applyWr sh w k).cur := by
  cases w with
  | pt | bs | ln | dt =>
    simp only [applyWr, h]
    split <;> rfl
  | nothing => exact h
  | _ => simp only [applyWr, h]

theorem foldl_applyWr_cur_congr (ps : List Pend) : ∀ {l k : LaneS}, l.cur = k.cur →
    (ps.foldl (fun l p => applyWr p.shad p.w l) l).cur = (ps.foldl (fun l p => applyWr p.shad p.w l) k).cur := by
  induction ps with
  | nil => exact id
  | cons p ps ih => exact fun h => ih (applyWr_cur_congr p.shad p.w h)

/-- What becomes visible depends on the registers and the results in flight only. -/
theorem settleTo_cur_congr (n : Nat) {l k : LaneS} (hc : l.cur = k.cur) (hp : l.pend = k.pend) :
    (settleTo n l).cur = (settleTo n k).cur := by
  rw [settleTo, settleTo, hp]
  exact foldl_applyWr_cur_congr _ hc

/-- What one write makes of the PEND bits (04 R142). -/
def wrotePend (e : BitVec 3) (p : Pend) : BitVec 3 :=
  match p.w with
  | .lctl v => e &&& (v >>> 8).truncate 3
  | _ => e

theorem applyWr_evPend (p : Pend) (l : LaneS) : (applyWr p.shad p.w l).evPend = wrotePend l.evPend p := by
  obtain ⟨vis, sh, w⟩ := p
  cases w with
  | pt | bs | ln | dt =>
    simp only [applyWr, wrotePend]
    split <;> rfl
  | _ => rfl

/-- The PEND bits after the results due by slot `n`. -/
theorem settleTo_evPend (n : Nat) (l : LaneS) :
    (settleTo n l).evPend = (l.pend.filter fun p => decide (p.vis ≤ n)).foldl wrotePend l.evPend :=
  (List.foldl_hom LaneS.evPend fun k p => (applyWr_evPend p k).symm).symm

/-- A write touches the registers and the PEND bits of its Lane only. -/
theorem applyWr_frame (sh : Bool) (w : LaneWr) (l : LaneS) :
    applyWr sh w l = { l with cur := (applyWr sh w l).cur, evPend := (applyWr sh w l).evPend } := by
  cases w with
  | pt | bs | ln | dt =>
    simp only [applyWr]
    split <;> rfl
  | _ => rfl

/-- What becomes visible touches the registers, the PEND bits and the results in flight only. -/
theorem settleTo_frame (n : Nat) (l : LaneS) :
    settleTo n l = { l with
      cur := (settleTo n l).cur
      evPend := (settleTo n l).evPend
      pend := l.pend.filter fun p => !decide (p.vis ≤ n) } := by
  refine List.foldlRecOn (motive := fun k : LaneS => k = { l with
    cur := k.cur
    evPend := k.evPend
    pend := l.pend.filter fun p => !decide (p.vis ≤ n) }) _ _ rfl fun k hk p _ => ?_
  rw [applyWr_frame, hk]

@[simp] theorem settleTo_cmt (n : Nat) (l : LaneS) : (settleTo n l).cmt = l.cmt := by rw [settleTo_frame]

@[simp] theorem settleTo_slot (n : Nat) (l : LaneS) : (settleTo n l).slot = l.slot := by rw [settleTo_frame]

@[simp] theorem settleTo_sosWait (n : Nat) (l : LaneS) : (settleTo n l).sosWait = l.sosWait := by rw [settleTo_frame]

end Sys2Proof.Proofs
end

section
/-! The Lane as an instruction sees it (03 R111 to R118): what the work of the section unit leaves alone. -/

namespace Sys2Proof.Proofs

open Sys2Proof Sys2Proof.Machine Sys2Proof.Laws

/-! ### What the section unit leaves alone (R111 to R118) -/

/-- From `l` to `k` the section unit has been at work: the committed context, the slot and the PEND bits stand, no wait has
begun, and nothing but sticky bits has joined the results in flight. -/
structure UnitWorked (l k : LaneS) : Prop where
  cmt : k.cmt = l.cmt
  slot : k.slot = l.slot
  evPend : k.evPend = l.evPend
  sosWait : l.sosWait = none → k.sosWait = none
  pend : ∃ ps, k.pend = l.pend ++ ps ∧ ∀ p ∈ ps, ∃ b, p.w = .sticky b

theorem UnitWorked.refl (l : LaneS) : UnitWorked l l :=
  ⟨rfl, rfl, rfl, id, [], (List.append_nil _).symm, fun _ h => nomatch h⟩

theorem UnitWorked.trans {l k m : LaneS} (h : UnitWorked l k) (g : UnitWorked k m) : UnitWorked l m := by
  obtain ⟨ps, hps, hs⟩ := h.pend
  obtain ⟨qs, hqs, gs⟩ := g.pend
  refine ⟨g.cmt.trans h.cmt, g.slot.trans h.slot, g.evPend.trans h.evPend, g.sosWait ∘ h.sosWait, ps ++ qs, ?_, ?_⟩
  · rw [hqs, hps, List.append_assoc]
  · exact fun p hp => (List.mem_append.mp hp).elim (hs p) (gs p)

section Unit

variable {l k : LaneS} (h : UnitWorked l k)

include h

theorem UnitWorked.cur (c : LaneCtx) : UnitWorked l { k with cur := c } := ⟨h.cmt, h.slot, h.evPend, h.sosWait, h.pend⟩

theorem UnitWorked.sosRun (r : Option SosRun) : UnitWorked l { k with sosRun := r } :=
  ⟨h.cmt, h.slot, h.evPend, h.sosWait, h.pend⟩

theorem UnitWorked.sosSat (b : Nat) (sat : Bool) : UnitWorked l (sosSat b sat k) := by
  unfold Machine.sosSat
  split
  · refine h.trans ⟨rfl, rfl, rfl, id, _, rfl, fun p hp => ⟨0x800, ?_⟩⟩
    rw [List.mem_singleton.mp hp]
  · exact h

theorem UnitWorked.sosSection (b : Nat) (r : SosRun) : UnitWorked l (sosSection b r k) := by
  unfold Machine.sosSection
  split
  · exact h
  · dsimp only
    split <;> split
    · exact ((((h.cur _).sosSat b _).cur _).sosSat b _).sosRun _
    · exact ((h.cur _).sosSat b _).sosRun _
    · exact (((((h.cur _).sosSat b _).cur _).sosSat b _).cur _).sosRun _
    · exact (((h.cur _).sosSat b _).cur _).sosRun _

theorem UnitWorked.sosEnd (b : Nat) (g : BitVec 3) (t0 : Nat) (rest : List (BitVec 3 × Nat)) :
    UnitWorked l (sosEnd b g t0 rest k) := by
  refine ⟨h.cmt, h.slot, h.evPend, fun hl => ?_, h.pend⟩
  simp only [Machine.sosEnd, h.sosWait hl, reduceCtorEq, if_false]

theorem UnitWorked.sosAdvance (t n : Nat) : UnitWorked l (sosAdvance t n k) := by
  induction n generalizing k with
  | zero => exact h
  | succ n ih =>
    unfold Machine.sosAdvance
    split
    · exact h
    · split
      · split
        · exact ih (h.sosRun _)
        · exact h
      · split
        · exact ih (h.sosEnd _ _ _ _)
        · dsimp only
          split
          · exact ih (h.sosSection _ _)
          · exact h

end Unit

theorem unitWorked_sosAdvance (t n : Nat) (l : LaneS) : UnitWorked l (sosAdvance t n l) := (UnitWorked.refl l).sosAdvance t n

/-- Sticky bits leave the PEND bits alone. -/
theorem foldl_wrotePend_sticky {ps : List Pend} (h : ∀ p ∈ ps, ∃ b, p.w = .sticky b) (e : BitVec 3) :
    ps.foldl wrotePend e = e := by
  refine List.foldlRecOn (motive := (· = e)) _ _ rfl fun k hk p hp => ?_
  obtain ⟨b, hb⟩ := h p hp
  rw [wrotePend, hb, hk]

/-- What the section unit has done changes no PEND bit that becomes visible. -/
theorem UnitWorked.settleTo_evPend {l k : LaneS} (h : UnitWorked l k) (n : Nat) :
    (settleTo n k).evPend = (settleTo n l).evPend := by
  obtain ⟨ps, hps, hs⟩ := h.pend
  rw [Proofs.settleTo_evPend, Proofs.settleTo_evPend, hps, h.evPend, List.filter_append, List.foldl_append]
  exact foldl_wrotePend_sticky (fun p hp => hs p (List.mem_of_mem_filter hp)) _

/-! ### The Lane as an instruction sees it -/

@[simp] theorem seenLane_cmt (s : State) (key : Nat) : (seenLane s key).cmt = (laneAt s key).cmt := by
  rw [seenLane, settleTo_cmt, (unitWorked_sosAdvance _ _ _).cmt]

theorem seenLane_evPend (s : State) (key : Nat) :
    (seenLane s key).evPend = (settleTo (laneAt s key).slot (laneAt s key)).evPend := by
  have h := unitWorked_sosAdvance (laneAt s key).slot ((laneAt s key).slot + 20) (laneAt s key)
  rw [seenLane, h.slot, h.settleTo_evPend]

/-- An instruction issues on a Lane that no SOSWAIT holds (R115). -/
theorem seenLane_sosWait {s : State} {key : Nat} (h : canIssue s key = true) : (seenLane s key).sosWait = none := by
  simp only [canIssue, Bool.and_eq_true, Option.isNone_iff_eq_none] at h
  obtain ⟨⟨⟨-, hw⟩, -⟩, -⟩ := h
  rw [seenLane, settleTo_sosWait, (unitWorked_sosAdvance _ _ _).sosWait hw]

end Sys2Proof.Proofs
end

section
/-! The issue of an instruction (03 R82, R88, R97, R100, R108; 04 R123, R146, R147): its flow, and what it leaves alone. -/

namespace Sys2Proof.Proofs

open Sys2Proof Sys2Proof.Machine Sys2Proof.Laws

/-! ### The flow after an instruction (R97, R100, R108; 04 R146) -/

theorem cacheDrop_frame (l : LaneS) : cacheDrop l = { l with cache := (cacheDrop l).cache } := by
  unfold cacheDrop
  repeat' split
  all_goals rfl

theorem cacheBack_frame (f : BitVec 12) (l : LaneS) : cacheBack f l = { l with cache := (cacheBack f l).cache } := by
  unfold cacheBack
  repeat' split
  all_goals rfl

@[simp] theorem cacheDrop_pc (l : LaneS) : (cacheDrop l).pc = l.pc := by rw [cacheDrop_frame]

@[simp] theorem cacheDrop_delay (l : LaneS) : (cacheDrop l).delay = l.delay := by rw [cacheDrop_frame]

@[simp] theorem cacheDrop_cmt (l : LaneS) : (cacheDrop l).cmt = l.cmt := by rw [cacheDrop_frame]

@[simp] theorem cacheDrop_sosQ (l : LaneS) : (cacheDrop l).sosQ = l.sosQ := by rw [cacheDrop_frame]

@[simp] theorem cacheDrop_sosWait (l : LaneS) : (cacheDrop l).sosWait = l.sosWait := by rw [cacheDrop_frame]

@[simp] theorem cacheBack_cmt (f : BitVec 12) (l : LaneS) : (cacheBack f l).cmt = l.cmt := by rw [cacheBack_frame]

@[simp] theorem cacheBack_sosQ (f : BitVec 12) (l : LaneS) : (cacheBack f l).sosQ = l.sosQ := by rw [cacheBack_frame]

@[simp] theorem cacheBack_sosWait (f : BitVec 12) (l : LaneS) : (cacheBack f l).sosWait = l.sosWait := by
  rw [cacheBack_frame]

/-- The flow touches neither the committed context nor the section unit. -/
theorem advance_frame (o : Issued) : (advance o).cmt = o.lane.cmt ∧ (advance o).sosQ = o.lane.sosQ ∧
    (advance o).sosWait = o.lane.sosWait := by
  unfold advance
  dsimp only
  repeat' split
  all_goals simp [setLoops]

/-- An address at which no loop of the stack ends leaves the stack alone. -/
theorem loopTest_of_not_end {a : BitVec 12} : ∀ {es : List LoopE}, (es.any fun e => e.last == a) = false →
    loopTest a es = (es, none)
  | [], _ => rfl
  | e :: es, h => by
    simp only [List.any_cons, Bool.or_eq_false_iff, beq_eq_false_iff_ne] at h
    rw [loopTest, if_neg h.1]

section Flow

variable {o : Issued}

/-- After the delay slot of a branch that is taken comes its target. -/
theorem advance_taken {t : BitVec 12} (hd : o.lane.delay = .branch (some t)) :
    (advance o).pc = t ∧ (advance o).delay = .none := by
  simp only [advance, hd, and_self]

/-- After the delay slot of a branch that is not taken comes the next address, where no loop ends. -/
theorem advance_not_taken (hd : o.lane.delay = .branch none) (he : atLoopEnd o.lane = false) :
    (advance o).pc = o.lane.pc + 1 ∧ (advance o).delay = .none := by
  have hl : loopTest o.lane.pc (bankOf o.lane.cur o.lane.shadow).loops = (_, none) := loopTest_of_not_end he
  simp only [advance, hd, loopsOf, hl, cacheDrop_pc, cacheDrop_delay, setLoops, and_self]

/-- An instruction that changes no flow, at an address where no loop ends, is followed by the next address. -/
theorem advance_seq (hd : o.lane.delay = .none) (hf : o.flow = .seq) (he : atLoopEnd o.lane = false) :
    (advance o).pc = o.lane.pc + 1 ∧ (advance o).delay = .none := by
  have hl : loopTest o.lane.pc (bankOf o.lane.cur o.lane.shadow).loops = (_, none) := loopTest_of_not_end he
  simp only [advance, hd, hf, loopsOf, hl, cacheDrop_pc, cacheDrop_delay, setLoops, and_self]

/-- After the delay slot of RETE, where no HALT waits, comes the address in EPC, with the main bank selected (R108). -/
theorem advance_rete (hd : o.lane.delay = .rete) (hw : o.lane.haltWait = false) :
    (advance o).pc = (settleTo (o.lane.slot + o.cost) o.lane).cur.epc ∧ (advance o).shadow = false ∧
      (advance o).evSrc = 0 ∧ (advance o).delay = .none := by
  simp only [advance, hd, hw, Bool.false_eq_true, if_false, and_true]
  refine congrArg LaneCtx.epc ?_
  exact settleTo_cur_congr _ rfl rfl

/-- A HALT outside a delay slot ends the program where it stands (R130). -/
theorem advance_halt (hd : o.lane.delay = .none) (hf : o.flow = .halt) :
    (advance o).phase = .halting ∧ (advance o).haltAt = o.lane.pc := by
  simp only [advance, hd, hf, and_self]

/-- A RETE outside a delay slot is followed by its own (R108). -/
theorem advance_starts_rete (hd : o.lane.delay = .none) (hf : o.flow = .rete) :
    (advance o).delay = .rete ∧ (advance o).pc = o.lane.pc + 1 := by
  simp only [advance, hd, hf, and_self]

end Flow

/-! ### What an issue leaves alone (R82, R88, R91) -/

/-- From `s` to `t` nothing has changed but the Lane of `key` and the fault collector, and that Lane's committed context
stands. -/
structure LaneFrame (key : Nat) (s t : State) : Prop where
  state : t = { s with lanes := t.lanes, flt := t.flt }
  others : ∀ i, i ≠ key → laneAt t i = laneAt s i
  cmt : (laneAt t key).cmt = (laneAt s key).cmt

theorem LaneFrame.refl (key : Nat) (s : State) : LaneFrame key s s := ⟨rfl, fun _ _ => rfl, rfl⟩

section Frame

variable {key : Nat} {s t u : State}

theorem LaneFrame.trans (h : LaneFrame key s t) (g : LaneFrame key t u) : LaneFrame key s u := by
  refine ⟨g.state.trans ?_, fun i hi => (g.others i hi).trans (h.others i hi), g.cmt.trans h.cmt⟩
  rw [h.state]

theorem LaneFrame.onLane (h : LaneFrame key s t) {f : LaneS → LaneS} (hf : (f (laneAt t key)).cmt = (laneAt t key).cmt) :
    LaneFrame key s (onLane key f t) := by
  refine h.trans ⟨rfl, fun i hi => laneAt_onLane_other key i f t hi, ?_⟩
  rw [laneAt_onLane, hf]

theorem LaneFrame.raise (h : LaneFrame key s t) (c o : Nat) (d : BitVec 64) : LaneFrame key s (raise c o d t) := by
  refine h.trans ⟨?_, fun i _ => laneAt_raise c o d t i, by rw [laneAt_raise]⟩
  rw [raise_lanes]
  exact raise_flt c o d t

theorem LaneFrame.laneSee (h : LaneFrame key s t) : LaneFrame key s (laneSee key t) := by
  unfold Machine.laneSee
  have hs := h.onLane (f := fun _ => settleTo (laneAt t key).slot (laneAt t key)) (settleTo_cmt _ _)
  dsimp only
  split
  · exact hs.raise _ _ _
  · exact hs

theorem LaneFrame.laneNote (h : LaneFrame key s t) (cause code : Nat) : LaneFrame key s (laneNote key cause code t) := by
  unfold Machine.laneNote
  split
  · exact h.raise _ _ _
  · split
    · exact h
    · exact (h.onLane rfl).raise _ _ _

theorem LaneFrame.laneDed (h : LaneFrame key s t) : LaneFrame key s (laneDed key t) := (h.onLane rfl).raise _ _ _

theorem LaneFrame.laneStop (h : LaneFrame key s t) (code : Nat) : LaneFrame key s (laneStop key code t) :=
  (h.onLane rfl).raise _ _ _

theorem LaneFrame.atIssue (h : LaneFrame key s t) : LaneFrame key s (atIssue key t) :=
  (h.onLane (unitWorked_sosAdvance _ _ _).cmt).laneSee

end Frame

@[simp] theorem laneAt_laneDed (key : Nat) (s : State) :
    laneAt (laneDed key s) key = { laneAt s key with phase := .over, cause := 1 } := by
  simp [laneDed]

@[simp] theorem laneAt_laneStop (key code : Nat) (s : State) : laneAt (laneStop key code s) key =
    { laneAt s key with phase := .over, cause := 2, st := 3, evNext := 0, evWave := 0, evPend := 0 } := by
  simp [laneStop]

/-- A NOTE leaves its mark on its Lane and nothing else. -/
theorem laneAt_laneNote (key cause code : Nat) (s : State) :
    ∃ noted, laneAt (laneNote key cause code s) key = { laneAt s key with noted := noted } := by
  unfold laneNote
  split
  · exact ⟨_, laneAt_raise _ _ _ _ _⟩
  · split
    · exact ⟨_, rfl⟩
    · rw [laneAt_raise, laneAt_onLane]
      exact ⟨_, rfl⟩

/-- The state after the NOTE that an instruction may raise. -/
def withNote (key : Nat) (note : Option (Nat × Nat)) (s : State) : State :=
  match note with
  | some (cause, code) => laneNote key cause code s
  | none => s

theorem LaneFrame.withNote {key : Nat} {s t : State} (h : LaneFrame key s t) (note : Option (Nat × Nat)) :
    LaneFrame key s (withNote key note t) := by
  cases note with
  | none => exact h
  | some n => exact h.laneNote n.1 n.2

theorem laneAt_withNote (key : Nat) (note : Option (Nat × Nat)) (s : State) :
    ∃ noted, laneAt (withNote key note s) key = { laneAt s key with noted := noted } := by
  cases note with
  | none => exact ⟨_, rfl⟩
  | some n => exact laneAt_laneNote key n.1 n.2 s

/-- A report of an instant source of a dual-rail pair stands on its line (14 R443, R446). -/
theorem mem_lineQ_raise {c : Nat} (hc : srcCond c = false) (hl : srcLine c = true) (o : Nat) (d : BitVec 64) (s : State) :
    ∃ r ∈ (raise c o d s).flt.lineQ, r.src = c ∧ r.obj = o := by
  simp only [raise, hc, Bool.false_eq_true, if_false, putRep, hl, if_true, onFlt_flt]
  exact ⟨_, List.mem_append_right _ (List.mem_singleton_self _), rfl, rfl⟩

/-! ### The outcomes of an issue (R82, R88; 04 R123, R147) -/

section Issue

variable {key : Nat} {ded : Bool} {s : State} (body : LaneS → Issued)

/-- A Lane that may not issue stays as it is. -/
theorem issue_of_not_canIssue (h : canIssue s key = false) : issue key ded body s = s := by
  simp only [issue, h, Bool.false_eq_true, if_false]

/-- A double-bit error of the fetch or of a read comes before the instruction. -/
theorem issue_of_ded (h : canIssue s key = true) : issue key true body s = laneDed key s := by
  simp only [issue, h, if_true]

/-- An instruction that issues raises its NOTE; then it stops its block, or its outcome stands with the flow advanced. -/
theorem issue_of_canIssue (h : canIssue s key = true) :
    issue key false body s =
      let o := body (seenLane s key)
      let u := withNote key o.note (atIssue key s)
      if o.flow = .stop then laneStop key 0x0307 u
      else onLane key (fun _ => { advance o with noted := (laneAt u key).noted }) u := by
  have e : laneSee key (onLane key (fun l => sosAdvance l.slot (l.slot + 20) l) s) = atIssue key s := rfl
  unfold issue
  simp only [h, if_true, e, laneAt_atIssue, Bool.false_eq_true, if_false]
  cases (body (seenLane s key)).flow <;> rfl

/-- A Lane whose instruction neither notes nor stops holds what the instruction leaves, with the flow advanced. -/
theorem laneAt_issue_plain (h : canIssue s key = true) (hn : (body (seenLane s key)).note = none)
    (hf : (body (seenLane s key)).flow ≠ .stop) :
    laneAt (issue key false body s) key = { advance (body (seenLane s key)) with noted := (seenLane s key).noted } := by
  rw [issue_plain key body s h hn hf, laneAt_onLane]

/-- An issue changes its own Lane and the fault collector only, when its instruction keeps the committed context. -/
theorem laneFrame_issue (hb : (body (seenLane s key)).lane.cmt = (seenLane s key).cmt) :
    LaneFrame key s (issue key ded body s) := by
  have hr := LaneFrame.refl key s
  cases h : canIssue s key with
  | false => rwa [issue_of_not_canIssue body h]
  | true =>
    cases ded with
    | true =>
      rw [issue_of_ded body h]
      exact hr.laneDed
    | false =>
      rw [issue_of_canIssue body h]
      have hu := hr.atIssue.withNote (body (seenLane s key)).note
      dsimp only
      split
      · exact hu.laneStop _
      · refine hu.onLane ?_
        rw [(advance_frame _).1, hb, seenLane_cmt, hu.cmt]

end Issue

end Sys2Proof.Proofs
end

section
/-! What the lane instructions store (03 R82; 04 R138, R139). -/

namespace Sys2Proof.Proofs

open Sys2Proof Sys2Proof.Machine Sys2Proof.Laws

/-- The words that a lane instruction stores to: the one at a store's address, and the one that the move of a filter tap
writes. -/
def storesAt (c : Instr) (l : LaneS) (m : LaneMem) (a : Nat) : Prop :=
  match c with
  | .st _ _ toY mode _ =>
    m = (if toY then .y else .x) ∧ a % 8192 = modeAddr l (if toY then .y else .x) mode % 8192
  | .firtap _ _ _ _ move ix _ => move = true ∧ m = .x ∧ a % 8192 = tapMoveAddr l ix % 8192
  | .firtapn _ _ _ _ move ix _ => move = true ∧ m = .x ∧ a % 8192 = tapMoveAddr l ix % 8192
  | _ => False

/-- From `l` to `k` the committed context stands, and so does every word of the memories outside `w`. -/
structure KeptBut (w : LaneMem → Nat → Prop) (l k : LaneS) : Prop where
  cmt : k.cmt = l.cmt
  mem : ∀ m a, ¬ w m a → laneRd k m a = laneRd l m a

section Kept

variable {w : LaneMem → Nat → Prop} {l k : LaneS}

theorem KeptBut.refl (w : LaneMem → Nat → Prop) (l : LaneS) : KeptBut w l l := ⟨rfl, fun _ _ _ => rfl⟩

/-- The memories stand where the context but for its loop stacks does. -/
theorem laneRd_congr (h : regsOf k.cur = regsOf l.cur) (m : LaneMem) (a : Nat) : laneRd k m a = laneRd l m a := by
  obtain ⟨hx, hy, hp⟩ : k.cur.x = l.cur.x ∧ k.cur.y = l.cur.y ∧ k.cur.p = l.cur.p :=
    ⟨congrArg (·.x) h, congrArg (·.y) h, congrArg (·.p) h⟩
  cases m <;> simp only [laneRd, hx, hy, hp]

theorem KeptBut.of_regsOf {q : LaneS} (h : KeptBut w l k) (hc : q.cmt = k.cmt) (hr : regsOf q.cur = regsOf k.cur) :
    KeptBut w l q :=
  ⟨hc.trans h.cmt, fun m a ha => (laneRd_congr hr m a).trans (h.mem m a ha)⟩

theorem KeptBut.push (h : KeptBut w l k) (n : Nat) (x : LaneWr) : KeptBut w l (push n x k) := h.of_regsOf rfl rfl

theorem KeptBut.pushIf (h : KeptBut w l k) (c : Prop) [Decidable c] (n : Nat) (x : LaneWr) :
    KeptBut w l (if c then Machine.push n x k else k) := by
  split
  · exact h.push n x
  · exact h

theorem KeptBut.pushRes (h : KeptBut w l k) (n : Nat) (d : Option (BitVec 4)) (r : AluRes) :
    KeptBut w l (pushRes n d r k) := by
  cases d with
  | none => exact (h.push _ _).pushIf _ _ _
  | some d => exact ((h.push _ _).push _ _).pushIf _ _ _

theorem KeptBut.pushAc (h : KeptBut w l k) (a : BitVec 2) (v : BitVec 80) (past : Bool) :
    KeptBut w l (pushAc a v past k) := (h.push _ _).pushIf _ _ _

theorem KeptBut.pushMac (h : KeptBut w l k) (a : BitVec 2) (x : Int) : KeptBut w l (pushMac a x k) :=
  (h.pushAc a _ _).of_regsOf rfl rfl

theorem KeptBut.parLoads (h : KeptBut w l k) (x y : Option ParLoad) : KeptBut w l (parLoads x y k) := by
  have hx : ∀ q k, KeptBut w l k → KeptBut w l (parX q k) := fun q k h => (h.push _ _).pushIf _ _ _
  have hy : ∀ q k, KeptBut w l k → KeptBut w l (parY q k) := fun q k h => (h.push _ _).pushIf _ _ _
  cases x <;> cases y
  · exact h
  · exact hy _ _ h
  · exact hx _ _ h
  · exact hy _ _ (hx _ _ h)

theorem KeptBut.modeStep (h : KeptBut w l k) (m : LaneMem) (mode : AddrMode) : KeptBut w l (modeStep m mode k) := by
  cases mode with
  | inc | dec | incOne | decOne => exact h.push _ _
  | ptr | disp | abs => exact h

/-- A store changes the word at its address only (R92). -/
theorem KeptBut.laneWrX (h : KeptBut w l k) (a : Nat) (v : W36) (hw : ∀ b, b % 8192 = a % 8192 → w .x b) :
    KeptBut w l (laneWrX a v k) := by
  unfold Machine.laneWrX
  split
  · exact h
  · refine ⟨h.cmt, fun m b hb => Eq.trans ?_ (h.mem m b hb)⟩
    cases m with
    | x => exact tget_tput_other _ _ _ _ _ fun e => hb (hw b e)
    | y | p => rfl

theorem KeptBut.laneWrY (h : KeptBut w l k) (a : Nat) (v : W36) (hw : ∀ b, b % 8192 = a % 8192 → w .y b) :
    KeptBut w l (laneWrY a v k) := by
  refine ⟨h.cmt, fun m b hb => Eq.trans ?_ (h.mem m b hb)⟩
  cases m with
  | y => exact tget_tput_other _ _ _ _ _ fun e => hb (hw b e)
  | x | p => rfl

theorem KeptBut.laneStore (h : KeptBut w l k) (toY : Bool) (a : Nat) (v : W36)
    (hw : ∀ b, b % 8192 = a % 8192 → w (if toY then .y else .x) b) : KeptBut w l (laneStore toY a v k) := by
  cases toY with
  | true => exact h.laneWrY a v hw
  | false => exact h.laneWrX a v hw

theorem KeptBut.setLoops (h : KeptBut w l k) (es : List LoopE) : KeptBut w l (setLoops es k) :=
  h.of_regsOf rfl (regsOf_setLoops es k)

theorem KeptBut.advance {o : Issued} (h : KeptBut w l o.lane) : KeptBut w l (advance o) :=
  h.of_regsOf (advance_frame o).1 (advance_spec o).2.2

/-- A flow instruction, where it is one, keeps what its body keeps. -/
theorem KeptBut.flowInstr {body : LaneS → Issued} (h : KeptBut w l (body l).lane) :
    KeptBut w l (flowInstr body l).lane := by
  unfold Machine.flowInstr
  split
  · exact .refl w l
  · split
    · exact .refl w l
    · exact h

theorem KeptBut.condInstr {body : LaneS → Issued} (h : KeptBut w l (body l).lane) (cond : BitVec 4) :
    KeptBut w l (condInstr cond body l).lane := by
  unfold Machine.condInstr
  split
  · exact .refl w l
  · exact h.flowInstr

/-- The start of a loop changes the loop stack and the repeat cache only (04 R145). -/
theorem KeptBut.loopStart (h : KeptBut w l k) (count : BitVec 16) (last : BitVec 12) (rep : Bool) :
    KeptBut w l (loopStart count last rep k).lane := by
  unfold Machine.loopStart
  split
  · exact h
  · split
    · exact h
    · cases rep with
      | true => exact (h.setLoops _).of_regsOf rfl rfl
      | false => exact h.setLoops _

theorem keptBut_alu1 (d a : BitVec 4) (f : W36 → AluRes) : KeptBut w l (alu1 d a f l).lane :=
  (KeptBut.refl w l).pushRes 1 (some d) (f (rdD l a))

theorem keptBut_alu2 (n : Nat) (d a b : BitVec 4) (f : W36 → W36 → AluRes) : KeptBut w l (alu2 n d a b f l).lane :=
  (KeptBut.refl w l).pushRes n (some d) (f (rdD l a) (rdD l b))

theorem keptBut_mul (frac : Bool) (ac : BitVec 2) (dx dy : BitVec 4) (x y : Option ParLoad) (f : Int → Int → Int) :
    KeptBut w l (mul frac ac dx dy x y f l).lane :=
  ((KeptBut.refl w l).pushMac _ _).parLoads _ _

theorem keptBut_acRes (a : BitVec 2) (x : Int) : KeptBut w l (acRes a x l).lane :=
  (KeptBut.refl w l).pushAc _ _ _

/-- A filter tap stores by its move only (04 R138). -/
theorem keptBut_tap (neg : Bool) (ac : BitVec 2) (fromP move : Bool) (ix ic : BitVec 3)
    (hw : move = true → ∀ b, b % 8192 = tapMoveAddr l ix % 8192 → w .x b) :
    KeptBut w l (tap neg ac fromP move ix ic l).lane := by
  have h : ∀ x a b, KeptBut w l (Machine.push 1 b (Machine.push 1 a (Machine.pushMac ac x l))) :=
    fun x a b => (((KeptBut.refl w l).pushMac ac x).push 1 a).push 1 b
  cases move with
  | true => exact (h _ _ _).laneWrX _ _ (hw rfl)
  | false => exact h _ _ _

end Kept

/-- The memories after an instruction that issues are those that it leaves, whatever its NOTE and its flow. -/
theorem laneRd_issue {key : Nat} {s : State} (body : LaneS → Issued) {w : LaneMem → Nat → Prop} {m : LaneMem}
    {a : Nat} (h : canIssue s key = true) (hb : KeptBut w (seenLane s key) (body (seenLane s key)).lane) (ha : ¬ w m a) :
    laneRd (laneAt (issue key false body s) key) m a = laneRd (seenLane s key) m a := by
  obtain ⟨noted, hu⟩ := laneAt_withNote key (body (seenLane s key)).note (atIssue key s)
  rw [laneAt_atIssue] at hu
  rw [issue_of_canIssue body h]
  dsimp only
  split
  · rw [laneAt_laneStop, hu]
    exact laneRd_congr rfl m a
  · rw [laneAt_onLane]
    exact (hb.advance.of_regsOf rfl rfl).mem m a ha

/-- Every command that issues on a Lane issues one instruction, whose stores are those of `storesAt`; a word that is no
reserved one does nothing as ILLEGAL_OP. -/
theorem exec_of_issuesOn {c : Instr} {key : Nat} {ded : Bool} (h : issuesOn c = some (key, ded)) (s : State) :
    (∃ word, c = .illegalOp key ded word ∧ laneDecode key ded word ≠ none ∧ exec c s = .next s) ∨
      ∃ body, exec c s = .next (issue key ded body s) ∧ ∀ l, KeptBut (storesAt c l) l (body l).lane := by
  cases c with
  | nop => cases h; exact .inr ⟨_, rfl, fun l => .refl _ l⟩
  | halt =>
    cases h
    refine .inr ⟨_, rfl, fun l => .flowInstr ?_⟩
    split <;> exact .refl _ l
  | rete =>
    cases h
    refine .inr ⟨_, rfl, fun l => .flowInstr ?_⟩
    split <;> exact .refl _ l
  | sosrun =>
    cases h
    refine .inr ⟨_, rfl, fun l => ?_⟩
    split
    · split
      · exact .refl _ l
      · exact (KeptBut.refl _ l).of_regsOf rfl rfl
    · exact .refl _ l
  | soswait =>
    cases h
    refine .inr ⟨_, rfl, fun l => ?_⟩
    split
    · exact (KeptBut.refl _ l).of_regsOf rfl rfl
    · exact .refl _ l
  | mov | neg | negs | abs | not | addi | addsi | andi | ori | xori | ashi | lshi =>
    cases h
    exact .inr ⟨_, rfl, fun l => keptBut_alu1 _ _ _⟩
  | add | adds | sub | subs | and | or | xor | ash | lsh | min | max | mulf | muli =>
    cases h
    exact .inr ⟨_, rfl, fun l => keptBut_alu2 _ _ _ _ _⟩
  | cmp | cmpi =>
    cases h
    exact .inr ⟨_, rfl, fun l => (KeptBut.refl _ l).pushRes 1 none (aluSub _ _)⟩
  | ldi | ldih | mvta | mvfa | lda | aadd | amod | mvtc | mvfc | clra | moval | movag | ldah | ldal | cpya | tsta =>
    cases h
    exact .inr ⟨_, rfl, fun l => (KeptBut.refl _ l).push _ _⟩
  | movah =>
    cases h
    exact .inr ⟨_, rfl, fun l => ((KeptBut.refl _ l).push _ _).pushIf _ _ _⟩
  | mpy | mac | msu | mpyn =>
    cases h
    exact .inr ⟨_, rfl, fun l => keptBut_mul _ _ _ _ _ _ _⟩
  | pld =>
    cases h
    exact .inr ⟨_, rfl, fun l => (KeptBut.refl _ l).parLoads _ _⟩
  | firtap | firtapn =>
    cases h
    refine .inr ⟨_, rfl, fun l => ?_⟩
    split
    · exact .refl _ l
    · exact keptBut_tap _ _ _ _ _ _ fun hm b hb => ⟨hm, rfl, hb⟩
  | ld =>
    cases h
    exact .inr ⟨_, rfl, fun l => ((KeptBut.refl _ l).push _ _).modeStep _ _⟩
  | st =>
    cases h
    exact .inr ⟨_, rfl, fun l => (((KeptBut.refl _ l).modeStep _ _).pushIf _ _ _).laneStore _ _ _ fun b hb => ⟨rfl, hb⟩⟩
  | adda | suba | nega | asha =>
    cases h
    exact .inr ⟨_, rfl, fun l => keptBut_acRes _ _⟩
  | j | jr =>
    cases h
    exact .inr ⟨_, rfl, fun l => .condInstr (.refl _ l) _⟩
  | call =>
    cases h
    refine .inr ⟨_, rfl, fun l => .condInstr ?_ _⟩
    split
    · exact (KeptBut.refl _ l).push _ _
    · exact .refl _ l
  | rep | loop =>
    cases h
    refine .inr ⟨_, rfl, fun l => .flowInstr ?_⟩
    split
    · exact .refl _ l
    · exact (KeptBut.refl _ l).loopStart _ _ _
  | lpop =>
    cases h
    refine .inr ⟨_, rfl, fun l => .flowInstr ?_⟩
    split
    · exact .refl _ l
    · refine ((KeptBut.refl _ l).setLoops _).of_regsOf (cacheDrop_cmt _) ?_
      rw [cacheDrop_cur]
  | illegalOp lane ded word =>
    cases h
    by_cases hd : laneDecode key ded word = none
    · refine .inr ⟨fun l => noteNop l 10 0x0302, ?_, fun l => .refl _ l⟩
      show execIllegalOp _ _ _ _ = _
      simp only [execIllegalOp, hd, Option.isSome_none, Bool.false_eq_true, if_false]
    · refine .inl ⟨word, rfl, hd, ?_⟩
      show execIllegalOp _ _ _ _ = _
      simp only [execIllegalOp, Option.isSome_iff_ne_none.mpr hd, if_true]
  | _ => cases h

end Sys2Proof.Proofs
end

section
/-! The section unit of a Lane (03 R111 to R118; 05 R166): a group that begins runs its chains in order. -/

namespace Sys2Proof.Proofs

open Sys2Proof Sys2Proof.Machine Sys2Proof.Laws

/-- The Lane `l` in the course of a group that completes in slot `b`: the registers `c`, `n` outputs saturated so far, and the
unit at `r`. -/
def inGroup (l : LaneS) (b : Nat) (c : LaneCtx) (n : Nat) (r : SosRun) : LaneS :=
  { l with
    cur := c
    pend := l.pend ++ List.replicate n { vis := b + 1, shad := false, w := .sticky 0x800 }
    sosRun := some r }

/-- The registers and the outputs of a chain's sections so far, with its output word written (R113, R116). -/
def chainOut (fade : Option (Nat × Nat)) (c : Chain) (q : LaneCtx × W36 × W36 × Nat) : LaneCtx :=
  let y := match fade with
    | some (n, f) => crossfade (n + 1) f q.2.1 q.2.2.1
    | none => q.2.1
  { q.1 with x := tput 0 q.1.x (0x80 + c.out) y }

theorem chainRun_eq (fade : Option (Nat × Nat)) (c : Chain) (ctx : LaneCtx) (n : Nat) :
    chainRun fade c (ctx, n) =
      let x := tget 0 ctx.x (0x80 + c.inp)
      let q := (List.range' c.first c.count).foldl (chainSection fade.isSome) (ctx, x, x, n)
      (chainOut fade c q, q.2.2.2) := by
  rw [List.range'_eq_map_range]
  rfl

section Group

variable (l : LaneS) (b : Nat)

/-- An output that saturates is counted (R96). -/
theorem sosSat_inGroup {k : LaneS} {c : LaneCtx} {n : Nat} {r : SosRun} (h : k = inGroup l b c n r) (sat : Bool)
    (c' : LaneCtx) : sosSat b sat { k with cur := c' } = inGroup l b c' (n + if sat then 1 else 0) r := by
  subst h
  cases sat with
  | false => rfl
  | true => simp only [sosSat, inGroup, if_true, List.append_assoc, List.replicate_add, List.replicate_one]

/-- One section of a chain (R113): its outputs enter the next one, or, after the last one, the chain's output word is
written and the next chain loaded (R116). -/
theorem sosSection_inGroup {ctx : LaneCtx} {n : Nat} {r : SosRun} {c : Chain} {cs : List Chain} (r' : SosRun)
    (hr : r.chains = c :: cs) :
    let q := chainSection l.fade.isSome (ctx, r.x, r.x2, n) (c.first + r.k)
    sosSection b r (inGroup l b ctx n r') = inGroup l b (if r.k + 1 < c.count then q.1 else chainOut l.fade c q) q.2.2.2
      (if r.k + 1 < c.count then { r with k := r.k + 1, n := r.n + 1, x := q.2.1, x2 := q.2.2.1 }
      else sosLoad { l with cur := chainOut l.fade c q } (r.n + 1) cs) := by
  intro q
  unfold sosSection
  rw [hr]
  dsimp only
  rw [sosSat_inGroup l b rfl]
  by_cases hf : l.fade.isSome = true
  · have hk : ∀ c n r, (inGroup l b c n r).fade.isSome = true := fun _ _ _ => hf
    simp only [hk, if_true]
    rw [sosSat_inGroup l b rfl]
    simp only [q, chainSection, hf, Bool.true_and, if_true]
    split <;> rfl
  · rw [Bool.not_eq_true] at hf
    have hk : ∀ c n r, (inGroup l b c n r).fade.isSome = false := fun _ _ _ => hf
    simp only [hk, q, chainSection, hf, Bool.false_eq_true, Bool.false_and, if_false, Nat.add_zero]
    split <;> rfl

/-- While a chain is left, the unit's next part is a section. -/
theorem sosSections_succ {ctx : LaneCtx} {n : Nat} {r : SosRun} {c : Chain} {cs : List Chain} (hr : r.chains = c :: cs)
    (N : Nat) : sosSections b (N + 1) (inGroup l b ctx n r) = sosSections b N (sosSection b r (inGroup l b ctx n r)) := by
  show (if r.chains.isEmpty then _ else _) = _
  rw [hr]
  rfl

/-- Without a chain left, nothing runs. -/
theorem sosSections_done {ctx : LaneCtx} {n : Nat} {r : SosRun} (hr : r.chains = []) :
    ∀ N, sosSections b N (inGroup l b ctx n r) = inGroup l b ctx n r
  | 0 => rfl
  | N + 1 => by
    show (if r.chains.isEmpty then _ else _) = _
    rw [hr]
    rfl

/-- The sections that are left of a chain run in order; after them its output word is written and the next chain loaded
(R113, R116). -/
theorem sosSections_chain {c : Chain} {cs : List Chain} (N j : Nat) : ∀ (ctx : LaneCtx) (n : Nat) (r : SosRun),
    r.chains = c :: cs → r.k + (j + 1) = c.count →
    let q := (List.range' (c.first + r.k) (j + 1)).foldl (chainSection l.fade.isSome) (ctx, r.x, r.x2, n)
    ∃ m, sosSections b (N + (j + 1)) (inGroup l b ctx n r) = sosSections b N (inGroup l b (chainOut l.fade c q) q.2.2.2
      (sosLoad { l with cur := chainOut l.fade c q } m cs)) := by
  induction j with
  | zero =>
    intro ctx n r hr hk
    refine ⟨r.n + 1, ?_⟩
    rw [sosSections_succ l b hr, sosSection_inGroup l b r hr]
    simp only [show ¬ r.k + 1 < c.count by omega, if_false]
    rfl
  | succ j ih =>
    intro ctx n r hr hk
    let q := chainSection l.fade.isSome (ctx, r.x, r.x2, n) (c.first + r.k)
    have hnext := ih q.1 q.2.2.2 { r with k := r.k + 1, n := r.n + 1, x := q.2.1, x2 := q.2.2.1 } hr
      (by rw [← hk]; exact Nat.add_right_comm r.k 1 (j + 1))
    rw [← Nat.add_assoc, sosSections_succ l b hr, sosSection_inGroup l b r hr]
    simp only [show r.k + 1 < c.count by omega, if_true]
    exact hnext

/-- The chains of a group run in order, each from its input word to its output word (R116). -/
theorem sosSections_group : ∀ (cs : List Chain), (∀ c ∈ cs, c.count ≠ 0) → ∀ (N m : Nat) (ctx : LaneCtx) (n : Nat),
    let u := cs.foldl (fun q c => chainRun l.fade c q) (ctx, n)
    ∃ r, sosSections b (N + (cs.map (·.count)).sum) (inGroup l b ctx n (sosLoad { l with cur := ctx } m cs)) =
      inGroup l b u.1 u.2 r
  | [], _, N, m, ctx, n => ⟨_, sosSections_done l b rfl N⟩
  | c :: cs, h, N, m, ctx, n => by
    obtain ⟨j, hj⟩ := Nat.exists_eq_add_one_of_ne_zero (h c (List.mem_cons_self ..))
    obtain ⟨m', hc⟩ := sosSections_chain l b (cs := cs) (N + (cs.map (·.count)).sum) j ctx n
      (sosLoad { l with cur := ctx } m (c :: cs)) rfl (by rw [hj]; exact Nat.zero_add _)
    have hsum : N + ((c :: cs).map (·.count)).sum = N + (cs.map (·.count)).sum + (j + 1) := by
      rw [List.map_cons, List.sum_cons, hj]
      omega
    rw [List.foldl_cons, chainRun_eq, hsum, hc, hj]
    exact sosSections_group cs (fun d hd => h d (List.mem_cons_of_mem c hd)) N _ _ _

/-- A group that has not begun runs its chains in order and leaves the queue (R113, R115, R116). -/
theorem sosFinish_unbegun {g : BitVec 3} (t0 : Nat) (rest : List (BitVec 3 × Nat)) (hr : l.sosRun = none)
    (hc : ∀ c ∈ groupChains l g, c.count ≠ 0) :
    let u := (groupChains l g).foldl (fun q c => chainRun l.fade c q) (l.cur, 0)
    ∃ r, sosFinish b g t0 rest l = sosEnd b g t0 rest (inGroup l b u.1 u.2 r) := by
  obtain ⟨r, h⟩ := sosSections_group l b (groupChains l g) hc (38 * ((groupChains l g).map (·.count)).sum + 1) 0 l.cur 0
  refine ⟨r, ?_⟩
  have hn : groupSlots l g + 1 =
      38 * ((groupChains l g).map (·.count)).sum + 1 + ((groupChains l g).map (·.count)).sum := by
    rw [groupSlots]
    omega
  have hl : ({ l with sosRun := some (sosLoad l 0 (groupChains l g)) } : LaneS)
      = inGroup l b l.cur 0 (sosLoad { l with cur := l.cur } 0 (groupChains l g)) := by
    simp only [inGroup, List.replicate_zero, List.append_nil]
  rw [← h, ← hn, ← hl]
  simp only [sosFinish, hr]
  rfl

end Group

end Sys2Proof.Proofs
end

section
/-! The lane events and instructions (03 R86, R100, R106, R107, R115 to R120): when each acts, and what it leaves. -/

namespace Sys2Proof.Proofs

open Sys2Proof Sys2Proof.Machine Sys2Proof.Laws

/-- A flow instruction outside a delay slot and the end of a loop is what its body says (R100; 04 R144, R148). -/
theorem flowInstr_of_free {l : LaneS} (hd : l.delay = .none) (he : atLoopEnd l = false) (body : LaneS → Issued) :
    flowInstr body l = body l := by
  simp only [flowInstr, hd, he, ne_eq, not_true_eq_false, Bool.false_eq_true, if_false]

/-- The Lane after an instruction whose outcome on it is `o`. -/
theorem exec_of_outcome {c : Instr} {s : State} {key : Nat} {body : LaneS → Issued} {o : Issued}
    (he : exec c s = .next (issue key false body s)) (h : canIssue s key = true) (ho : body (seenLane s key) = o)
    (hn : o.note = none) (hf : o.flow ≠ .stop) :
    ∃ t, exec c s = .next t ∧ laneAt t key = { advance o with noted := (seenLane s key).noted } := by
  subst ho
  exact ⟨_, he, laneAt_issue_plain body h hn hf⟩

/-- The pending event of highest priority, with its PEND bit, source code and vector (R86, R103). -/
theorem topEvent_eq : ∀ p : BitVec 3, (topEvent p).isSome = true →
    let src : BitVec 2 := if p.getLsbD 2 then 1 else if p.getLsbD 1 then 2 else 3
    topEvent p = some (if src = 1 then 4 else if src = 2 then 2 else 1, src, BitVec.ofNat 12 (4 * src.toNat)) := by
  decide

/-- An event that must be taken is taken, by the Lane as an instruction would see it (R106, R107, R110). -/
theorem exec_laneEventTake {s : State} {key : Nat} {bit : BitVec 3} {src : BitVec 2} {vec : BitVec 12}
    (hlive : s.wave.live = true) (hslot : (laneAt s key).slot < laneBudget s) (hmust : mustTake (laneAt s key) = true)
    (htop : topEvent (seenLane s key).evPend = some (bit, src, vec)) :
    let l := seenLane s key
    exec (.laneEventTake key) s = .next (onLane key (fun _ => { l with
      cur := { l.cur with epc := if l.phase = .halting then l.haltAt else l.pc }
      evPend := l.evPend &&& ~~~ bit
      evSrc := src
      shadow := true
      phase := .run
      pc := vec
      slot := l.slot + 1
      cache := none
      cacheSave := l.cache.map fun c => (c.1, c.2.1, 0) }) (atIssue key s)) := by
  have e : laneSee key (onLane key (fun l => sosAdvance l.slot (l.slot + 20) l) s) = atIssue key s := rfl
  show execLaneEventTake key s = _
  rw [execLaneEventTake, if_pos ⟨hlive, hslot, hmust⟩]
  simp only [e, laneAt_atIssue, htop]

/-- A lane instruction keeps every word of the memories of its Lane but those it stores to (R82, R138, R139). The statement
of O27 adds to this the ILLEGAL_OP of a word that is no reserved one, with which nothing issues. -/
theorem laneRd_exec_of_issuesOn {c : Instr} {s t : State} {key : Nat} {ded : Bool} {m : LaneMem} {a : Nat}
    (hc : issuesOn c = some (key, ded)) (ht : exec c s = .next t)
    (hword : ∀ word, c = .illegalOp key ded word → laneDecode key ded word = none)
    (ha : ¬ storesAt c (seenLane s key) m a) :
    laneRd (laneAt t key) m a =
      laneRd (if canIssue s key = true ∧ ded = false then seenLane s key else laneAt s key) m a := by
  obtain ⟨word, rfl, hw, -⟩ | ⟨body, he, hb⟩ := exec_of_issuesOn hc s
  · exact absurd (hword word rfl) hw
  cases he.symm.trans ht
  cases h : canIssue s key with
  | false =>
    rw [issue_of_not_canIssue body h]
    simp only [Bool.false_eq_true, false_and, if_false]
  | true =>
    cases ded with
    | true =>
      rw [issue_of_ded body h, laneAt_laneDed]
      exact laneRd_congr rfl m a
    | false => exact laneRd_issue body h (hb _) ha

/-- At the budget only a HALT with nothing left to wait for is in time (R118, R120). -/
theorem overBudget_of_budget_le {s : State} {l : LaneS} (h : laneBudget s ≤ l.slot) : overBudget s l = !haltReady s l := by
  simp only [overBudget, h, decide_true, Bool.true_or, Bool.and_true]

/-- A Lane that is not over its budget is left as it is. -/
theorem exec_budgetOverrun_in_time {s : State} {key : Nat} (h : overBudget s (laneAt s key) = false) :
    exec (.budgetOverrun key) s = .next s := by
  show execBudgetOverrun key s = _
  simp only [execBudgetOverrun, h, Bool.false_eq_true, and_false, if_false]

/-- A Lane that is over its budget stops its block (R120). -/
theorem exec_budgetOverrun_over {s : State} {key : Nat} (hlive : s.wave.live = true)
    (hphase : (laneAt s key).phase = .run ∨ (laneAt s key).phase = .halting) (h : overBudget s (laneAt s key) = true) :
    exec (.budgetOverrun key) s = .next (laneStop key 0x0306 s) :=
  if_pos ⟨hlive, hphase, h⟩

/-- A group at the front of the queue completes (R113, R115, R116): its slot is the Lane's, or the one of the completion that
the Lane has waited for. -/
theorem exec_sosGroupComplete {s : State} {key t0 : Nat} (slot : Nat) {g : BitVec 3} {rest : List (BitVec 3 × Nat)}
    (hlive : s.wave.live = true) (hphase : (laneAt s key).phase = .run ∨ (laneAt s key).phase = .halting)
    (hq : (laneAt s key).sosQ = (g, t0) :: rest) :
    let l := laneAt s key
    let b := sosSlot l g t0 slot
    exec (.sosGroupComplete key slot false) s = .next (onLane key (fun _ => { sosFinish b g t0 rest l with
      slot := if (l.sosWait == some g || l.phase == .halting) = true then b else l.slot }) s) := by
  show execSosGroupComplete key slot false s = _
  simp only [execSosGroupComplete, hq, hlive, hphase, and_self, if_true, Bool.false_eq_true, if_false]

/-- The slot of a completion lies between the Lane's and the accounted bound (R118). -/
theorem sosSlot_bounds (l : LaneS) (g : BitVec 3) (t0 slot : Nat) :
    l.slot ≤ sosSlot l g t0 slot ∧
      sosSlot l g t0 slot ≤ max l.slot (max (max (t0 + 1) l.sosFree) (groupBound l g t0)) := by
  unfold sosSlot
  split <;> omega

end Sys2Proof.Proofs
end

section
/-! O17, O18, O20, O23, O25 to O28 and O30 to O32, from the rules above. -/

namespace Sys2Proof.Proofs

open Sys2Proof Sys2Proof.Machine Sys2Proof.Laws

/-- Settles O17: the D registers after the results that are due. -/
theorem laneResultsBecomeVisible : Obligations.LaneResultsBecomeVisible :=
  fun l n bank r => tget_d_settleTo n l bank r

/-- Settles O18: the rule's pointer lies below the memory's size, so that 13 bits hold it. -/
theorem lanePostStep : Obligations.LanePostStep := by
  intro l k m size hs
  dsimp only [stepPtr]
  split
  · exact toNat_ofInt_emod hs _
  · exact toNat_ofInt_emod hs _

/-- Settles O20: a NOP changes no flow, so that only the delay slot and the loops say what follows. -/
theorem laneDelaySlot : Obligations.LaneDelaySlot := by
  intro s key target h
  obtain ⟨t, he, hl⟩ := exec_of_outcome (c := .nop key false) rfl h rfl rfl nofun
  obtain ⟨hpend, hslot, -⟩ := advance_spec { lane := seenLane s key }
  refine ⟨fun hd => ?_, fun hd hend => ?_, fun hd hend => ?_, fun hd hw => ?_⟩
  all_goals refine ⟨t, he, ?_⟩; rw [hl]
  · exact advance_taken hd
  · exact advance_not_taken hd hend
  · obtain ⟨hpc, hdelay⟩ := advance_seq (o := { lane := seenLane s key }) hd rfl hend
    exact ⟨hpc, hdelay, hslot, hpend⟩
  · exact advance_rete hd hw

/-- Settles O23: each instruction by its own outcome and the flow after it. -/
theorem laneHaltReteAndSectionUnit : Obligations.LaneHaltReteAndSectionUnit := by
  intro s key g h
  refine ⟨fun hd hend hsh hq => ?_, fun hd hend hev => ?_, fun hen hq => ?_, fun hq => ?_, fun hq => ?_⟩
  · obtain ⟨t, he, hl⟩ := exec_of_outcome (c := .halt key false) (o := { lane := seenLane s key, flow := .halt }) rfl h
      (by rw [flowInstr_of_free hd hend, hsh, hq]; rfl) rfl nofun
    refine ⟨t, he, ?_⟩
    rw [hl]
    exact advance_halt hd rfl
  · obtain ⟨t, he, hl⟩ := exec_of_outcome (c := .rete key false) (o := { lane := seenLane s key, flow := .rete }) rfl h
      (by rw [flowInstr_of_free hd hend, if_neg hev]) rfl nofun
    refine ⟨t, he, ?_⟩
    rw [hl]
    exact advance_starts_rete hd rfl
  · have hnot : ((seenLane s key).sosQ.any fun q => q.1 == g) = false := by simpa using hq
    obtain ⟨t, he, hl⟩ := exec_of_outcome (c := .sosrun key false g)
      (o := { lane := { seenLane s key with sosQ := (seenLane s key).sosQ ++ [(g, (seenLane s key).slot)] } }) rfl h
      (by rw [sosEn, if_pos hen, hnot, if_neg Bool.false_ne_true]) rfl nofun
    refine ⟨t, he, ?_⟩
    rw [hl]
    exact (advance_frame _).2.1
  · have hany : ((seenLane s key).sosQ.any fun q => q.1 == g) = true := by simpa using hq
    obtain ⟨t, he, hl⟩ := exec_of_outcome (c := .soswait key false g)
      (o := { lane := { seenLane s key with sosWait := some g } }) rfl h (by rw [if_pos hany]) rfl nofun
    have hw : (laneAt t key).sosWait = some g := by
      rw [hl]
      exact (advance_frame _).2.2
    refine ⟨t, he, hw, ?_⟩
    simp only [canIssue, hw, Option.isNone_some, Bool.and_false, Bool.false_and]
  · have hnot : ((seenLane s key).sosQ.any fun q => q.1 == g) = false := by simpa using hq
    obtain ⟨t, he, hl⟩ := exec_of_outcome (c := .soswait key false g) (o := { lane := seenLane s key }) rfl h
      (by rw [hnot, if_neg Bool.false_ne_true]) rfl nofun
    refine ⟨t, he, ?_⟩
    rw [hl]
    exact (advance_frame _).2.2.trans (seenLane_sosWait h)

/-- Settles O25: every lane instruction issues with a body that keeps the committed context. -/
theorem laneInstructionsChangeTheirLaneOnly : Obligations.LaneInstructionsChangeTheirLaneOnly := by
  intro c s t key ded hc ht
  have hf : LaneFrame key s t := by
    obtain ⟨_, -, -, he⟩ | ⟨body, he, hb⟩ := exec_of_issuesOn hc s
    · cases he.symm.trans ht
      exact .refl key _
    · cases he.symm.trans ht
      exact laneFrame_issue body (hb _).cmt
  exact ⟨hf.state, hf.others, hf.cmt⟩

/-- Settles O26: the double-bit error comes before the instruction. -/
theorem laneDoubleBitError : Obligations.LaneDoubleBitError := by
  intro c s key hc h hword
  obtain ⟨word, rfl, hw, -⟩ | ⟨body, he, -⟩ := exec_of_issuesOn hc s
  · exact absurd (hword word rfl) hw
  · rw [issue_of_ded body h] at he
    refine ⟨_, he, ?_, ?_, mem_lineQ_raise (by decide) (by decide) _ _ _⟩ <;> rw [laneAt_laneDed]

/-- A Lane in slot 39 whose section unit completes in that slot the one section of group 0, which passes its input on. -/
def sectionDue : LaneS :=
  { phase := .run
    slot := 39
    sosQ := [(0, 0)]
    cur := { x := [(0x80, 1)], sec := [(0, { b0 := 0x200000000 })], chain := [(0, some { out := 1, count := 1 })] } }

/-- A state with a live wave in which Lane 0 stands so. -/
def sectionDueState : State :=
  { State.reset with wave := { State.reset.wave with live := true }, lanes := [(0, sectionDue)] }

/-- An instruction would issue there; its SOS window holds a 0, and would hold a 1 as the instruction sees it. -/
theorem sectionDueState_reads : canIssue sectionDueState 0 = true ∧ laneRd (laneAt sectionDueState 0) .x 0x81 = 0 ∧
    laneRd (seenLane sectionDueState 0) .x 0x81 = 1 := by decide

/-- Refutes O27: ILLEGAL_OP with the word of a NOP, which is no reserved one, does nothing, so that the Lane keeps the 0 of its
SOS window where the section unit, had an instruction been issued, would have left a 1 by the slot. -/
theorem not_laneMemoryFrame : ¬ Obligations.LaneMemoryFrame := by
  intro h
  have he : exec (.illegalOp 0 false 0) sectionDueState = .next sectionDueState := rfl
  have hx := h _ _ _ 0 false .x 0x81 rfl he nofun fun _ _ _ _ e => nomatch e
  obtain ⟨hcan, hkept, hseen⟩ := sectionDueState_reads
  rw [if_pos ⟨hcan, rfl⟩, hkept, hseen] at hx
  exact absurd hx (by decide)

/-- Settles O28: the vectors and PEND bits are those of `topEvent`, whose event the section unit's work does not change. -/
theorem laneTakesEvent : Obligations.LaneTakesEvent := by
  intro s key hlive hslot hmust l src
  have hev : (topEvent l.evPend).isSome = true := by
    simp only [mustTake, Bool.and_eq_true] at hmust
    rw [seenLane_evPend]
    exact hmust.2
  refine ⟨_, exec_laneEventTake hlive hslot hmust (topEvent_eq _ hev), ?_⟩
  rw [laneAt_onLane]
  exact ⟨rfl, rfl, rfl, rfl, rfl, rfl, rfl⟩

/-- Settles O30: at the budget the Lane is over it unless its HALT is ready. -/
theorem laneBudgetOverrun : Obligations.LaneBudgetOverrun := by
  intro s key hlive hphase hslot l halted
  have hlast : l.slot ≤ laneBudget s ↔ l.slot = laneBudget s := ⟨fun h => h.antisymm hslot, le_of_eq⟩
  have hready : haltReady s l = true ↔ halted := by
    simp only [haltReady, Bool.and_eq_true, beq_iff_eq, List.isEmpty_iff, decide_eq_true_eq, and_assoc, halted, hlast]
  have hover : overBudget s l = !haltReady s l := overBudget_of_budget_le hslot
  refine ⟨fun h => exec_budgetOverrun_in_time ?_, fun h => ?_⟩
  · rw [hover, hready.mpr h]
    rfl
  · have hf := (LaneFrame.refl key s).laneStop 0x0306
    rw [← hready, Bool.not_eq_true] at h
    rw [h] at hover
    refine ⟨_, exec_budgetOverrun_over hlive hphase hover, ?_, ?_, hf.cmt,
      mem_lineQ_raise (by decide) (by decide) _ _ _, hf.state, hf.others⟩ <;> rw [laneAt_laneStop]

/-- Settles O31: the rule of a group that has not begun, with the slot of its completion. -/
theorem laneSectionGroupCompletes : Obligations.LaneSectionGroupCompletes := by
  intro s key slot t0 g rest hlive l hphase hq hr hc u
  obtain ⟨r, hfin⟩ := sosFinish_unbegun l (sosSlot l g t0 slot) t0 rest hr hc
  obtain ⟨hlow, hhigh⟩ := sosSlot_bounds l g t0 slot
  have hself := laneAt_onLane key (fun _ => { sosFinish (sosSlot l g t0 slot) g t0 rest l with
      slot := if (l.sosWait == some g || l.phase == .halting) = true then sosSlot l g t0 slot else l.slot }) s
  refine ⟨_, exec_sosGroupComplete slot hlive hphase hq, ?_⟩
  rw [hself, hfin]
  refine ⟨rfl, rfl, ?_, rfl, ?_, ?_, rfl, fun i hi => laneAt_onLane_other key i _ s hi⟩
  · exact (List.length_append ..).trans (congrArg _ (List.length_replicate ..))
  · show l.slot ≤ ite _ _ _
    split
    · exact hlow
    · exact le_rfl
  · show ite _ _ _ ≤ _
    split
    · exact hhigh
    · exact le_max_left _ _

/-- Settles O32: a section computes the recurrence of R113. -/
theorem sectionRecurrence : Obligations.SectionRecurrence := by
  intro k x
  simp only [sectionStep, sat36_eq_clamp36, not_fits36]

end Sys2Proof.Proofs
end

section
/-! The words of lane instructions (04 R122 to R148): every field of an encoded word reads back. -/

namespace Sys2Proof.Proofs

open Sys2Proof Sys2Proof.Machine Sys2Proof.Laws

/-! ### Fields (04 R122 to R127) -/

/-- A field of a number that fits a word. -/
theorem wf_mk {n : Nat} (hi lo : Nat) (h : n < 2 ^ 36) : wf (mk n) hi lo = n / 2 ^ lo % 2 ^ (hi + 1 - lo) := by
  rw [wf, mk, bitsOf, BitVec.toNat_ofNat, Nat.mod_eq_of_lt h]

theorem b2n_lt (b : Bool) : b2n b < 2 := by
  cases b <;> decide

theorem b2n_false : b2n false = 0 := rfl

@[simp] theorem b2n_beq_one (b : Bool) : (b2n b == 1) = b := by
  cases b <;> rfl

/-! Of a word made of fields, the fields read back, and the bits that no field takes are 0. -/

section Formats

variable {op : Nat} (d a b : BitVec 4)

theorem wf_encA (h : op < 64) :
    let w := encA op d a b
    wf w 35 32 = 1 ∧ wf w 31 26 = op ∧ wf w 25 22 = d.toNat ∧ wf w 21 18 = a.toNat ∧ wf w 17 14 = b.toNat ∧
      wf w 13 0 = 0 := by
  dsimp only [encA]
  repeat rw [wf_mk _ _ (by omega)]
  omega

theorem wf_encI (h : op < 16) {imm : Nat} (hi : imm < 2 ^ 20) :
    let w := encI op d a imm
    wf w 35 32 = 2 ∧ wf w 31 28 = op ∧ wf w 27 24 = d.toNat ∧ wf w 23 20 = a.toNat ∧ wf w 19 0 = imm ∧
      wf w 19 7 = imm / 2 ^ 7 ∧ wf w 6 0 = imm % 2 ^ 7 := by
  dsimp only [encI]
  repeat rw [wf_mk _ _ (by omega)]
  omega

theorem wf_encLdi (v : BitVec 24) :
    let w := mk (3 * 2 ^ 32 + d.toNat * 2 ^ 27 + v.toNat)
    wf w 35 32 = 3 ∧ wf w 31 31 = 0 ∧ wf w 30 27 = d.toNat ∧ wf w 26 24 = 0 ∧ wf w 23 0 = v.toNat := by
  dsimp only
  repeat rw [wf_mk _ _ (by omega)]
  omega

theorem wf_encLdih (v : BitVec 12) :
    let w := mk (3 * 2 ^ 32 + 2 ^ 31 + d.toNat * 2 ^ 27 + v.toNat)
    wf w 35 32 = 3 ∧ wf w 31 31 = 1 ∧ wf w 30 27 = d.toNat ∧ wf w 26 24 = 0 ∧ wf w 23 12 = 0 ∧
      wf w 11 0 = v.toNat := by
  dsimp only
  repeat rw [wf_mk _ _ (by omega)]
  omega

theorem wf_encC (h : op < 16) (x y : BitVec 2) (k : BitVec 7) :
    let w := encC op x y d k
    wf w 35 32 = 8 ∧ wf w 31 28 = op ∧ wf w 27 26 = x.toNat ∧ wf w 25 24 = y.toNat ∧ wf w 23 20 = d.toNat ∧
      wf w 19 13 = k.toNat ∧ wf w 12 0 = 0 := by
  dsimp only [encC]
  repeat rw [wf_mk _ _ (by omega)]
  omega

theorem wf_encG (h : op < 16) (kind : BitVec 2) (reg : BitVec 3) {imm : Nat} (hi : imm < 2 ^ 14) :
    let w := encG op kind reg d imm
    wf w 35 32 = 9 ∧ wf w 31 28 = op ∧ wf w 27 26 = kind.toNat ∧ wf w 25 23 = reg.toNat ∧ wf w 22 19 = d.toNat ∧
      wf w 18 14 = 0 ∧ wf w 13 0 = imm := by
  dsimp only [encG]
  repeat rw [wf_mk _ _ (by omega)]
  omega

theorem wf_encB (h : op < 8) (t : BitVec 12) :
    let w := encB op a d t
    wf w 35 32 = 10 ∧ wf w 31 29 = op ∧ wf w 28 25 = a.toNat ∧ wf w 24 21 = d.toNat ∧ wf w 20 12 = 0 ∧
      wf w 11 0 = t.toNat := by
  dsimp only [encB]
  repeat rw [wf_mk _ _ (by omega)]
  omega

theorem wf_encE (h : op < 16) (g : BitVec 3) :
    let w := encE op g
    wf w 35 32 = 0 ∧ wf w 31 28 = op ∧ wf w 27 3 = 0 ∧ wf w 2 0 = g.toNat := by
  dsimp only [encE]
  repeat rw [wf_mk _ _ (by omega)]
  omega

theorem wf_encF (h : op < 4) (ac : BitVec 2) (p mv : Bool) (ix ic : BitVec 3) :
    let w := encF op ac p mv ix ic
    wf w 35 32 = 5 ∧ wf w 31 30 = op ∧ wf w 29 28 = ac.toNat ∧ wf w 27 27 = b2n p ∧ wf w 26 26 = b2n mv ∧
      wf w 25 23 = ix.toNat ∧ wf w 22 20 = ic.toNat ∧ wf w 19 0 = 0 := by
  have hp := b2n_lt p
  have hm := b2n_lt mv
  dsimp only [encF]
  repeat rw [wf_mk _ _ (by omega)]
  omega

theorem wf_encRep (count : BitVec 16) (len : BitVec 8) :
    let w := mk (11 * 2 ^ 32 + count.toNat * 2 ^ 14 + len.toNat)
    wf w 35 32 = 11 ∧ wf w 31 30 = 0 ∧ wf w 29 14 = count.toNat ∧ wf w 13 8 = 0 ∧ wf w 7 0 = len.toNat := by
  dsimp only
  repeat rw [wf_mk _ _ (by omega)]
  omega

theorem wf_encLoop (last : BitVec 12) :
    let w := mk (11 * 2 ^ 32 + 2 ^ 30 + d.toNat * 2 ^ 26 + last.toNat)
    wf w 35 32 = 11 ∧ wf w 31 30 = 1 ∧ wf w 29 26 = d.toNat ∧ wf w 25 12 = 0 ∧ wf w 11 0 = last.toNat := by
  dsimp only
  repeat rw [wf_mk _ _ (by omega)]
  omega

end Formats

/-! ### Parallel loads (04 R137) -/

/-- The eight bits of a parallel load in format M. -/
def loadBits : Option ParLoad → Nat
  | some q => 2 ^ 7 + q.d.toNat * 2 ^ 3 + q.p.toNat * 2 + b2n q.post
  | none => 0

theorem loadBits_lt (x : Option ParLoad) : loadBits x < 2 ^ 8 := by
  rcases x with - | q
  · decide
  · have := b2n_lt q.post
    simp only [loadBits]
    omega

theorem encPar_eq (x y : Option ParLoad) : encPar x y = loadBits x * 2 ^ 10 + loadBits y * 2 ^ 2 := by
  rcases x with - | p <;> rcases y with - | q <;> simp only [encPar, loadBits] <;> omega

/-- The parallel load that eight bits stand for. -/
def readLoad (v : Nat) : Option ParLoad :=
  if v / 2 ^ 7 = 1 then
    some { d := BitVec.ofNat 4 (v / 2 ^ 3 % 2 ^ 4), p := BitVec.ofNat 2 (v / 2 % 2 ^ 2), post := v % 2 == 1 }
  else none

@[simp] theorem readLoad_loadBits (x : Option ParLoad) : readLoad (loadBits x) = x := by
  rcases x with - | q
  · rfl
  · obtain ⟨hv, hd, hp, hpost⟩ : loadBits (some q) / 2 ^ 7 = 1 ∧ loadBits (some q) / 2 ^ 3 % 2 ^ 4 = q.d.toNat ∧
        loadBits (some q) / 2 % 2 ^ 2 = q.p.toNat ∧ loadBits (some q) % 2 = b2n q.post := by
      have := b2n_lt q.post
      simp only [loadBits]
      omega
    simp only [readLoad, hv, hd, hp, hpost, if_true, BitVec.ofNat_toNat, BitVec.setWidth_eq, b2n_beq_one]

theorem decX_eq (w : W36) : decX w = readLoad (wf w 17 10) := by
  obtain ⟨hv, hd, hp, hpost⟩ : wf w 17 17 = wf w 17 10 / 2 ^ 7 ∧ wf w 16 13 = wf w 17 10 / 2 ^ 3 % 2 ^ 4 ∧
      wf w 12 11 = wf w 17 10 / 2 % 2 ^ 2 ∧ wf w 10 10 = wf w 17 10 % 2 := by
    simp only [wf, bitsOf]
    omega
  rw [decX, hv, hd, hp, hpost, readLoad]

theorem decY_eq (w : W36) : decY w = readLoad (wf w 9 2) := by
  obtain ⟨hv, hd, hp, hpost⟩ : wf w 9 9 = wf w 9 2 / 2 ^ 7 ∧ wf w 8 5 = wf w 9 2 / 2 ^ 3 % 2 ^ 4 ∧
      wf w 4 3 = wf w 9 2 / 2 % 2 ^ 2 ∧ wf w 2 2 = wf w 9 2 % 2 := by
    simp only [wf, bitsOf]
    omega
  rw [decY, hv, hd, hp, hpost, readLoad]

theorem wf_encM {op : Nat} (h : op < 8) (f : Bool) (ac : BitVec 2) (dx dy : BitVec 4) (x y : Option ParLoad) :
    let w := encM op f ac dx dy x y
    wf w 35 32 = 4 ∧ wf w 31 29 = op ∧ wf w 28 28 = b2n f ∧ wf w 27 26 = ac.toNat ∧ wf w 25 22 = dx.toNat ∧
      wf w 21 18 = dy.toNat ∧ wf w 28 18 = b2n f * 2 ^ 10 + ac.toNat * 2 ^ 8 + dx.toNat * 2 ^ 4 + dy.toNat ∧
      wf w 17 10 = loadBits x ∧ wf w 9 2 = loadBits y ∧ wf w 1 0 = 0 := by
  have hf := b2n_lt f
  have hx := loadBits_lt x
  have hy := loadBits_lt y
  dsimp only [encM]
  rw [encPar_eq]
  repeat rw [wf_mk _ _ (by omega)]
  omega

/-! ### Address modes, memories and sources (04 R126, R139) -/

theorem memCode_lt (m : LaneMem) : memCode m < 4 := by
  cases m <;> decide

/-- The fields of an address mode: its code, its pointer, its displacement and its absolute address. -/
structure ModeFields where
  code : Nat
  ptr : BitVec 3 := 0
  disp : BitVec 6 := 0
  abs : BitVec 13 := 0

/-- The fields of each mode (R126). -/
def modeFields : AddrMode → ModeFields
  | .ptr k => { code := 0, ptr := k }
  | .inc k => { code := 1, ptr := k }
  | .dec k => { code := 2, ptr := k }
  | .disp k d => { code := 3, ptr := k, disp := d }
  | .abs a => { code := 4, abs := a }
  | .incOne k => { code := 5, ptr := k }
  | .decOne k => { code := 6, ptr := k }

theorem encMode_eq (mode : AddrMode) : encMode mode =
    (modeFields mode).code * 2 ^ 27 + (modeFields mode).ptr.toNat * 2 ^ 19 + (modeFields mode).disp.toNat * 2 ^ 13
      + (modeFields mode).abs.toNat := by
  cases mode <;> simp only [encMode, modeFields, BitVec.ofNat_eq_ofNat, BitVec.toNat_ofNat] <;> omega

theorem modeFields_code_lt (mode : AddrMode) : (modeFields mode).code < 7 := by
  cases mode <;> simp only [modeFields] <;> omega

/-- A word of format L or S, whose destination or source has the five bits `r`. -/
def modeWord (fmt op r : Nat) (mode : AddrMode) : W36 := mk (fmt * 2 ^ 32 + op * 2 ^ 30 + r * 2 ^ 22 + encMode mode)

section ModeWord

variable {fmt op r : Nat} (hf : fmt < 16) (ho : op < 4) (hr : r < 2 ^ 5) (mode : AddrMode)

include hf ho hr

theorem wf_modeWord :
    let w := modeWord fmt op r mode
    let q := modeFields mode
    wf w 35 32 = fmt ∧ wf w 31 30 = op ∧ wf w 26 26 = r / 2 ^ 4 ∧ wf w 25 22 = r % 2 ^ 4 ∧
      wf w 25 24 = r / 2 ^ 2 % 2 ^ 2 ∧ wf w 23 22 = r % 2 ^ 2 ∧
      wf w 29 27 = q.code ∧ wf w 21 19 = q.ptr.toNat ∧ wf w 18 13 = q.disp.toNat ∧ wf w 12 0 = q.abs.toNat := by
  have hc := modeFields_code_lt mode
  dsimp only [modeWord]
  rw [encMode_eq]
  repeat rw [wf_mk _ _ (by omega)]
  omega

theorem decMode_modeWord : decMode (modeWord fmt op r mode) = some mode := by
  obtain ⟨-, -, -, -, -, -, hc, hk, hd, ha⟩ := wf_modeWord hf ho hr mode
  simp only [decMode, hc, hk, hd, ha]
  cases mode <;> simp [modeFields]

end ModeWord

/-- The five bits of a store's source. -/
def srcBits : StoreSrc → Nat
  | .d r => r.toNat
  | .ac r => 2 ^ 4 + r.toNat

theorem encSrc_eq (src : StoreSrc) : encSrc src = srcBits src * 2 ^ 22 := by
  cases src <;> simp only [encSrc, srcBits]
  omega

theorem srcBits_lt (src : StoreSrc) : srcBits src < 2 ^ 5 := by
  cases src <;> simp only [srcBits] <;> omega

/-- A source reads back: bit 26 tells an accumulator from a D register. -/
theorem decSrc_modeWord {fmt op : Nat} (hf : fmt < 16) (ho : op < 4) (src : StoreSrc) (mode : AddrMode) :
    decSrc (modeWord fmt op (srcBits src) mode) = some src := by
  obtain ⟨-, -, hkind, hd, hz, hac, -⟩ := wf_modeWord hf ho (srcBits_lt src) mode
  cases src with
  | d r =>
    have hbits : srcBits (.d r) / 2 ^ 4 = 0 ∧ srcBits (.d r) % 2 ^ 4 = r.toNat := by
      simp only [srcBits]
      omega
    rw [decSrc, if_pos (hkind.trans hbits.1), hd.trans hbits.2, BitVec.ofNat_toNat, BitVec.setWidth_eq]
  | ac r =>
    obtain ⟨hbit, hzero, hreg⟩ : srcBits (.ac r) / 2 ^ 4 = 1 ∧ srcBits (.ac r) / 2 ^ 2 % 2 ^ 2 = 0 ∧
        srcBits (.ac r) % 2 ^ 2 = r.toNat := by
      simp only [srcBits]
      omega
    rw [decSrc, hkind.trans hbit, if_neg Nat.one_ne_zero, if_pos (hz.trans hzero), hac.trans hreg, BitVec.ofNat_toNat,
      BitVec.setWidth_eq]

/-! ### Formats (04 R122, R123): the format of a word says which table it is decoded by -/

section Decode

variable (lane : Nat) (ded : Bool) {op : Nat} (d a b : BitVec 4)

theorem laneDecode_encE (h : op < 16) (g : BitVec 3) : laneDecode lane ded (encE op g) = decE lane ded (encE op g) := by
  simp only [laneDecode, wf_encE h]

theorem laneDecode_encA (h : op < 64) : laneDecode lane ded (encA op d a b) = decA lane ded (encA op d a b) := by
  simp only [laneDecode, wf_encA _ _ _ h]

theorem laneDecode_encI (h : op < 16) {imm : Nat} (hi : imm < 2 ^ 20) :
    laneDecode lane ded (encI op d a imm) = decI lane ded (encI op d a imm) := by
  simp only [laneDecode, wf_encI _ _ h hi]

theorem laneDecode_ldi (v : BitVec 24) :
    laneDecode lane ded (mk (3 * 2 ^ 32 + d.toNat * 2 ^ 27 + v.toNat)) = some (.ldi lane ded d v) := by
  obtain ⟨hfmt, hop, hd, hz, hv⟩ := wf_encLdi d v
  simp only [laneDecode, hfmt, decK, hz, hop, hd, hv]
  simp

theorem laneDecode_ldih (v : BitVec 12) :
    laneDecode lane ded (mk (3 * 2 ^ 32 + 2 ^ 31 + d.toNat * 2 ^ 27 + v.toNat)) = some (.ldih lane ded d v) := by
  obtain ⟨hfmt, hop, hd, hz, hz', hv⟩ := wf_encLdih d v
  simp only [laneDecode, hfmt, decK, hz, hz', hop, hd, hv]
  simp

theorem laneDecode_encM (h : op < 8) (f : Bool) (ac : BitVec 2) (dx dy : BitVec 4) (x y : Option ParLoad) :
    laneDecode lane ded (encM op f ac dx dy x y) = decM lane ded (encM op f ac dx dy x y) := by
  simp only [laneDecode, wf_encM h]

theorem laneDecode_encF (h : op < 4) (ac : BitVec 2) (p mv : Bool) (ix ic : BitVec 3) :
    laneDecode lane ded (encF op ac p mv ix ic) = decF lane ded (encF op ac p mv ix ic) := by
  simp only [laneDecode, wf_encF h]

theorem decL_of_fields {w : W36} {mem : LaneMem} {mode : AddrMode} {d : BitVec 4} (hop : wf w 31 30 = memCode mem)
    (hz : wf w 26 26 = 0) (hmode : decMode w = some mode) (hd : wf w 25 22 = d.toNat) :
    decL lane ded w = some (.ld lane ded mem mode d) := by
  simp only [decL, hop, hz, hmode, hd]
  cases mem <;> simp [memCode]

theorem laneDecode_ld (mem : LaneMem) (mode : AddrMode) :
    laneDecode lane ded (modeWord 6 (memCode mem) d.toNat mode) = some (.ld lane ded mem mode d) := by
  have hm := memCode_lt mem
  have hr : d.toNat < 2 ^ 5 := by omega
  obtain ⟨hfmt, hop, hz, hd, -⟩ := wf_modeWord (by decide : 6 < 16) hm hr mode
  simp only [laneDecode, hfmt]
  exact decL_of_fields lane ded hop (hz.trans (Nat.div_eq_of_lt d.isLt)) (decMode_modeWord (by decide) hm hr mode)
    (hd.trans (Nat.mod_eq_of_lt d.isLt))

theorem decS_of_fields {w : W36} {toY : Bool} {mode : AddrMode} {src : StoreSrc} (hop : wf w 31 30 = b2n toY)
    (hmode : decMode w = some mode) (hsrc : decSrc w = some src) : decS lane ded w = some (.st lane ded toY mode src) := by
  simp only [decS, hop, hmode, hsrc]
  cases toY <;> rfl

theorem laneDecode_st (toY : Bool) (mode : AddrMode) (src : StoreSrc) :
    laneDecode lane ded (modeWord 7 (b2n toY) (srcBits src) mode) = some (.st lane ded toY mode src) := by
  have hy : b2n toY < 4 := (b2n_lt toY).trans (by decide)
  obtain ⟨hfmt, hop, -⟩ := wf_modeWord (by decide : 7 < 16) hy (srcBits_lt src) mode
  simp only [laneDecode, hfmt]
  exact decS_of_fields lane ded hop (decMode_modeWord (by decide) hy (srcBits_lt src) mode)
    (decSrc_modeWord (by decide) hy src mode)

theorem laneDecode_encC (h : op < 16) (x y : BitVec 2) (k : BitVec 7) :
    laneDecode lane ded (encC op x y d k) = decC lane ded (encC op x y d k) := by
  simp only [laneDecode, wf_encC _ h]

theorem laneDecode_encG (h : op < 16) (kind : BitVec 2) (reg : BitVec 3) {imm : Nat} (hi : imm < 2 ^ 14) :
    laneDecode lane ded (encG op kind reg d imm) = decG lane ded (encG op kind reg d imm) := by
  simp only [laneDecode, wf_encG _ h _ _ hi]

theorem laneDecode_encB (h : op < 8) (t : BitVec 12) :
    laneDecode lane ded (encB op a d t) = decB lane ded (encB op a d t) := by
  simp only [laneDecode, wf_encB _ _ h]

theorem laneDecode_rep (count : BitVec 16) (len : BitVec 8) :
    laneDecode lane ded (mk (11 * 2 ^ 32 + count.toNat * 2 ^ 14 + len.toNat)) = some (.rep lane ded count len) := by
  simp only [laneDecode, decR, wf_encRep]
  simp

theorem laneDecode_loop (last : BitVec 12) :
    laneDecode lane ded (mk (11 * 2 ^ 32 + 2 ^ 30 + d.toNat * 2 ^ 26 + last.toNat)) = some (.loop lane ded d last) := by
  simp only [laneDecode, decR, wf_encLoop]
  simp

end Decode

end Sys2Proof.Proofs
end

section
/-! O8 and O9, from the rules above. -/

namespace Sys2Proof.Proofs

open Sys2Proof Sys2Proof.Machine Sys2Proof.Laws

/-- Settles O8: format by format, every field of the word is the operand that it was made of, and the fields that an
operation does not use are 0. -/
theorem laneDecodeEncode : Obligations.LaneDecodeEncode := by
  intro c w h hok
  cases c with
  | nop | halt | rete | sosrun | soswait =>
    obtain rfl := Option.some.inj h
    simp [laneCtx, laneDecode_encE, wf_encE, decE]
  | mov | add | adds | sub | subs | neg | negs | abs | and | or | xor | not | ash | lsh | min | max | cmp | mulf | muli =>
    obtain rfl := Option.some.inj h
    simp [laneCtx, laneDecode_encA, wf_encA, decA]
  | addi _ _ _ _ i | addsi _ _ _ _ i | andi _ _ _ _ i | ori _ _ _ _ i | xori _ _ _ _ i | cmpi _ _ _ i =>
    obtain rfl := Option.some.inj h
    have hi := i.isLt
    simp [laneCtx, laneDecode_encI, wf_encI, decI, hi]
  | ashi _ _ _ _ i | lshi _ _ _ _ i =>
    obtain rfl := Option.some.inj h
    have hi := i.isLt
    have hlt : i.toNat < 1048576 := by omega
    have hmod : i.toNat % 128 = i.toNat := by omega
    simp [laneCtx, laneDecode_encI, wf_encI, decI, hi, hlt, hmod]
  | ldi => obtain rfl := Option.some.inj h; exact laneDecode_ldi _ _ _ _
  | ldih => obtain rfl := Option.some.inj h; exact laneDecode_ldih _ _ _ _
  | mpy | mac | msu | mpyn | pld =>
    obtain rfl := Option.some.inj h
    simp [laneCtx, laneDecode_encM, wf_encM, decM, decX_eq, decY_eq, b2n_false]
  | firtap _ _ _ _ _ ix ic | firtapn _ _ _ _ _ ix ic =>
    obtain rfl := Option.some.inj h
    have hne : ix ≠ ic := bne_iff_ne.mp hok
    simp [laneCtx, laneDecode_encF, wf_encF, decF, hne]
  | ld => obtain rfl := Option.some.inj h; exact laneDecode_ld _ _ _ _ _
  | st =>
    obtain rfl := Option.some.inj h
    rw [encSrc_eq]
    exact laneDecode_st _ _ _ _ _
  | clra | movah | moval | movag | ldah | ldal | adda | suba | cpya | nega | asha | tsta =>
    obtain rfl := Option.some.inj h
    simp [laneCtx, laneDecode_encC, wf_encC, decC]
  | mvta | mvfa | amod =>
    obtain rfl := Option.some.inj h
    simp [laneCtx, laneDecode_encG, wf_encG, decG]
  | lda _ _ _ _ i | aadd _ _ _ i =>
    obtain rfl := Option.some.inj h
    have hi := i.isLt
    simp [laneCtx, laneDecode_encG, wf_encG, decG, hi]
  | mvtc _ _ cr | mvfc _ _ _ cr =>
    obtain rfl := Option.some.inj h
    cases cr <;> simp [laneCtx, laneDecode_encG, wf_encG, decG, decCr, crCode]
  | j _ _ cond | call _ _ cond | jr _ _ cond =>
    obtain rfl := Option.some.inj h
    have hne : cond ≠ 15#4 := bne_iff_ne.mp hok
    simp [laneCtx, laneDecode_encB, wf_encB, decB, hne]
  | rep => obtain rfl := Option.some.inj h; exact laneDecode_rep _ _ _ _
  | loop => obtain rfl := Option.some.inj h; exact laneDecode_loop _ _ _ _
  | lpop => obtain rfl := Option.some.inj h; rfl
  | _ => cases h

/-- Settles O9: each word is decoded as it stands. -/
theorem laneWordExamples : Obligations.LaneWordExamples := by
  unfold Obligations.LaneWordExamples
  decide

end Sys2Proof.Proofs
end

section
/-! Results on their way (03 R97): what an instruction brings, as a list of writes with the number of slots after which each
is visible. -/

namespace Sys2Proof.Proofs

open Sys2Proof Sys2Proof.Machine Sys2Proof.Laws

/-- The Lane with more results on their way, each visible after its number of slots. -/
def bring (ws : List (Nat × LaneWr)) (l : LaneS) : LaneS :=
  { l with pend := l.pend ++ ws.map fun w => { vis := l.slot + w.1, shad := l.shadow, w := w.2 } }

theorem bring_nil (l : LaneS) : bring [] l = l := by
  simp only [bring, List.map_nil, List.append_nil]

theorem bring_bring (ws vs : List (Nat × LaneWr)) (l : LaneS) : bring ws (bring vs l) = bring (vs ++ ws) l := by
  simp only [bring, List.map_append, List.append_assoc]

theorem push_bring (n : Nat) (w : LaneWr) (ws : List (Nat × LaneWr)) (l : LaneS) :
    push n w (bring ws l) = bring (ws ++ [(n, w)]) l := bring_bring [(n, w)] ws l

/-- A result that depends on a condition. -/
theorem pushIf_bring (c : Prop) [Decidable c] (n : Nat) (w : LaneWr) (ws : List (Nat × LaneWr)) (l : LaneS) :
    (if c then push n w (bring ws l) else bring ws l) = bring (ws ++ if c then [(n, w)] else []) l := by
  split
  · exact push_bring n w ws l
  · rw [List.append_nil]

section Issues

variable {c : Instr} {s : State} {key : Nat} {body : LaneS → Issued} {ws : List (Nat × LaneWr)} {k : LaneS}
  (he : exec c s = .next (issue key false body s)) (h : canIssue s key = true)

include he h

/-- A command whose instruction brings results on their way, makes its stores and may keep an accumulator for forwarding,
but changes no flow and raises no NOTE. -/
theorem issues_of_bring {cost : Nat} {stores : LaneS → LaneS} {mac : Option (Nat × Bool × BitVec 2 × BitVec 80)}
    (hb : body (seenLane s key) = { lane := k, cost := cost })
    (hk : k = { bring ws (seenLane s key) with cur := (stores (seenLane s key)).cur, mac := mac }) :
    Issues c s key ws cost stores := by
  subst hk
  exact issues_of he h (by rw [hb]) (by rw [hb]; nofun) (by rw [hb]; rfl) (by rw [hb]) (by rw [hb]; rfl) (by rw [hb])

/-- An instruction that only brings results on their way, in one slot. -/
theorem issues_of_results (hb : body (seenLane s key) = { lane := k }) (hk : k = bring ws (seenLane s key)) :
    Issues c s key ws :=
  issues_of_bring he h hb hk

end Issues

end Sys2Proof.Proofs
end

section
/-! The results of the ALU (04 R128, R133 to R136), in the terms of the statements. -/

namespace Sys2Proof.Proofs

open Sys2Proof Sys2Proof.Machine Sys2Proof.Laws

/-! ### Results with their flags (04 R128) -/

/-- The writes of a result of the ALU: its word, its flags, and SAT where saturation acted. -/
def resWrites (n : Nat) (d : Option (BitVec 4)) (r : AluRes) : List (Nat × LaneWr) :=
  (match d with
    | some d => [(n, .d d r.val)]
    | none => []) ++ [(n, .flags r.mask r.flags)] ++ satWith n r.sat

theorem pushRes_eq_bring (n : Nat) (d : Option (BitVec 4)) (r : AluRes) (l : LaneS) :
    pushRes n d r l = bring (resWrites n d r) l := by
  cases d with
  | none => exact pushIf_bring (r.sat = true) n (.sticky stSat) [(n, .flags r.mask r.flags)] l
  | some d =>
    have h : push n (.flags r.mask r.flags) (push n (.d d r.val) l) =
        bring [(n, .d d r.val), (n, .flags r.mask r.flags)] l := push_bring n _ [(n, .d d r.val)] l
    simp only [pushRes, h, pushIf_bring]
    rfl

section Alu

variable {c : Instr} {s : State} {key n : Nat} {body : LaneS → Issued} {d : BitVec 4}
  (he : exec c s = .next (issue key false body s)) (h : canIssue s key = true)

include he h

/-- An instruction with a result that sets N, Z, V and C. -/
theorem issues_nzvc {r : AluRes} {v : W36} {ovf carry sat : Bool}
    (hb : body (seenLane s key) = { lane := pushRes n (some d) r (seenLane s key) })
    (hr : r = resNzvc v ovf carry sat) : Issues c s key (resultC n d v ovf carry ++ satWith n sat) :=
  issues_of_results he h hb (by rw [pushRes_eq_bring, hr]; rfl)

/-- An instruction with a result that sets N, Z and V and keeps C. -/
theorem issues_nzv {r : AluRes} {v : W36} {ovf sat : Bool}
    (hb : body (seenLane s key) = { lane := pushRes n (some d) r (seenLane s key) })
    (hr : r = resNzv v ovf sat) : Issues c s key (resultV n d v ovf ++ satWith n sat) :=
  issues_of_results he h hb (by rw [pushRes_eq_bring, hr]; rfl)

/-- A comparison writes no register. -/
theorem issues_cmp {x y : W36}
    (hb : body (seenLane s key) = { lane := pushRes 1 none (aluSub x y) (seenLane s key) }) :
    Issues c s key [(1, .flags 0b1111 (nzvc (x - y).msb (x - y == 0) (out36 (x.toInt - y.toInt))
      (decide (x.toNat < y.toNat))))] :=
  issues_of_results he h hb (by rw [pushRes_eq_bring, aluSub, not_fits36]; rfl)

/-- An arithmetic shift by a signed amount: left saturating, right rounded (R134). -/
theorem issues_ash {x : W36} {k : BitVec 7}
    (hb : body (seenLane s key) = { lane := pushRes 1 (some d) (aluAsh x k) (seenLane s key) }) :
    let sh : Int := max (-36) (min k.toInt 36)
    Issues c s key
      (if 0 ≤ sh then
        resultV 1 d (clamp36 (x.toInt * 2 ^ sh.toNat)) (out36 (x.toInt * 2 ^ sh.toNat))
          ++ satWith 1 (out36 (x.toInt * 2 ^ sh.toNat))
      else resultV 1 d (BitVec.ofInt 36 (roundEven x.toInt (2 ^ (-sh).toNat))) false) := by
  intro sh
  have hr : aluAsh x k = if 0 ≤ sh then
      resNzv (clamp36 (x.toInt * 2 ^ sh.toNat)) (out36 (x.toInt * 2 ^ sh.toNat)) (out36 (x.toInt * 2 ^ sh.toNat))
    else resNzv (BitVec.ofInt 36 (roundEven x.toInt (2 ^ (-sh).toNat))) false false := by
    simp only [aluAsh, not_fits36, sat36_eq_clamp36]
    rfl
  by_cases hs : 0 ≤ sh
  · rw [if_pos hs] at hr ⊢
    exact issues_nzv he h hb hr
  · rw [if_neg hs] at hr ⊢
    exact issues_nzv he h hb hr

end Alu

/-! ### The operations (04 R133) -/

section Operations

variable (x y : W36)

theorem aluLogic_eq : aluLogic x = resNzv x false false := rfl

theorem aluAdd_eq : aluAdd x y =
    resNzvc (x + y) (out36 (x.toInt + y.toInt)) (decide (2 ^ 36 ≤ x.toNat + y.toNat)) false := by
  rw [aluAdd, not_fits36]

theorem aluAdds_eq : aluAdds x y =
    let z := x.toInt + y.toInt
    resNzvc (clamp36 z) (out36 z) (decide (2 ^ 36 ≤ x.toNat + y.toNat)) (out36 z) := by
  rw [aluAdds, not_fits36, sat36_eq_clamp36]

theorem aluSub_eq : aluSub x y =
    resNzvc (x - y) (out36 (x.toInt - y.toInt)) (decide (x.toNat < y.toNat)) false := by
  rw [aluSub, not_fits36]

theorem aluSubs_eq : aluSubs x y =
    let z := x.toInt - y.toInt
    resNzvc (clamp36 z) (out36 z) (decide (x.toNat < y.toNat)) (out36 z) := by
  rw [aluSubs, not_fits36, sat36_eq_clamp36]

/-- The most negative word is the one whose value is -2^35. -/
theorem beq_minWord : (x == minWord) = decide (x.toInt = -(2 ^ 35)) := by
  rw [beq_eq_decide]
  refine decide_eq_decide.mpr ⟨fun h => h ▸ by decide, fun h => BitVec.eq_of_toInt_eq ?_⟩
  rw [h]
  decide

/-- Only the most negative word has no negative in 36 bits. -/
theorem out36_neg : out36 (-x.toInt) = decide (x.toInt = -(2 ^ 35)) := by
  have hl := BitVec.le_toInt x
  have hu := BitVec.toInt_lt (x := x)
  rw [out36]
  exact decide_eq_decide.mpr (by omega)

/-- Only the most negative word has no absolute value in 36 bits. -/
theorem out36_abs : out36 (max x.toInt (-x.toInt)) = decide (x.toInt = -(2 ^ 35)) := by
  have hl := BitVec.le_toInt x
  have hu := BitVec.toInt_lt (x := x)
  rw [out36]
  exact decide_eq_decide.mpr (by omega)

theorem aluNeg_eq : aluNeg x = resNzv (-x) (decide (x.toInt = -(2 ^ 35))) false := by
  rw [aluNeg, beq_minWord]

theorem aluNegs_eq : aluNegs x =
    let least := decide (x.toInt = -(2 ^ 35))
    resNzv (clamp36 (-x.toInt)) least least := by
  rw [aluNegs, beq_minWord, not_fits36, sat36_eq_clamp36, out36_neg]

theorem aluAbs_eq : aluAbs x =
    let least := decide (x.toInt = -(2 ^ 35))
    resNzv (clamp36 (max x.toInt (-x.toInt))) least least := by
  have habs : (x.toInt.natAbs : Int) = max x.toInt (-x.toInt) := by omega
  rw [aluAbs, beq_minWord, not_fits36, sat36_eq_clamp36, habs, out36_abs]

theorem aluMulf_eq : aluMulf x y =
    let p := roundEven (x.toInt * y.toInt * 8) (2 ^ 36)
    resNzv (clamp36 p) (out36 p) (out36 p) := by
  rw [aluMulf, not_fits36, sat36_eq_clamp36]

theorem aluMuli_eq : aluMuli x y =
    let p := x.toInt * y.toInt
    resNzv (clamp36 p) (out36 p) (out36 p) := by
  rw [aluMuli, not_fits36, sat36_eq_clamp36]

/-- LDIH's word: the immediate over the low 24 bits (R136). -/
theorem append_truncate_eq (v : BitVec 12) :
    v ++ x.truncate 24 = BitVec.ofNat 36 (v.toNat * 2 ^ 24 + x.toNat % 2 ^ 24) := by
  apply BitVec.eq_of_toNat_eq
  have hlt : x.toNat % 2 ^ 24 < 2 ^ 24 := Nat.mod_lt _ (by decide)
  rw [BitVec.toNat_append, BitVec.truncate, BitVec.toNat_setWidth, ← Nat.shiftLeft_add_eq_or_of_lt hlt, Nat.shiftLeft_eq,
    BitVec.toNat_ofNat]
  omega

end Operations

end Sys2Proof.Proofs
end

section
/-! Accumulators, multiplies and the memories of a Lane (03 R93 to R95, R98; 04 R126, R137 to R140), in the terms of the
statements. -/

namespace Sys2Proof.Proofs

open Sys2Proof Sys2Proof.Machine Sys2Proof.Laws

/-! ### Accumulator results (03 R94, R95) -/

theorem guard80_eq (x : Int) : guard80 x =
    (BitVec.ofInt 80 (max (-(2 ^ 79)) (min (2 ^ 79 - 1) x)), decide (x < -(2 ^ 79) ∨ 2 ^ 79 - 1 < x)) := by
  have h : satInt 80 x = max (-(2 ^ 79)) (min (2 ^ 79 - 1) x) := by
    rw [satInt, min_comm x]
  rw [guard80, h]
  exact congrArg (Prod.mk _) (decide_eq_decide.mpr (by omega))

theorem pushAc_eq_bring (a : BitVec 2) (v : BitVec 80) (past : Bool) (l : LaneS) :
    pushAc a v past l = bring ([(2, .ac a v)] ++ if past then [(2, .sticky (stGv a))] else []) l :=
  pushIf_bring (past = true) 2 (.sticky (stGv a)) [(2, .ac a v)] l

theorem pushAc_guard80 (a : BitVec 2) (x : Int) (l : LaneS) :
    pushAc a (guard80 x).1 (guard80 x).2 l = bring (accResult a x) l := by
  rw [pushAc_eq_bring, guard80_eq]
  simp only [decide_eq_true_eq]
  rfl

theorem pushMac_eq_bring (a : BitVec 2) (x : Int) (l : LaneS) :
    pushMac a x l = { bring (accResult a x) l with mac := some (l.slot, l.shadow, a, (guard80 x).1) } := by
  rw [← pushAc_guard80]
  rfl

theorem highField_eq (x : BitVec 80) :
    highField x = (clamp36 (roundEven x.toInt (2 ^ 36)), out36 (roundEven x.toInt (2 ^ 36))) := by
  rw [highField, not_fits36, sat36_eq_clamp36]

/-! ### Fields of an accumulator (04 R140) -/

theorem lowWord_eq (x : BitVec 80) : x.truncate 36 = BitVec.ofNat 36 (x.toNat % 2 ^ 36) :=
  BitVec.eq_of_toNat_eq (by simp [BitVec.truncate])

theorem guardBits_eq (x : BitVec 80) : ((x >>> 72).truncate 8).signExtend 36 = BitVec.ofInt 36 (x.toInt / 2 ^ 72) := by
  have hbits : ((x >>> 72).truncate 8).toNat = x.toNat / 2 ^ 72 := by
    rw [BitVec.truncate, BitVec.toNat_setWidth, BitVec.toNat_ushiftRight, Nat.shiftRight_eq_div_pow]
    omega
  have hval : ((x >>> 72).truncate 8).toInt = x.toInt / 2 ^ 72 := by
    rw [BitVec.toInt_eq_toNat_cond, BitVec.toInt_eq_toNat_cond, hbits]
    split <;> split <;> omega
  rw [BitVec.signExtend, hval]

theorem ofHighWord_eq (v : W36) : v.signExtend 80 <<< 36 = BitVec.ofInt 80 (v.toInt * 2 ^ 36) := by
  have hpow : BitVec.twoPow 80 36 = BitVec.ofInt 80 (2 ^ 36) := by decide
  rw [BitVec.shiftLeft_eq_mul_twoPow, BitVec.signExtend, hpow, BitVec.ofInt_mul]

theorem withLowWord_eq (x : BitVec 80) (v : W36) :
    ((x >>> 36) <<< 36) ||| v.zeroExtend 80 = BitVec.ofNat 80 (x.toNat / 2 ^ 36 * 2 ^ 36 + v.toNat) := by
  apply BitVec.eq_of_toNat_eq
  have hx : (x >>> 36 <<< 36).toNat = (x.toNat / 2 ^ 36) <<< 36 := by
    rw [BitVec.toNat_shiftLeft, BitVec.toNat_ushiftRight, Nat.shiftRight_eq_div_pow, Nat.shiftLeft_eq]
    omega
  have hv : (v.zeroExtend 80).toNat = v.toNat := BitVec.toNat_setWidth_of_le (by decide)
  rw [BitVec.toNat_or, hx, hv, ← Nat.shiftLeft_add_eq_or_of_lt v.isLt, Nat.shiftLeft_eq, BitVec.toNat_ofNat]
  omega

/-! ### Parallel loads and the steps of modes (04 R126, R137) -/

theorem parX_eq_bring (q : ParLoad) (l : LaneS) : parX q l = bring (parWrites l .x (q.p.zeroExtend 3) q) l :=
  pushIf_bring (q.post = true) 1 _ [(2, .d q.d (laneRd l .x (rdPt l (q.p.zeroExtend 3)).toNat))] l

theorem parY_eq_bring (q : ParLoad) (l : LaneS) : parY q l = bring (parWrites l .y (4 + q.p.zeroExtend 3) q) l :=
  pushIf_bring (q.post = true) 1 _ [(2, .d q.d (laneRd l .y (rdPt l (4 + q.p.zeroExtend 3)).toNat))] l

/-- Both loads read the Lane as it was before either. -/
theorem parLoads_eq_bring (x y : Option ParLoad) (l : LaneS) : parLoads x y l = bring (bothLoads l x y) l := by
  rcases x with - | p <;> rcases y with - | q
  · exact (bring_nil l).symm
  · exact parY_eq_bring q l
  · rw [parLoads, bothLoads, List.append_nil]
    exact parX_eq_bring p l
  · simp only [parLoads, parX_eq_bring p l]
    rw [parY_eq_bring, bring_bring]
    rfl

/-- A mode steps its pointer from where it stood before the results on their way. -/
theorem modeStep_bring (m : LaneMem) (mode : AddrMode) (ws : List (Nat × LaneWr)) (l : LaneS) :
    modeStep m mode (bring ws l) = bring (ws ++ postWrites l m mode) l := by
  cases mode with
  | inc | dec | incOne | decOne => exact push_bring _ _ ws l
  | ptr | disp | abs =>
    rw [postWrites, List.append_nil]
    rfl

theorem modeStep_eq_bring (m : LaneMem) (mode : AddrMode) (l : LaneS) :
    modeStep m mode l = bring (postWrites l m mode) l := by
  have h := modeStep_bring m mode [] l
  rwa [bring_nil] at h

/-! ### Stores (03 R82, R83) -/

/-- A store touches the memories only, and depends on nothing else but its address and its word. -/
theorem laneWrX_of_cur {l k : LaneS} (h : k.cur = l.cur) (a : Nat) (v : W36) :
    laneWrX a v k = { k with cur := (laneWrX a v l).cur } := by
  simp only [laneWrX, h]
  split
  · rw [← h]
  · rfl

theorem laneStore_of_cur {l k : LaneS} (h : k.cur = l.cur) (toY : Bool) (a : Nat) (v : W36) :
    laneStore toY a v k = { k with cur := (laneStore toY a v l).cur } := by
  cases toY with
  | true =>
    show laneWrY a v k = _
    rw [laneWrY, h]
    rfl
  | false => exact laneWrX_of_cur h a v

/-! ### Multiplies and filter taps (03 R93, R98; 04 R137, R138) -/

theorem product80_eq (frac : Bool) (x y : W36) : product80 frac x y = x.toInt * y.toInt * (if frac then 8 else 1) := by
  cases frac with
  | true => rfl
  | false => exact (Int.mul_one _).symm

theorem mul_lane (frac : Bool) (ac : BitVec 2) (dx dy : BitVec 4) (x y : Option ParLoad) (f : Int → Int → Int)
    (l : LaneS) :
    let r := f (macOperand l ac).toInt ((rdD l dx).toInt * (rdD l dy).toInt * (if frac then 8 else 1))
    (mul frac ac dx dy x y f l).lane =
      { bring (accResult ac r ++ bothLoads l x y) l with mac := some (l.slot, l.shadow, ac, (guard80 r).1) } := by
  intro r
  rw [mul, parLoads_eq_bring, pushMac_eq_bring, product80_eq, ← bring_bring]
  rfl

/-- Results that a multiply brings after its own. -/
theorem push_push_pushMac (a : BitVec 2) (x : Int) (n m : Nat) (v w : LaneWr) (l : LaneS) :
    push n v (push m w (pushMac a x l)) = { bring (accResult a x ++ [(m, w), (n, v)]) l with
      mac := some (l.slot, l.shadow, a, (guard80 x).1) } := by
  have h : push n v (push m w (bring (accResult a x) l)) = bring (accResult a x ++ [(m, w), (n, v)]) l := by
    rw [push_bring, push_bring, List.append_assoc]
    rfl
  rw [pushMac_eq_bring, ← h]
  rfl

theorem tap_lane (neg : Bool) (ac : BitVec 2) (fromP move : Bool) (ix ic : BitVec 3) (l : LaneS) :
    let m : LaneMem := if fromP then .p else .y
    let t := laneRd l .x (rdPt l ix).toNat
    let p : Int := t.toInt * (laneRd l m (rdPt l ic).toNat).toInt * 8
    let a : Int := (macOperand l ac).toInt
    let r : Int := if neg then a - p else a + p
    (tap neg ac fromP move ix ic l).lane =
      { bring (accResult ac r ++ [(1, .pt ix (stepPtr l ix (rdDt l ix).toInt 8192)),
          (1, .pt ic (stepPtr l ic (rdDt l ic).toInt (if fromP then 4096 else 8192)))]) l with
        cur := (if move then laneWrX (tapMoveAddr l ix) t l else l).cur
        mac := some (l.slot, l.shadow, ac, (guard80 r).1) } := by
  intro m t p a r
  have hm : memSize m = if fromP then 4096 else 8192 := by cases fromP <;> rfl
  rw [tap, push_push_pushMac, hm]
  cases move with
  | true => exact laneWrX_of_cur (l := l) (by rfl) _ _
  | false => rfl

end Sys2Proof.Proofs
end

section
/-! The lane instructions that bring results and change no flow: one rule for each shape (04 R137 to R140). -/

namespace Sys2Proof.Proofs

open Sys2Proof Sys2Proof.Machine Sys2Proof.Laws

section Rules

variable {c : Instr} {s : State} {key : Nat} (h : canIssue s key = true)

include h

theorem issues_mul {frac : Bool} {ac : BitVec 2} {dx dy : BitVec 4} {x y : Option ParLoad} (f : Int → Int → Int)
    (he : exec c s = .next (issue key false (mul frac ac dx dy x y f) s)) :
    let l := seenLane s key
    Issues c s key (accResult ac (f (macOperand l ac).toInt
      ((rdD l dx).toInt * (rdD l dy).toInt * (if frac then 8 else 1))) ++ bothLoads l x y) :=
  issues_of_bring he h rfl (mul_lane ..)

theorem issues_tap (neg : Bool) {ac : BitVec 2} {fromP move : Bool} {ix ic : BitVec 3} (hne : ix ≠ ic)
    (he : exec c s = .next (issue key false
      (fun l => if ix = ic then noteNop l 10 0x0302 else tap neg ac fromP move ix ic l) s)) :
    let l := seenLane s key
    let m : LaneMem := if fromP then .p else .y
    let t := laneRd l .x (rdPt l ix).toNat
    let p : Int := t.toInt * (laneRd l m (rdPt l ic).toNat).toInt * 8
    let a : Int := (macOperand l ac).toInt
    Issues c s key (accResult ac (if neg then a - p else a + p) ++ [(1, .pt ix (stepPtr l ix (rdDt l ix).toInt 8192)),
        (1, .pt ic (stepPtr l ic (rdDt l ic).toInt (if fromP then 4096 else 8192)))])
      (if fromP then (if fromCache l then 1 else 2) else 1)
      (fun q => if move then laneWrX (tapMoveAddr l ix) t q else q) :=
  issues_of_bring he h (if_neg hne) (tap_lane ..)

theorem issues_acRes {body : LaneS → Issued} {a : BitVec 2} {x : Int} (he : exec c s = .next (issue key false body s))
    (hb : body (seenLane s key) = acRes a x (seenLane s key)) : Issues c s key (accResult a x) :=
  issues_of_results he h hb (pushAc_guard80 a x _)

theorem issues_movah (d : BitVec 4) (a : BitVec 2) :
    let high := roundEven (rdAc (seenLane s key) a).toInt (2 ^ 36)
    Issues (.movah key false d a) s key ([(1, .d d (clamp36 high))] ++ satWith 1 (out36 high)) := by
  intro high
  refine issues_of_results rfl h rfl ?_
  rw [highField_eq]
  exact pushIf_bring (out36 high = true) 1 (.sticky stSat) [(1, .d d (clamp36 high))] _

theorem issues_ld (m : LaneMem) (mode : AddrMode) (d : BitVec 4) :
    let l := seenLane s key
    Issues (.ld key false m mode d) s key ([(2, .d d (laneRd l m (modeAddr l m mode)))] ++ postWrites l m mode)
      (if m = .p then (if fromCache l then 1 else 2) else 1) := by
  intro l
  exact issues_of_bring rfl h rfl (modeStep_bring m mode [(2, .d d (laneRd l m (modeAddr l m mode)))] l)

/-- A store brings the post-step of its mode, and SAT where its word saturated. -/
theorem issues_st (toY : Bool) (mode : AddrMode) (src : StoreSrc) {v : W36} {sat : Bool}
    (hv : storeVal (seenLane s key) src = (v, sat)) :
    let l := seenLane s key
    let m : LaneMem := if toY then .y else .x
    Issues (.st key false toY mode src) s key (postWrites l m mode ++ satWith 1 sat) 1
      (laneStore toY (modeAddr l m mode) v) := by
  intro l m
  refine issues_of_bring (mac := l.mac) rfl h rfl ?_
  rw [hv, modeStep_eq_bring, pushIf_bring]
  exact laneStore_of_cur (l := l) (by rfl) toY _ v

end Rules

end Sys2Proof.Proofs
end

section
/-! O10 to O16, from the rules above. -/

namespace Sys2Proof.Proofs

open Sys2Proof Sys2Proof.Machine Sys2Proof.Laws

/-- Settles O10: each operation has the result of its row. -/
theorem laneRegisterArithmetic : Obligations.LaneRegisterArithmetic := by
  intro s key d a b h
  refine ⟨?mov, ?add, ?adds, ?sub, ?subs, ?cmp, ?neg, ?negs, ?abs, ?and, ?or, ?xor, ?not, ?min, ?max, ?ash, ?lsh, ?mulf,
    ?muli⟩
  case mov | and | or | xor | not | min | max | lsh => exact issues_nzv rfl h rfl (aluLogic_eq _)
  case add => exact issues_nzvc rfl h rfl (aluAdd_eq _ _)
  case adds => exact issues_nzvc rfl h rfl (aluAdds_eq _ _)
  case sub => exact issues_nzvc rfl h rfl (aluSub_eq _ _)
  case subs => exact issues_nzvc rfl h rfl (aluSubs_eq _ _)
  case cmp => exact issues_cmp rfl h rfl
  case neg => exact issues_nzv rfl h rfl (aluNeg_eq _)
  case negs => exact issues_nzv rfl h rfl (aluNegs_eq _)
  case abs => exact issues_nzv rfl h rfl (aluAbs_eq _)
  case ash => exact issues_ash rfl h rfl
  case mulf => exact issues_nzv rfl h rfl (aluMulf_eq _ _)
  case muli => exact issues_nzv rfl h rfl (aluMuli_eq _ _)

/-- Settles O11: the rows of the register operations, with an immediate whose value sign extension keeps. -/
theorem laneImmediates : Obligations.LaneImmediates := by
  intro s key d a imm k v hi h
  have himm : (imm.signExtend 36).toInt = imm.toInt := BitVec.toInt_signExtend_of_le (by decide)
  dsimp only
  rw [← himm, ← append_truncate_eq]
  refine ⟨?addi, ?addsi, ?cmpi, ?andi, ?ori, ?xori, ?ashi, ?lshi, ?ldi, ?ldih⟩
  case addi => exact issues_nzvc rfl h rfl (aluAdd_eq _ _)
  case addsi => exact issues_nzvc rfl h rfl (aluAdds_eq _ _)
  case cmpi => exact issues_cmp rfl h rfl
  case andi | ori | xori | lshi => exact issues_nzv rfl h rfl (aluLogic_eq _)
  case ashi => exact issues_ash rfl h rfl
  case ldi | ldih => exact issues_of_results rfl h rfl rfl

/-- Settles O12: the four multiplies differ in what they make of the accumulator operand and the product. -/
theorem laneMultiplies : Obligations.LaneMultiplies := by
  intro s key frac ac dx dy x y h
  exact ⟨issues_mul h (fun _ p => p) rfl, issues_mul h (fun a p => a + p) rfl, issues_mul h (fun a p => a - p) rfl,
    issues_mul h (fun _ p => -p) rfl, issues_of_results rfl h rfl (parLoads_eq_bring x y _)⟩

/-- Settles O13: a tap with two different pointers adds or subtracts its product. -/
theorem laneFilterTaps : Obligations.LaneFilterTaps := by
  intro s key ac fromP move ix ic h hne
  exact ⟨issues_tap h false hne rfl, issues_tap h true hne rfl⟩

/-- Settles O14: a D register is stored as it is, an accumulator by its high field. -/
theorem laneLoadsAndStores : Obligations.LaneLoadsAndStores := by
  intro s key m toY mode d r h
  refine ⟨issues_ld h m mode d, ?_, issues_st h toY mode (.ac r) (highField_eq _)⟩
  simpa only [satWith, Bool.false_eq_true, if_false, List.append_nil] using issues_st h toY mode (.d d) rfl

/-- Settles O15: moves and loads of fields by the value of the field, arithmetic by its exact result. -/
theorem laneAccumulators : Obligations.LaneAccumulators := by
  intro s key d a b k h
  dsimp only
  rw [← lowWord_eq, ← guardBits_eq, ← ofHighWord_eq, ← withLowWord_eq]
  refine ⟨?clra, issues_movah h d a, ?moval, ?movag, ?ldah, ?ldal, ?adda, ?suba, ?cpya, ?nega, ?asha, ?tsta⟩
  case clra | moval | movag | ldah | ldal | cpya | tsta => exact issues_of_results rfl h rfl rfl
  case adda | suba | nega | asha => exact issues_acRes h rfl rfl

/-- Settles O16: every one of these instructions brings one write, visible in the next slot. -/
theorem laneAddressAndControlRegisters : Obligations.LaneAddressAndControlRegisters := by
  intro s key d reg imm h
  and_intros <;> exact issues_of_results rfl h rfl rfl

end Sys2Proof.Proofs
end

section
/-! The flow of the instructions of formats B and R, the NOTE of a reserved one, and the end of a Lane's wave (03 R97, R100;
04 R123, R129, R130, R143 to R148). -/

namespace Sys2Proof.Proofs

open Sys2Proof Sys2Proof.Machine Sys2Proof.Laws

/-! ### Loop stacks (R146) -/

@[simp] theorem loopsOf_setLoops (es : List LoopE) (l : LaneS) : loopsOf (setLoops es l) = es := by
  simp only [loopsOf, setLoops, bankOf_onBank, if_true]

@[simp] theorem loopsOf_cacheDrop (l : LaneS) : loopsOf (cacheDrop l) = loopsOf l := by
  rw [cacheDrop_frame]
  rfl

@[simp] theorem loopsOf_cacheBack (f : BitVec 12) (l : LaneS) : loopsOf (cacheBack f l) = loopsOf l := by
  rw [cacheBack_frame]
  rfl

@[simp] theorem cacheBack_pc (f : BitVec 12) (l : LaneS) : (cacheBack f l).pc = l.pc := by rw [cacheBack_frame]

/-- A top entry with more than one pass left goes back to its first address. -/
theorem loopTest_back {e : LoopE} (rest : List LoopE) (h : 1 < e.count.toNat) :
    loopTest e.last (e :: rest) = ({ e with count := e.count - 1 } :: rest, some e.first) := by
  rw [loopTest, if_pos rfl, if_pos h]

/-- A top entry in its last pass ends, and with it its loop alone where no outer one ends there. -/
theorem loopTest_ends {e : LoopE} {rest : List LoopE} (h : e.count.toNat ≤ 1) (hr : ∀ q ∈ rest, q.last ≠ e.last) :
    loopTest e.last (e :: rest) = (rest, none) := by
  rw [loopTest, if_pos rfl, if_neg (Nat.not_lt.mpr h)]
  exact loopTest_of_not_end (List.any_eq_false.mpr fun q hq => by simpa using hr q hq)

/-! ### The flow after an instruction (R97, R100) -/

section Flow

variable {o : Issued} (hd : o.lane.delay = .none)

include hd

/-- A branch is followed by its delay slot. -/
theorem advance_starts_branch {t : Option (BitVec 12)} (hf : o.flow = .branch t) :
    (advance o).delay = .branch t ∧ (advance o).pc = o.lane.pc + 1 := by
  simp only [advance, hd, hf, and_self]

/-- A loop that starts or is skipped goes to its address at once. -/
theorem advance_goto {a : BitVec 12} (hf : o.flow = .goto a) :
    (advance o).pc = a ∧ loopsOf (advance o) = loopsOf o.lane := by
  simp only [advance, hd, hf, loopsOf, and_self]

/-- After an instruction that changes no flow, the loops that end there say what follows. -/
theorem advance_along (hf : o.flow = .seq) {es : List LoopE} {r : Option (BitVec 12)}
    (hl : loopTest o.lane.pc (loopsOf o.lane) = (es, r)) :
    (advance o).pc = r.getD (o.lane.pc + 1) ∧ loopsOf (advance o) = es := by
  have hl' : loopTest o.lane.pc (bankOf o.lane.cur o.lane.shadow).loops = (es, r) := hl
  cases r with
  | none =>
    have ha : advance o =
        cacheDrop { setLoops es { o.lane with slot := o.lane.slot + o.cost } with pc := o.lane.pc + 1 } := by
      simp only [advance, hd, hf, loopsOf, hl']
    rw [ha]
    exact ⟨cacheDrop_pc _, (loopsOf_cacheDrop _).trans (loopsOf_setLoops es _)⟩
  | some f =>
    have ha : advance o =
        cacheDrop (cacheBack f { setLoops es { o.lane with slot := o.lane.slot + o.cost } with pc := f }) := by
      simp only [advance, hd, hf, loopsOf, hl']
    rw [ha]
    refine ⟨(cacheDrop_pc _).trans (cacheBack_pc _ _), ?_⟩
    rw [loopsOf_cacheDrop, loopsOf_cacheBack]
    exact loopsOf_setLoops es _

end Flow

/-! ### Branches (R129, R143) -/

/-- A branch with a condition code that is not the reserved one, outside a delay slot and the end of a loop. -/
theorem exec_branch {c : Instr} {s : State} {key : Nat} {cond : BitVec 4} {body : LaneS → Issued} {k : LaneS}
    {t : Option (BitVec 12)} (he : exec c s = .next (issue key false (condInstr cond body) s))
    (h : canIssue s key = true) (hc : cond ≠ 15) (hd : (seenLane s key).delay = .none)
    (hend : atLoopEnd (seenLane s key) = false) (hb : body (seenLane s key) = { lane := k, flow := .branch t })
    (hk : k.delay = (seenLane s key).delay) :
    ∃ u, exec c s = .next u ∧ (laneAt u key).pc = k.pc + 1 ∧ (laneAt u key).delay = .branch t ∧
      (laneAt u key).pend = k.pend := by
  have ho : condInstr cond body (seenLane s key) = { lane := k, flow := .branch t } := by
    rw [condInstr, if_neg hc, flowInstr_of_free hd hend, hb]
  obtain ⟨u, hu, hl⟩ := exec_of_outcome he h ho rfl nofun
  obtain ⟨hdelay, hpc⟩ := advance_starts_branch (o := { lane := k, flow := .branch t }) (hk.trans hd) rfl
  obtain ⟨hpend, -, -⟩ := advance_spec { lane := k, flow := .branch t }
  refine ⟨u, hu, ?_⟩
  rw [hl]
  exact ⟨hpc, hdelay, hpend⟩

/-! ### Loops (R145 to R148) -/

section Loops

variable {c : Instr} {s : State} {key : Nat} {body : LaneS → Issued} {count : BitVec 16} {last : BitVec 12} {rep : Bool}
  (he : exec c s = .next (issue key false (flowInstr body) s)) (h : canIssue s key = true)
  (hd : (seenLane s key).delay = .none) (hend : atLoopEnd (seenLane s key) = false)

include he h hd hend

/-- A loop instruction that goes to an address at once. -/
theorem exec_goto {k : LaneS} {a : BitVec 12} (hb : body (seenLane s key) = { lane := k, flow := .goto a })
    (hk : k.delay = (seenLane s key).delay) :
    ∃ t, exec c s = .next t ∧ (laneAt t key).pc = a ∧ loopsOf (laneAt t key) = loopsOf k := by
  obtain ⟨t, ht, hl⟩ := exec_of_outcome he h ((flowInstr_of_free hd hend body).trans hb) rfl nofun
  refine ⟨t, ht, ?_⟩
  rw [hl]
  exact advance_goto (o := { lane := k, flow := .goto a }) (hk.trans hd) rfl

/-- A count of 0 skips the body. -/
theorem exec_loop_skipped (hb : body (seenLane s key) = loopStart count last rep (seenLane s key)) (h0 : count = 0) :
    ∃ t, exec c s = .next t ∧ (laneAt t key).pc = last + 1 ∧ loopsOf (laneAt t key) = loopsOf (seenLane s key) :=
  exec_goto he h hd hend (hb.trans (if_pos h0)) rfl

/-- A loop that starts pushes its entry. -/
theorem exec_loop_pushed (hb : body (seenLane s key) = loopStart count last rep (seenLane s key)) (h0 : count ≠ 0)
    (hlen : (loopsOf (seenLane s key)).length < 4) :
    let l := seenLane s key
    ∃ t, exec c s = .next t ∧ (laneAt t key).pc = l.pc + 1 ∧
      loopsOf (laneAt t key) = { first := l.pc + 1, last := last, count := count, rep := rep } :: loopsOf l := by
  intro l
  obtain ⟨k, hk, hdelay, hloops⟩ : ∃ k, loopStart count last rep l = { lane := k, flow := .goto (l.pc + 1) } ∧
      k.delay = l.delay ∧ loopsOf k = { first := l.pc + 1, last := last, count := count, rep := rep } :: loopsOf l := by
    rw [loopStart, if_neg h0, if_neg (Nat.not_le.mpr hlen)]
    refine ⟨_, rfl, ?_⟩
    cases rep with
    | true => exact ⟨rfl, loopsOf_setLoops _ l⟩
    | false => exact ⟨rfl, loopsOf_setLoops _ l⟩
  rw [← hloops]
  exact exec_goto he h hd hend (hb.trans hk) hdelay

/-- A fifth entry stops the block. -/
theorem exec_loop_overflow (hb : body (seenLane s key) = loopStart count last rep (seenLane s key)) (h0 : count ≠ 0)
    (hlen : 4 ≤ (loopsOf (seenLane s key)).length) :
    ∃ t, exec c s = .next t ∧ (laneAt t key).phase = .over ∧ (laneAt t key).st = 3 := by
  have ho : flowInstr body (seenLane s key) = { lane := seenLane s key, flow := .stop } := by
    rw [flowInstr_of_free hd hend, hb, loopStart, if_neg h0, if_pos hlen]
  refine ⟨_, he, ?_⟩
  rw [issue_of_canIssue _ h, ho]
  dsimp only
  rw [if_pos rfl, laneAt_laneStop]
  exact ⟨rfl, rfl⟩

end Loops

/-- LPOP pops the top entry. -/
theorem exec_lpop {s : State} {key : Nat} {e : LoopE} {rest : List LoopE} (h : canIssue s key = true)
    (hd : (seenLane s key).delay = .none) (hend : atLoopEnd (seenLane s key) = false)
    (hl : loopsOf (seenLane s key) = e :: rest) :
    ∃ t, exec (.lpop key false) s = .next t ∧ (laneAt t key).pc = (seenLane s key).pc + 1 ∧
      loopsOf (laneAt t key) = rest := by
  have hrest : (rest.any fun q => q.last == (seenLane s key).pc) = false := by
    rw [atLoopEnd, hl, List.any_cons, Bool.or_eq_false_iff] at hend
    exact hend.2
  obtain ⟨t, ht, hlane⟩ := exec_of_outcome (c := .lpop key false)
    (o := { lane := cacheDrop (setLoops rest (seenLane s key)) }) rfl h
    (by rw [flowInstr_of_free hd hend, hl]) rfl nofun
  obtain ⟨hpc, hloops⟩ := advance_along (o := { lane := cacheDrop (setLoops rest (seenLane s key)) }) (es := rest)
    (r := none) ((cacheDrop_delay _).trans hd) rfl (by
      rw [cacheDrop_pc, loopsOf_cacheDrop, loopsOf_setLoops]
      exact loopTest_of_not_end hrest)
  refine ⟨t, ht, ?_⟩
  rw [hlane]
  exact ⟨hpc.trans (congrArg (· + 1) (cacheDrop_pc _)), hloops⟩

/-! ### Reserved encodings (R123) -/

/-- A NOTE of a cause that is noted once per block load is marked, and was marked before or is reported now. -/
theorem laneNote_marked {key cause code : Nat} (hcause : cause ≠ 0) (hc : srcCond code = false) (hl : srcLine code = true)
    (s : State) :
    let t := laneNote key cause code s
    cause ∈ (laneAt t key).noted ∧
      (cause ∈ (laneAt s key).noted ∨ ∃ r ∈ t.flt.lineQ, r.src = code ∧ r.obj = blockOf key) := by
  rw [laneNote, if_neg hcause]
  split
  · next hn => exact ⟨List.contains_iff_mem.mp hn, .inl (List.contains_iff_mem.mp hn)⟩
  · refine ⟨?_, .inr (mem_lineQ_raise hc hl _ _ _)⟩
    rw [laneAt_raise, laneAt_onLane]
    exact List.mem_append_right _ (List.mem_singleton_self cause)

theorem issue_noteNop {s : State} {key cause code : Nat} {body : LaneS → Issued} (h : canIssue s key = true)
    (hb : body (seenLane s key) = noteNop (seenLane s key) cause code) :
    let u := laneNote key cause code (atIssue key s)
    issue key false body s =
      onLane key (fun _ => { advance (noteNop (seenLane s key) cause code) with noted := (laneAt u key).noted }) u := by
  rw [issue_of_canIssue body h, hb]
  exact if_neg nofun

/-- An instruction that is a no-operation with a NOTE. -/
theorem exec_noteNop {c : Instr} {s : State} {key cause code : Nat} {body : LaneS → Issued}
    (he : exec c s = .next (issue key false body s)) (h : canIssue s key = true)
    (hb : body (seenLane s key) = noteNop (seenLane s key) cause code) (hcause : cause ≠ 0) (hc : srcCond code = false)
    (hl : srcLine code = true) :
    let l := seenLane s key
    ∃ t, exec c s = .next t ∧ (laneAt t key).pend = l.pend ∧ (laneAt t key).slot = l.slot + 1 ∧
      regsOf (laneAt t key).cur = regsOf l.cur ∧ cause ∈ (laneAt t key).noted ∧
      (cause ∈ l.noted ∨ ∃ r ∈ t.flt.lineQ, r.src = code ∧ r.obj = blockOf key) := by
  intro l
  obtain ⟨hpend, hslot, hregs⟩ := advance_spec (noteNop l cause code)
  have hnote := laneNote_marked (key := key) hcause hc hl (atIssue key s)
  rw [laneAt_atIssue] at hnote
  refine ⟨_, he.trans (congrArg _ (issue_noteNop h hb)), ?_⟩
  rw [laneAt_onLane]
  exact ⟨hpend, hslot, hregs, hnote⟩

/-! ### The end of a Lane's wave (R130, 01 R25) -/

/-- The OUT words go to the signals, and nothing else changes. -/
theorem handOut_frame (key : Nat) (s : State) : ∃ sig, handOut key s = { s with sig := sig } := by
  unfold handOut
  split
  · exact ⟨s.sig, rfl⟩
  · dsimp only
    split
    · exact ⟨s.sig, rfl⟩
    · refine List.foldlRecOn (motive := fun t : State => ∃ sig, t = { s with sig := sig }) _ _ ⟨s.sig, rfl⟩ ?_
      rintro t ⟨sig, rfl⟩ ch -
      exact ⟨_, rfl⟩

/-- A report that depends on a condition changes nothing but the fault collector. -/
theorem raiseIf_frame (b : Bool) (c o : Nat) (d : BitVec 64) (s : State) :
    ∃ flt, (if b then raise c o d s else s) = { s with flt := flt } := by
  cases b with
  | true => exact ⟨_, raise_flt c o d s⟩
  | false => exact ⟨s.flt, rfl⟩

/-- A Lane that has committed its wave: every result has reached its register. -/
def committed (l : LaneS) : LaneS :=
  { settleAll l with
    cmt := (settleAll l).cur, phase := .done, haltWait := false, mac := none
    fade := (settleAll l).fade.map fun p => (p.1 + 1, p.2) }

/-- A Lane whose program has ended, with nothing left to wait for, commits its context. -/
theorem exec_laneWaveComplete {s : State} {key : Nat}
    (h : s.wave.live = true ∧ (laneAt s key).phase = .halting ∧ (laneAt s key).evPend = 0 ∧ (laneAt s key).evSrc = 0 ∧
      (laneAt s key).sosQ = [] ∧ (laneAt s key).slot ≤ laneBudget s) :
    ∃ sig flt, exec (.laneWaveComplete key) s =
      .next { onLane key (fun _ => committed (laneAt s key)) s with sig := sig, flt := flt } := by
  obtain ⟨sig, hsig⟩ := handOut_frame key (onLane key (fun _ => committed (laneAt s key)) s)
  obtain ⟨flt, hflt⟩ := raiseIf_frame (!gvSet (laneAt s key) && gvSet (settleAll (laneAt s key))) 0x0301 (blockOf key)
    0 (handOut key (onLane key (fun _ => committed (laneAt s key)) s))
  refine ⟨sig, flt, (if_pos h).trans (congrArg _ (hflt.trans ?_))⟩
  rw [hsig]

end Sys2Proof.Proofs
end

section
/-! O19, O21, O22, O24 and O29, from the rules above. -/

namespace Sys2Proof.Proofs

open Sys2Proof Sys2Proof.Machine Sys2Proof.Laws

/-- Settles O19: the three branches differ in their target, and a taken call writes its link register. -/
theorem laneBranches : Obligations.LaneBranches := by
  intro s key cond d target h hc l hd hend taken
  refine ⟨exec_branch rfl h hc hd hend rfl rfl, exec_branch rfl h hc hd hend rfl rfl, ?_⟩
  have hcall {k : LaneS} {t : Option (BitVec 12)} :=
    exec_branch (c := .call key false cond d target) (k := k) (t := t) rfl h hc hd hend
  cases ht : taken with
  | true => exact hcall (if_pos ht) rfl
  | false =>
    obtain ⟨u, hu, hpc, hdelay, hpend⟩ := hcall (if_neg (ne_true_of_eq_false ht)) rfl
    exact ⟨u, hu, hpc, hdelay, hpend.trans (List.append_nil _).symm⟩

/-- Settles O21: REP and LOOP start a loop of the range they check, with a count of their own. -/
theorem laneLoops : Obligations.LaneLoops := by
  intro s key count len d last h l hd hend fin
  refine ⟨fun hfit h0 => ?_, fun hfit h0 hlen => ?_, fun hfit h0 hlen => ?_, fun hfit h0 hlen => ?_, fun hfit h0 => ?_,
    fun e rest hl => exec_lpop h hd hend hl⟩
  · exact exec_loop_skipped (c := .rep key false count len) rfl h hd hend (if_neg (Nat.not_lt.mpr hfit)) h0
  · exact exec_loop_pushed (c := .rep key false count len) rfl h hd hend (if_neg (Nat.not_lt.mpr hfit)) h0 hlen
  · exact exec_loop_overflow (c := .rep key false count len) rfl h hd hend (if_neg (Nat.not_lt.mpr hfit)) h0 hlen
  · exact exec_loop_pushed (c := .loop key false d last) rfl h hd hend (if_neg (Nat.not_lt.mpr hfit)) h0 hlen
  · exact exec_loop_skipped (c := .loop key false d last) rfl h hd hend (if_neg (Nat.not_lt.mpr hfit)) h0

/-- Settles O22: a NOP changes no flow, so that only the top entry says what follows. -/
theorem laneLoopEnd : Obligations.LaneLoopEnd := by
  intro s key e rest h l hd hl hlast
  obtain ⟨t, he, ht⟩ := exec_of_outcome (c := .nop key false) rfl h rfl rfl nofun
  refine ⟨fun hcount => ⟨t, he, ?_⟩, fun hcount hrest => ⟨t, he, ?_⟩⟩
  · rw [ht]
    refine advance_along (o := { lane := l }) (r := some e.first) hd rfl ?_
    rw [← loopTest_back rest hcount, hlast, ← hl]
  · rw [ht]
    refine advance_along (o := { lane := l }) (r := none) hd rfl ?_
    rw [← loopTest_ends hcount (by rwa [hlast]), hlast, ← hl]

/-- Settles O24: each of the four is a no-operation with the NOTE of cause 10. -/
theorem laneIllegalWord : Obligations.LaneIllegalWord := by
  intro s key word d target c h hc
  obtain ⟨body, he, hb⟩ : ∃ body, exec c s = .next (issue key false body s) ∧
      body (seenLane s key) = noteNop (seenLane s key) 10 0x0302 := by
    obtain ⟨rfl, hw⟩ | rfl | rfl | rfl := hc
    · refine ⟨fun l => noteNop l 10 0x0302, ?_, rfl⟩
      show execIllegalOp _ _ _ _ = _
      rw [execIllegalOp, hw]
      rfl
    all_goals exact ⟨_, rfl, if_pos rfl⟩
  exact exec_noteNop he h hb (by decide) (by decide) (by decide)

/-- Settles O29: the Lane of the key is the committed one; beside it stand the signals and the fault collector. -/
theorem laneWaveCompletes : Obligations.LaneWaveCompletes := by
  intro s key hlive l hphase hpend hsrc hq hslot
  obtain ⟨sig, flt, he⟩ := exec_laneWaveComplete ⟨hlive, hphase, hpend, hsrc, hq, hslot⟩
  have hself := laneAt_onLane key (fun _ => committed l) s
  exact ⟨_, he, congrArg LaneS.phase hself, congrArg LaneS.cmt hself, (congrArg LaneS.cur hself :), rfl,
    fun i hi => laneAt_onLane_other key i _ s hi⟩

end Sys2Proof.Proofs
end

section
/-! Players and plans (05 R156, R160, R166 to R172, R175, R180): what reports and answers leave alone in the plan, and what
each event of a player and of a plan does. -/

namespace Sys2Proof.Proofs

open Sys2Proof Sys2Proof.Machine Sys2Proof.Laws

variable {s : State}

/-! ### Players (R171, R172) -/

/-- A change of a player changes it. -/
@[simp] theorem player_onPlayer (p : Nat) (g : PlayerS → PlayerS) (s : State) :
    tget {} (onPlayer p g s).plan.players p = g (tget {} s.plan.players p) :=
  tget_tmod_same {} s.plan.players p g

/-- A change of a player leaves the others alone. -/
theorem player_onPlayer_other {p j : Nat} (g : PlayerS → PlayerS) (s : State) (h : j ≠ p) :
    tget {} (onPlayer p g s).plan.players j = tget {} s.plan.players j :=
  tget_tmod_other {} s.plan.players p j g h

/-- Two changes that do the same to a player as it is are the same change of the state. -/
theorem onPlayer_congr {p : Nat} {f g : PlayerS → PlayerS}
    (h : f (tget {} s.plan.players p) = g (tget {} s.plan.players p)) : onPlayer p f s = onPlayer p g s := by
  simp only [onPlayer, tmod, State.onPlan, h]

/-- The player `q` at the end of its entry: while it plays, it begins the entry again when it is CONTINUOUS or has a loop left;
otherwise it stops (R172). -/
def entryEnded (q : PlayerS) : PlayerS :=
  if q.st = 2 ∧ q.mode = 2 then { q with pos := 0 }
  else if q.st = 2 ∧ q.mode = 1 ∧ 1 < q.loops then { q with pos := 0, loops := q.loops - 1 }
  else { q with st := 0, loops := 0, byLevel := false }

theorem entryEnded_of_playing {q : PlayerS} (h : q.st = 2) : entryEnded q =
    if q.mode = 2 then { q with pos := 0 }
    else if q.mode = 1 ∧ 1 < q.loops then { q with pos := 0, loops := q.loops - 1 }
    else { q with st := 0, loops := 0, byLevel := false } := by
  simp only [entryEnded, h, true_and]

theorem entryEnded_of_stopping {q : PlayerS} (h : q.st = 3) :
    entryEnded q = { q with st := 0, loops := 0, byLevel := false } := by
  have h2 : q.st ≠ 2 := by omega
  simp only [entryEnded, h2, false_and, if_false]

/-- An armed player starts at its start wave (R171). -/
theorem exec_playerBegin {p : Fin 64} (hst : (tget {} s.plan.players p.val).st = 1) (hl : s.wave.live = true)
    (hw : (tget {} s.plan.players p.val).startAt.toNat ≤ s.wave.num.toNat) :
    exec (.playerBegin p) s = .next (playFirst (onPlayer p.val (fun q => { q with st := 2, pos := 0 }) s) p.val) :=
  if_pos ⟨hst, hl, hw⟩

/-- A stop takes effect at the stop wave, or before it where the row of the player's record crosses zero (R172). -/
theorem exec_playerStopEffect {p : Fin 64} (hst : (tget {} s.plan.players p.val).st = 3) (hl : s.wave.live = true)
    (hw : (tget {} s.plan.players p.val).stopAt.toNat ≤ s.wave.num.toNat ∨
      ∃ r, playRec s p.val = some r ∧ crosses s r.row = true) :
    exec (.playerStopEffect p) s = .next (playSilence p.val s) := by
  show execPlayerStopEffect p s = _
  unfold execPlayerStopEffect
  refine if_pos ⟨hst, hl, ?_⟩
  obtain hdue | ⟨r, hr, hc⟩ := hw
  · exact .inr hdue
  · refine .inl ?_
    rw [hr]
    exact hc

/-- A player that has given the last sample of its entry is at its end (R172). -/
theorem exec_playerEntryEnd {p : Fin 64}
    (hst : (tget {} s.plan.players p.val).st = 2 ∨ (tget {} s.plan.players p.val).st = 3)
    (hpos : libSamples s (tget {} s.plan.players p.val).entry ≤ (tget {} s.plan.players p.val).pos) :
    exec (.playerEntryEnd p) s = .next (onPlayer p.val entryEnded s) := by
  show execPlayerEntryEnd p s = _
  unfold execPlayerEntryEnd
  extract_lets q
  refine (if_pos ⟨hst, hpos⟩).trans ?_
  by_cases hc : q.st = 2 ∧ q.mode = 2
  · rw [if_pos hc]
    exact congrArg _ (onPlayer_congr (if_pos hc).symm)
  · rw [if_neg hc]
    by_cases hl : q.st = 2 ∧ q.mode = 1 ∧ 1 < q.loops
    · rw [if_pos hl]
      exact congrArg _ (onPlayer_congr ((if_neg hc).trans (if_pos hl)).symm)
    · rw [if_neg hl]
      exact congrArg _ (onPlayer_congr ((if_neg hc).trans (if_neg hl)).symm)

/-! ### What reports and answers leave alone -/

@[simp] theorem raise_plan (c o : Nat) (d : BitVec 64) (s : State) : (raise c o d s).plan = s.plan := by
  rw [raise_flt]

@[simp] theorem raise_wave (c o : Nat) (d : BitVec 64) (s : State) : (raise c o d s).wave = s.wave := by
  rw [raise_flt]

@[simp] theorem kioskIrq_plan (k : Nat) (s : State) : (kioskIrq k s).plan = s.plan := by
  rw [kioskIrq_only, onHost_plan]

/-- An answer stands in its Kiosk, and moves the counter of a sealed session on. -/
@[simp] theorem answer_plan (k status detail : Nat) (b : List Byte) (s : State) :
    (answer k status detail b s).plan = s.plan := by
  unfold answer
  extract_lets ks
  split
  · rfl
  · split
    · rfl
    · rw [kioskIrq_plan]
      dsimp only [onKiosk, onHost_plan]
      split <;> rfl

/-! ### Staging, the effect of a plan and of its unload (R175, R180) -/

/-- Staging that completes with a finding ends the load, and its Kiosk is told (R175). -/
theorem exec_planStaged_fails {q : Staged} {f : Fail} (first : BitVec 64) (hq : s.plan.staged = some q)
    (he : q.effect = none) (hr : rateWaits q s = false) (hf : stagedFail q s = some f) :
    exec (.planStaged first) s = .next (answerFail q.kiosk f (s.onPlan fun p => { p with staged := none })) := by
  show execPlanStaged first s = _
  simp [execPlanStaged, hq, he, hr, hf]

/-- Staging that completes schedules the plan; where the rate stays, for the wave that the load names, or two waves on
(R175). -/
theorem exec_planStaged_schedules {q : Staged} (first : BitVec 64) (hq : s.plan.staged = some q)
    (he : q.effect = none) (hr : rateWaits q s = false) (hf : stagedFail q s = none) :
    ∃ t e, exec (.planStaged first) s = .next t ∧
      t.plan.staged = some { q with
        kiosk := 32
        effect := some e
        rateChange := s.wave.rate != some q.img.rate } ∧
      ((s.wave.rate != some q.img.rate) = false → e = if q.atSample = 0 then accWave s + 2 else q.atSample) := by
  have hgo : ¬ (q.effect.isSome || rateWaits q s) = true := by rw [he, hr]; decide
  show ∃ t e, execPlanStaged first s = .next t ∧ _
  rw [execPlanStaged, hq]
  dsimp -zeta only
  rw [if_neg hgo, hf]
  dsimp -zeta only
  extract_lets t rate due e u v
  exact ⟨_, e, rfl, congrArg PlanS.staged (answer_plan ..), fun h => if_neg (ne_true_of_eq_false h)⟩

/-- A staged plan whose rate stays takes effect at its wave (R175). -/
theorem exec_planTakeEffect {q : Staged} {w : BitVec 64} (hq : s.plan.staged = some q) (he : q.effect = some w)
    (hw : waveCome w s = true) (hr : q.rateChange = false) :
    exec .planTakeEffect s = .next (takeEffect q.img q.rateChange (sampleNow s) s) := by
  show execPlanTakeEffect s = _
  simp only [execPlanTakeEffect, hq, he]
  exact if_pos ⟨hw, .inl hr⟩

/-- An accepted unload takes effect at its wave (R180). -/
theorem exec_planUnloadEffect {w : BitVec 64} (hu : s.plan.unload = some w) (hw : waveCome w s = true) :
    exec .planUnloadEffect s = .next (unloadPlan s) := by
  show execPlanUnloadEffect s = _
  simp only [execPlanUnloadEffect, hu]
  exact if_pos hw

/-! ### Equalisation (R156, R160) -/

/-- A table is published when it differs from the present one for a declared path (R160). -/
theorem latSet_lat {i : Image} (w : BitVec 64) (t : Tab LatE) (hi : s.plan.run = some i) :
    (latSet w t s).plan.lat = if latChanged i s.plan.lat t = 0 then s.plan.lat else t := by
  simp only [latSet, hi]
  split
  · rfl
  · rw [raise_plan]
    rfl

/-- A publication touches the plan's table and the fault collector only. -/
theorem latSet_plan_flt (w : BitVec 64) (t : Tab LatE) (s : State) :
    latSet w t s = { s with plan := (latSet w t s).plan, flt := (latSet w t s).flt } := by
  unfold latSet
  split
  · rfl
  · extract_lets n
    split
    · rfl
    · rw [raise_flt]
      rfl

/-- From 64 waves after a restart, unless a bypass is about to begin, the table publishes the depths of the settled plan
(R156). -/
theorem exec_eqPublishH {r : BitVec 64} {i : Image} (hr : s.plan.restart = some r) (hi : s.plan.run = some i)
    (hl : s.wave.live = true) (hw : r.toNat + 64 ≤ s.wave.num.toNat) (hb : s.plan.bypassDue.any (·.1) = false) :
    exec .eqPublishH s = .next (latSet (r + 66) (latPublish i (classLatency i) s.plan.lat) s) := by
  show execEqPublishH s = _
  simp only [execEqPublishH, hr, hi]
  exact if_pos ⟨hl, hw, hb⟩

/-- From 66 waves after a restart every delay has its full length, and the plan is settled (R156, R160). -/
theorem exec_eqSettle {r : BitVec 64} {i : Image} (hr : s.plan.restart = some r) (hi : s.plan.run = some i)
    (hl : s.wave.live = true) (hw : r.toNat + 66 ≤ s.wave.num.toNat) :
    exec .eqSettle s = .next (raise 0x0003 0 0 ((s.onPlan fun p => { p with
      restart := none
      eqOn := true
      lat := latTable i (classLatency i) }).onWave fun w => { w with settled := true })) := by
  show execEqSettle s = _
  simp only [execEqSettle, hr, hi]
  exact if_pos ⟨hl, hw⟩

/-! ### The change of blocks (R167, R168)

That the table takes the new depths in the wave of the swap, where equalisation is off, is the model's reading (log entry
102). -/

/-- A swap that is due replaces the chain and is logged; without equalisation the table changes with it. -/
theorem exec_blockSwap {q : Swap} {i : Image} (hq : s.plan.swap = some q) (hi : s.plan.run = some i)
    (hd : swapDue q i s = true) :
    let u := raise 0x0005 0 s.wave.num (swapChain q i s)
    exec .blockSwap s = if u.plan.eqOn then .next u else .next (swapTable q.img u) := by
  show execBlockSwap s = _
  simp only [execBlockSwap, hq, hi]
  exact if_pos hd

/-! ### Fades (R166) -/

/-- A Lane after its fade: only the second set of sections runs on, and the writes that waited are due before the others. -/
def fadeEnded (l : LaneS) : LaneS :=
  { l with
    cmt := { l.cmt with
      sec := l.cmt.sec2
      sec2 := [] }
    cur := { l.cur with
      sec := l.cur.sec2
      sec2 := [] }
    fade := none
    writes := l.fadeWait ++ l.writes
    fadeWait := [] }

/-- The fade of a block that is no delay block, and that has one Lane, ends there after its samples (R166). -/
theorem exec_fadeEnd_lane {b : Fin 1024} {i : Image} {k n f : Nat} (hi : s.plan.run = some i)
    (ht : ∀ c, imgBlock i b.val = some c → c.type ≠ 6) (hk : laneCopies s b.val = [k])
    (hf : (laneAt s k).fade = some (n, f)) (hn : f ≤ n) :
    exec (.fadeEnd b) s = .next (onLane k (fun _ => fadeEnded (laneAt s k)) s) := by
  show execFadeEnd b s = _
  unfold execFadeEnd
  extract_lets id isDelay keys
  have hlane : isDelay = false := by
    simp only [isDelay, hi, Option.bind_some]
    split
    case h_1 c hc => exact beq_false_of_ne (ht c hc)
    case h_2 => rfl
  have hkeys : keys = [k] := by simp only [keys, hlane, Bool.false_eq_true, if_false, id, hk]
  rw [hkeys, hlane]
  simp only [List.foldl_cons, List.foldl_nil, hf, hn, if_true, Bool.false_eq_true, if_false, fadeEnded]

end Sys2Proof.Proofs
end

section
/-! O41 and O42, from the rules above. -/

namespace Sys2Proof.Proofs

open Sys2Proof Sys2Proof.Machine Sys2Proof.Laws

/-- Settles O41: each clause is the rule of its event; at the end of an entry the player is `entryEnded`, by its state. -/
theorem playerEvents : Obligations.PlayerEvents := by
  intro s p q
  refine ⟨fun hst hl hw => exec_playerBegin hst hl hw, fun hst hl hw => exec_playerStopEffect hst hl hw,
    fun hpos hst => ⟨_, exec_playerEntryEnd (.inl hst) hpos, ?_, fun j hj => player_onPlayer_other _ s hj⟩,
    fun hpos hst => ⟨_, exec_playerEntryEnd (.inr hst) hpos, ?_⟩⟩
  · exact (player_onPlayer p.val entryEnded s).trans (entryEnded_of_playing hst)
  · exact (player_onPlayer p.val entryEnded s).trans (entryEnded_of_stopping hst)

/-- Settles O42: each clause is the rule of its event; what the statement says of the staged plan, the table and the Lane is
then read from the state that the rule gives. -/
theorem planEvents : Obligations.PlanEvents := by
  refine ⟨fun s q f first hq he hr hf => exec_planStaged_fails first hq he hr hf, fun s q first hq he hr hf => ?_,
    fun s q w hq he hw hr => exec_planTakeEffect hq he hw hr, fun s w hu hw => exec_planUnloadEffect hu hw,
    fun s r i hr hi hl => ⟨fun hw hb => ?_, fun hw => ?_⟩, fun s q i hq hi hd => ⟨fun hu => ?_, fun hu => ?_⟩,
    fun s b i k n f hi ht hk hf hn => ?_⟩
  · obtain ⟨t, e, hx, hstaged, hwave⟩ := exec_planStaged_schedules first hq he hr hf
    exact ⟨t, hx, _, hstaged, rfl, rfl, fun h => congrArg some (hwave h)⟩
  · exact ⟨_, exec_eqPublishH hr hi hl hw hb, latSet_lat _ _ hi, latSet_plan_flt _ _ s⟩
  · refine ⟨_, exec_eqSettle hr hi hl hw, ?_⟩
    rw [raise_plan, raise_wave]
    exact ⟨rfl, rfl, rfl, rfl⟩
  · exact (exec_blockSwap hq hi hd).trans (if_pos hu)
  · exact (exec_blockSwap hq hi hd).trans (if_neg (ne_true_of_eq_false hu))
  · refine ⟨_, exec_fadeEnd_lane hi ht hk hf hn, ?_⟩
    rw [laneAt_onLane]
    exact ⟨rfl, rfl, rfl, rfl, rfl⟩

end Sys2Proof.Proofs
end

section
/-! Placement (06 R188 to R205; 01 R15, R16; 13 R436): what the operations of a window leave alone, and what each event of the
placement engine does. -/

namespace Sys2Proof.Proofs

open Sys2Proof Sys2Proof.Machine Sys2Proof.Laws

variable {s : State}

/-! ### What the work of a slack window leaves alone (R188 to R190, R194, R204) -/

/-- What the end of a window reads after its measurements: the wave in progress, and the thresholds that act from the next window
(R188, R212). -/
def windowReads (s : State) : WaveS × Option (BitVec 8 × BitVec 8 × BitVec 8 × BitVec 16) := (s.wave, s.place.thrNext)

@[simp] theorem windowReads_raise (c o : Nat) (d : BitVec 64) (s : State) : windowReads (raise c o d s) = windowReads s := by
  rw [raise_flt]
  rfl

/-- The end of a condition changes nothing but the fault collector. -/
theorem endCond_flt (c o : Nat) (s : State) : endCond c o s = { s with flt := (endCond c o s).flt } := by
  unfold endCond putRep
  split
  · dsimp only
    split <;> rfl
  · rfl

@[simp] theorem windowReads_endCond (c o : Nat) (s : State) : windowReads (endCond c o s) = windowReads s := by
  rw [endCond_flt]
  rfl

@[simp] theorem windowReads_onClk (f : ClkS → ClkS) (s : State) : windowReads (s.onClk f) = windowReads s := rfl

@[simp] theorem windowReads_onTile (k : Nat) (f : TileS → TileS) (s : State) : windowReads (onTile k f s) = windowReads s := rfl

@[simp] theorem windowReads_onWork (w : Nat) (f : WorkS → WorkS) (s : State) : windowReads (onWork w f s) = windowReads s := rfl

@[simp] theorem windowReads_onDist (d : Nat) (f : DistS → DistS) (s : State) : windowReads (onDist d f s) = windowReads s := rfl

@[simp] theorem windowReads_endMove (m : MoveS) (s : State) : windowReads (endMove m s) = windowReads s := rfl

@[simp] theorem windowReads_decideMove (w r : Nat) (s : State) : windowReads (decideMove w r s) = windowReads s := rfl

@[simp] theorem windowReads_noteSpeed (p : Nat × Nat) (s : State) : windowReads (noteSpeed p s) = windowReads s := rfl

@[simp] theorem windowReads_onPlace {f : PlaceS → PlaceS} (h : (f s.place).thrNext = s.place.thrNext) :
    windowReads (s.onPlace f) = windowReads s :=
  congrArg (Prod.mk s.wave) h

/-- A fold leaves alone what each of its steps leaves alone. -/
theorem windowReads_foldl {α : Type} {f : State → α → State} (h : ∀ t a, windowReads (f t a) = windowReads t) (l : List α)
    (s : State) : windowReads (l.foldl f s) = windowReads s :=
  List.foldlRecOn (motive := fun t => windowReads t = windowReads s) l f rfl fun t ht a _ => (h t a).trans ht

@[simp] theorem windowReads_vcoreRequest (s : State) : windowReads (vcoreRequest s) = windowReads s := by
  unfold vcoreRequest
  dsimp only
  repeat' split
  all_goals simp

@[simp] theorem windowReads_abandon (m : MoveS) (s : State) : windowReads (abandon m s) = windowReads s := by
  unfold abandon
  dsimp only
  split <;> simp

@[simp] theorem windowReads_shedWork (w : Nat) (s : State) : windowReads (shedWork w s) = windowReads s := by
  unfold shedWork
  simp [windowReads_foldl fun t m => windowReads_abandon m t]

@[simp] theorem windowReads_shed (mix : Bool) (n : Nat) (s : State) : windowReads (shed mix n s) = windowReads s := by
  induction n generalizing s with
  | zero => rfl
  | succ n ih =>
    unfold shed
    extract_lets ds used have_ short free
    split
    · split
      · rw [ih, windowReads_shedWork]
      · rfl
    · rfl

@[simp] theorem windowReads_rebalance (mix : Bool) (s : State) : windowReads (rebalance mix s) = windowReads s := by
  unfold rebalance
  dsimp only
  rw [windowReads_shed]
  refine windowReads_foldl (fun t d => ?_) _ s
  repeat' split
  all_goals simp

@[simp] theorem windowReads_retryMoves (s : State) : windowReads (retryMoves s) = windowReads s := by
  refine windowReads_foldl (fun t p => ?_) _ s
  split <;> simp

@[simp] theorem windowReads_windowWork (w : Nat) (s : State) : windowReads (windowWork w s) = windowReads s := by
  unfold windowWork
  extract_lets k
  split
  · rfl
  · extract_lets band t1 t2 t3
    have h2 : windowReads t2 = windowReads s := by
      unfold t2
      split <;> simp [t1]
    have h3 : windowReads t3 = windowReads s := by
      unfold t3
      split <;> simp [h2]
    split
    · split <;> simp [h3]
    · exact h3

@[simp] theorem windowReads_windowAvenue (d : Nat) (s : State) : windowReads (windowAvenue d s) = windowReads s := by
  unfold windowAvenue
  extract_lets q mine low t1
  split
  · extract_lets t2 told
    have h2 : windowReads t2 = windowReads s := by
      unfold t2
      split <;> simp [t1]
    split
    · rw [windowReads_vcoreRequest]
      split <;> simp [h2]
    · exact h2
  · simp [t1]

@[simp] theorem windowReads_noteMedians (speeds : List (Nat × Nat)) (s : State) :
    windowReads (noteMedians speeds s) = windowReads s := by
  refine windowReads_foldl (fun t i => ?_) _ s
  dsimp only
  split <;> rfl

/-! ### The end of a slack window (R188 to R190, R194, R204, R212) -/

/-- The state when the work of a window's end is done: speeds, slack and Avenues recorded, abandoned moves tried again, and both
kinds of tile rebalanced. -/
def windowMeasured (speeds : List (Nat × Nat)) (s : State) : State :=
  let s := speeds.foldl (fun s p => noteSpeed p s) (noteMedians speeds s)
  let s := ((s.place.works.filter (·.2.placed)).map (·.1)).foldl (fun s w => windowWork w s) s
  rebalance false (rebalance true (retryMoves (allDistricts.foldl (fun s d => windowAvenue d s) s)))

theorem windowReads_windowMeasured (speeds : List (Nat × Nat)) (s : State) :
    windowReads (windowMeasured speeds s) = windowReads s := by
  unfold windowMeasured
  simp [windowReads_foldl fun t d => windowReads_windowAvenue d t, windowReads_foldl fun t w => windowReads_windowWork w t,
    windowReads_foldl fun t p => windowReads_noteSpeed p t]

/-- The thresholds that waited act (R212). -/
def thresholdsTaken (s : State) : State :=
  match s.place.thrNext with
  | some (w, m, r, k) =>
    s.onPlace fun p => { p with
      warn := w
      move := m
      retire := r
      shadowK := k
      thrNext := none }
  | none => s

theorem thresholdsTaken_none (s : State) : (thresholdsTaken s).place.thrNext = none := by
  unfold thresholdsTaken
  split
  · rfl
  · assumption

theorem thresholdsTaken_window (s : State) : (thresholdsTaken s).place.window = s.place.window := by
  unfold thresholdsTaken
  split <;> rfl

theorem thresholdsTaken_of_some {w m r : BitVec 8} {k : BitVec 16} (h : s.place.thrNext = some (w, m, r, k)) :
    (thresholdsTaken s).place.warn = w ∧ (thresholdsTaken s).place.move = m ∧ (thresholdsTaken s).place.retire = r ∧
      (thresholdsTaken s).place.shadowK = k := by
  simp [thresholdsTaken, h]

/-- The window that ends is told by its first wave, and its successor begins with the thresholds that waited (R188, R212). -/
theorem exec_slackWindowEnd (speeds : List (Nat × Nat)) (hl : s.wave.live = true) (hw : s.wave.num.toNat % 256 = 255)
    (hn : nolutDown s = false) :
    exec (.slackWindowEnd speeds) s = .next (placeSnap (thresholdsTaken
      ((windowMeasured speeds s).onPlace fun p => { p with window := (windowMeasured speeds s).wave.num - 255 }))) := by
  have hup : ¬ (s.wave.live = true ∧ s.wave.num.toNat % 256 = 255 ∧ nolutDown s = true) := by simp [hn]
  show execSlackWindowEnd speeds s = _
  rw [execSlackWindowEnd, if_neg hup, if_pos ⟨hl, hw⟩]
  extract_lets t1 t2 ws t3 t4 t5 t6
  have h5 : windowMeasured speeds s = t5 := rfl
  rw [h5]
  clear_value t5
  rfl

/-- While Nolut restarts the measurements of the window are dropped. That what the firmware decides pauses is the model's reading
(log entry 169). -/
theorem exec_slackWindowEnd_restart (speeds : List (Nat × Nat)) (hl : s.wave.live = true)
    (hw : s.wave.num.toNat % 256 = 255) (hn : nolutDown s = true) :
    exec (.slackWindowEnd speeds) s = .next (windowDrop s) :=
  if_pos ⟨hl, hw, hn⟩

/-! ### Transfers and shadow runs (R192 to R194) -/

/-- A transfer that completes names the next wave as wave j (R192). -/
theorem exec_contextTransferComplete (w : Nat) (s : State) :
    exec (.contextTransferComplete w) s = .next (s.onPlace fun p => { p with
      moving := p.moving.map fun m => if m.work = w ∧ m.j = none then { m with j := some (nextWave s) } else m }) := by
  show execContextTransferComplete w s = _
  simp only [execContextTransferComplete, Bool.and_eq_true, beq_iff_eq, Option.isNone_iff_eq_none]

/-- A shadow run ends when both of its sites have completed its last wave; its comparison waits for the flip (R193). -/
theorem exec_shadowRunEnd {w : Nat} {m : MoveS} (equal : Bool) (hm : runOver s .planned w = some m)
    (h1 : s.wave.done.contains w = true) (h2 : s.wave.done.contains (0x10000 + w) = true) :
    exec (.shadowRunEnd w equal) s = .next (s.onPlace fun p => { p with
      moving := p.moving.map fun x => if x = m then { m with ended := some equal } else x }) := by
  have hx (x : MoveS) : (if x = m then { x with ended := some equal } else x) =
      if x = m then { m with ended := some equal } else x := by
    split
    · next e => rw [e]
    · rfl
  show execShadowRunEnd w equal s = _
  simp only [execShadowRunEnd, hm, h1, h2, Bool.and_self, if_true, hx]

/-- Of one planned move whose shadow run has ended, the flip makes a takeover or a tie-break (R193, R194). -/
theorem shadowEnds_single {m : MoveS} {equal : Bool} (hs : s.place.moving = [m]) (hk : m.kind = .planned)
    (he : m.ended = some equal) :
    shadowEnds s = if (m.equal && equal) = true then takeOver m s else startTie m.work m.dd m.dt (abandon m s) := by
  cases equal <;> simp [shadowEnds, hs, hk, he]

/-! ### Audits and tie-breaks (R196 to R198) -/

/-- A district whose turn has come audits the work that is due on an idle tile, and its next turn counts from now (R196). -/
theorem exec_auditStart {d : Fin 52} {x w t : Nat} (hon : s.place.audOn = true) (hl : s.wave.live = true)
    (hr : s.plan.run.isSome = true) (hh : heldDistrict s d.val = false) (hm : migrating s < 8) (hn : nolutDown s = false)
    (ho : occupants s d.val ≠ [])
    (hc : (tget {} s.place.dist d.val).auditAt + s.place.audCycle.toNat * 100000 / (occupants s d.val).length ≤ s.clk.now)
    (hp : auditPick s d.val = some (x, w)) (ht : auditOn s d.val = some t) :
    ∃ n, exec (.auditStart d) s = .next (startMove .audit w (d.val, 0xFF, t, (workAt s w).slot) s.place.audWin.toNat
      (nextWave s) (onDist d.val (fun q => { q with
        auditNext := n
        auditTile := t + 1
        auditAt := s.clk.now }) s)) := by
  have hu : (occupants s d.val).length ≠ 0 := mt List.eq_nil_of_length_eq_zero ho
  show ∃ n, execAuditStart d s = _
  unfold execAuditStart
  dsimp only
  rw [if_pos ⟨hon, hl, hr, hh, hm, hn, hu, hc⟩, hp, ht]
  exact ⟨_, rfl⟩

/-- A change of a district is told by what it makes of the district as it is. -/
theorem onDist_const (d : Nat) (f : DistS → DistS) (s : State) :
    onDist d f s = onDist d (fun _ => f (tget {} s.place.dist d)) s := rfl

/-- The state in which an audit window is judged: its move has left the list, the window is counted, and a complete cycle is
stamped (R197, R213). -/
def auditClosed (m : MoveS) (s : State) : State :=
  auditWrap m.dd m.ss ((endMove m s).onPlace fun p => { p with nWindows := satAdd p.nWindows 1 })

/-- A window with every comparison equal is a pass; a difference goes to a tie-break (R197, R198). -/
theorem exec_auditWindowEnd {w : Nat} {m : MoveS} (equal : Bool) (hm : runOver s .audit w = some m) :
    exec (.auditWindowEnd w equal) s = .next
      (if m.equal && equal then onWork w (fun k => { k with unaudited := false }) (auditClosed m s)
        else startTie w m.dd m.dt (auditClosed m s)) := by
  show execAuditWindowEnd w equal s = _
  simp only [execAuditWindowEnd, hm, auditClosed]

/-- The end of the tie-break `m`: the tile that the third one contradicts loses, or none does (R198). -/
def tieBroken (w : Nat) (m : MoveS) (outcome : Nat) (s : State) : State :=
  match outcome with
  | 0 => tileLoses w m.od 0xFF m.ot s
  | 1 => noteAudit (decideMove w (16 + m.dd * 8 + m.dt) (tileLoses w m.sd m.ss m.st s))
  | _ => unresolved w s

/-- A tie-break that completes leaves the list, and ends by its outcome (R198). -/
theorem exec_tieBreakComplete {w : Nat} {m : MoveS} (outcome : Fin 3)
    (hm : (s.place.moving.find? fun m => m.work == w && m.kind == .tieBreak) = some m) :
    exec (.tieBreakComplete w outcome) s = .next (tieBroken w m outcome.val
      (s.onPlace fun p => { p with moving := p.moving.filter (· != m) })) := by
  show execTieBreakComplete w outcome s = _
  unfold execTieBreakComplete
  rw [hm]
  rfl

/-! ### Health (R200 to R202) -/

/-- Once per second every tile is updated (R200, R201). -/
theorem exec_healthUpdate (ht : s.place.healthAt + 1000000 ≤ s.clk.now) (hn : nolutDown s = false) :
    exec .healthUpdate s = .next ((List.range 416).foldl (fun u k => updateTile k u)
      (s.onPlace fun p => { p with healthAt := s.clk.now })) :=
  if_pos ⟨ht, hn⟩

/-- Once per day the tables are saved, with an event (R202). -/
theorem exec_healthSave (ht : s.place.saveAt + 86400000000 ≤ s.clk.now) (hn : nolutDown s = false) :
    exec .healthSave s = .next (raise 0x0006 0 0 (s.onPlace fun p => { p with saveAt := s.clk.now })) :=
  if_pos ⟨ht, hn⟩

/-! ### Re-placement (R205, R208) -/

/-- Where unplaced work is placed again: in its pinned district if that has a site, otherwise at the best site (R205, R208). -/
def replaceSite (s : State) (w : Nat) : Option Site :=
  ((workAt s w).pin.bind fun d => siteIn s w d).or (bestSlot s w allDistricts)

theorem replaceSite_of_unpinned {w : Nat} (hp : (workAt s w).pin = none) : replaceSite s w = bestSlot s w allDistricts := by
  rw [replaceSite, hp]
  rfl

theorem replaceSite_of_pinned {w d : Nat} (hp : (workAt s w).pin = some d) :
    replaceSite s w = (siteIn s w d).or (bestSlot s w allDistricts) := by
  rw [replaceSite, hp]
  rfl

/-- Unplaced work that has a site again takes it (R205). -/
theorem exec_workReplace {w : Nat} {x : Site} (hw : (s.place.works.any fun p => p.1 == w && !p.2.placed) = true)
    (hn : nolutDown s = false) (hx : replaceSite s w = some x) :
    exec (.workReplace w) s = .next (endShortfall (pinCheck w (settleWork w x s))) := by
  refine (if_pos ⟨hw, hn⟩).trans ?_
  cases hp : (workAt s w).pin with
  | none =>
    rw [replaceSite_of_unpinned hp] at hx
    simp only [hx]
  | some d =>
    rw [replaceSite_of_pinned hp] at hx
    cases hd : siteIn s w d with
    | none =>
      rw [hd, Option.none_or] at hx
      simp only [hd, hx]
    | some y =>
      rw [hd, Option.some_or] at hx
      simp only [hd, Option.some.inj hx]

/-! ### Cell repair and the core voltage (01 R15, R16; 13 R436) -/

/-- A change of a tile changes it. -/
@[simp] theorem tileAt_onTile (k : Nat) (f : TileS → TileS) (s : State) : tileAt (onTile k f s) k = f (tileAt s k) :=
  tget_tmod_same ({} : TileS) s.place.tiles k f

/-- A tile whose spare is in use, or about to be, is dead at its second repair (01 R15, R200). -/
theorem exec_cellRepair_spent {k : Fin 416} (h : ((tileAt s k.val).spareUsed || s.wave.repairs.contains k.val) = true) :
    exec (.cellRepair k) s = .next (onTile k.val (fun q => { q with
      dead := true
      health := 0 }) s) :=
  if_pos h

/-- The first repair of a tile waits for the flip of the wave in progress, and without one it is done at once (01 R16). -/
theorem exec_cellRepair {k : Fin 416} (h : ((tileAt s k.val).spareUsed || s.wave.repairs.contains k.val) = false) :
    exec (.cellRepair k) s =
      if s.wave.live then .next (s.onWave fun w => { w with repairs := w.repairs ++ [k.val] })
      else .next (onTile k.val (fun q => { q with spareUsed := true }) s) :=
  if_neg (ne_true_of_eq_false h)

/-- After 600 s without a request the core voltage falls by one code (13 R436). That a window with a slack below twice WARN counts
as a request is the model's reading (log entry 111). -/
theorem exec_vcoreLower (hf : s.host.fwState = 5) (ht : s.clk.vReqAt + 600000000 ≤ s.clk.now) (hv : s.clk.floor < s.clk.vid) :
    exec .vcoreLower s = .next (s.onClk fun c => { c with
      vid := c.vid - 1
      vReqAt := c.now }) :=
  congrArg _ (if_pos ⟨hf, ht, hv⟩)

end Sys2Proof.Proofs
end

section
/-! O43, from the rules above. -/

namespace Sys2Proof.Proofs

open Sys2Proof Sys2Proof.Machine Sys2Proof.Laws

/-- Settles O43: each clause is the rule of its event; the end of a window hands on the wave and the waiting thresholds that it
began with, because its own work changes neither. -/
theorem placementEvents : Obligations.PlacementEvents := by
  refine ⟨fun s speeds hl hw => ⟨fun hn => ?_, fun hn => exec_slackWindowEnd_restart speeds hl hw hn⟩,
    fun s w => exec_contextTransferComplete w s, fun s w m equal hm h1 h2 => exec_shadowRunEnd equal hm h1 h2,
    fun s d x w t hon hl hr hh hm hn ho hc hp ht => ?_, fun s w m hm => ⟨fun he => ?_, fun eq he => ?_⟩,
    fun s w m hm => ⟨exec_tieBreakComplete 0 hm, exec_tieBreakComplete 1 hm, exec_tieBreakComplete 2 hm⟩,
    fun s ht hn => exec_healthUpdate ht hn, fun s ht hn => exec_healthSave ht hn,
    fun s w x hw hn => ⟨fun hp hx => ?_, fun d hp hx => ?_, fun d hp hd hx => ?_⟩, fun s k => ?_,
    fun s hf ht hv => exec_vcoreLower hf ht hv, fun s k m hs hk he => ?_⟩
  · have hx := exec_slackWindowEnd speeds hl hw hn
    obtain ⟨hwave, hthr⟩ := Prod.mk.inj (windowReads_windowMeasured speeds s)
    generalize windowMeasured speeds s = u at hx hwave hthr
    refine ⟨_, hx, ?_, thresholdsTaken_none _, fun w m r k h => thresholdsTaken_of_some (hthr.trans h)⟩
    rw [← hwave]
    exact thresholdsTaken_window _
  · obtain ⟨n, hx⟩ := exec_auditStart hon hl hr hh hm hn ho hc hp ht
    exact ⟨_, hx.trans (congrArg _ (congrArg _ (onDist_const ..))), rfl, rfl⟩
  · exact (exec_auditWindowEnd true hm).trans (congrArg _ (if_pos (by rw [he]; rfl)))
  · exact (exec_auditWindowEnd eq hm).trans (congrArg _ (if_neg (ne_true_of_eq_false he)))
  · exact exec_workReplace hw hn ((replaceSite_of_unpinned hp).trans hx)
  · exact exec_workReplace hw hn ((replaceSite_of_pinned hp).trans (by rw [hx]; rfl))
  · exact exec_workReplace hw hn ((replaceSite_of_pinned hp).trans (by rw [hd, hx]; rfl))
  · intro spent
    cases hsp : spent with
    | true =>
      refine ⟨_, exec_cellRepair_spent hsp, fun _ => ?_, nofun, nofun⟩
      rw [tileAt_onTile]
      exact ⟨rfl, rfl, rfl⟩
    | false =>
      cases hlive : s.wave.live with
      | true => exact ⟨_, (exec_cellRepair hsp).trans (if_pos hlive), nofun, fun _ _ => rfl, nofun⟩
      | false =>
        refine ⟨_, (exec_cellRepair hsp).trans (if_neg (ne_true_of_eq_false hlive)), nofun, nofun, fun _ _ => ?_⟩
        rw [tileAt_onTile]
  · rw [shadowEnds_single hs hk he]
    simp only [Bool.and_eq_true, beq_iff_eq]

end Sys2Proof.Proofs
end

section
/-! Drive links, Load Monitors and power stages (07 R225 to R247; 09 R302): what their events and operations do to a link, a channel
and a stage, and what they leave alone. -/

namespace Sys2Proof.Proofs

open Sys2Proof Sys2Proof.Machine Sys2Proof.Laws

variable {s : State}

/-! ### One channel, one link, one stage -/

@[simp] theorem chanAt_onChan (c : Nat) (f : ChanS → ChanS) (s : State) : chanAt (onChan c f s) c = f (chanAt s c) :=
  tget_tmod_same ({} : ChanS) s.drv.chans c f

theorem chanAt_onChan_other {c j : Nat} (f : ChanS → ChanS) (s : State) (h : j ≠ c) :
    chanAt (onChan c f s) j = chanAt s j :=
  tget_tmod_other ({} : ChanS) s.drv.chans c j f h

@[simp] theorem linkAt_onLink (l : Nat) (f : LinkS → LinkS) (s : State) : linkAt (onLink l f s) l = f (linkAt s l) :=
  tget_tmod_same ({} : LinkS) s.drv.links l f

theorem linkAt_onLink_other {l j : Nat} (f : LinkS → LinkS) (s : State) (h : j ≠ l) :
    linkAt (onLink l f s) j = linkAt s j :=
  tget_tmod_other ({} : LinkS) s.drv.links l j f h

@[simp] theorem stageAt_onStage (l : Nat) (f : StageS → StageS) (s : State) : stageAt (onStage l f s) l = f (stageAt s l) :=
  tget_tmod_same ({} : StageS) s.drv.stages l f

theorem stageAt_onStage_other {l j : Nat} (f : StageS → StageS) (s : State) (h : j ≠ l) :
    stageAt (onStage l f s) j = stageAt s j :=
  tget_tmod_other ({} : StageS) s.drv.stages l j f h

theorem linkAt_of_drv {t : State} (h : t.drv = s.drv) (l : Nat) : linkAt t l = linkAt s l := by
  rw [linkAt, h, linkAt]

/-- What changes no link leaves each as it is. -/
theorem linkAt_onDrv {f : DrvS → DrvS} (h : ∀ d, (f d).links = d.links) (s : State) (l : Nat) :
    linkAt (s.onDrv f) l = linkAt s l := by
  rw [linkAt, onDrv_drv, h, linkAt]

/-- A change of a stage is told by what it makes of the stage as it is. -/
theorem onStage_const (l : Nat) (f : StageS → StageS) (s : State) :
    onStage l f s = onStage l (fun _ => f (stageAt s l)) s := rfl

/-! ### What reports and answers leave alone -/

@[simp] theorem raise_drv (c o : Nat) (d : BitVec 64) (s : State) : (raise c o d s).drv = s.drv := by
  rw [raise_flt]

@[simp] theorem raise_host (c o : Nat) (d : BitVec 64) (s : State) : (raise c o d s).host = s.host := by
  rw [raise_flt]

@[simp] theorem endCond_drv (c o : Nat) (s : State) : (endCond c o s).drv = s.drv := by
  rw [endCond_flt]

@[simp] theorem endCond_wave (c o : Nat) (s : State) : (endCond c o s).wave = s.wave := by
  rw [endCond_flt]

@[simp] theorem chanAt_raise (x o : Nat) (d : BitVec 64) (s : State) (c : Nat) : chanAt (raise x o d s) c = chanAt s c := by
  rw [chanAt, raise_drv, chanAt]

@[simp] theorem chanAt_endCond (x o : Nat) (s : State) (c : Nat) : chanAt (endCond x o s) c = chanAt s c := by
  rw [chanAt, endCond_drv, chanAt]

@[simp] theorem linkAt_raise (x o : Nat) (d : BitVec 64) (s : State) (l : Nat) : linkAt (raise x o d s) l = linkAt s l :=
  linkAt_of_drv (raise_drv x o d s) l

@[simp] theorem linkAt_onLio (f : LioS → LioS) (s : State) (l : Nat) : linkAt (s.onLio f) l = linkAt s l := rfl

@[simp] theorem linkAt_onChan (c : Nat) (f : ChanS → ChanS) (s : State) (l : Nat) : linkAt (onChan c f s) l = linkAt s l := rfl

@[simp] theorem linkAt_onMod (m : Nat) (f : ModS → ModS) (s : State) (l : Nat) : linkAt (onMod m f s) l = linkAt s l := rfl

@[simp] theorem kioskIrq_drv (k : Nat) (s : State) : (kioskIrq k s).drv = s.drv := by
  rw [kioskIrq_only, onHost_drv]

/-- An answer stands in its Kiosk, and moves the counter of a sealed session on. -/
@[simp] theorem answer_drv (k status detail : Nat) (b : List Byte) (s : State) : (answer k status detail b s).drv = s.drv := by
  unfold answer
  extract_lets ks
  split
  · rfl
  · split
    · rfl
    · rw [kioskIrq_drv]
      dsimp only [onKiosk, onHost_drv]
      split <;> rfl

@[simp] theorem linkAt_answerOk (k : Nat) (b : List Byte) (s : State) (l : Nat) : linkAt (answerOk k b s) l = linkAt s l :=
  linkAt_of_drv (answer_drv k 0 0 b s) l

/-! ### A link that is lost (R226, 09 R302, R306) -/

/-- What the loss of a link settles in it: whether it is up, the run of ACTIVE_CLAIM_LOST and the losses counted. -/
def linkStanding (k : LinkS) : Bool × Nat × BitVec 32 := (k.up, k.aclRun, k.upLosses)

/-- A change of a link that keeps its standing keeps that of every link. -/
theorem linkStanding_onLink {f : LinkS → LinkS} (h : ∀ k, linkStanding (f k) = linkStanding k) (l j : Nat) (s : State) :
    linkStanding (linkAt (onLink l f s) j) = linkStanding (linkAt s j) := by
  by_cases hj : j = l
  · rw [hj, linkAt_onLink, h]
  · rw [linkAt_onLink_other f s hj]

/-- A fold keeps the standing that each of its steps keeps. -/
theorem linkStanding_foldl {α : Type} {f : State → α → State} {j : Nat}
    (h : ∀ t a, linkStanding (linkAt (f t a) j) = linkStanding (linkAt t j)) (l : List α) (s : State) :
    linkStanding (linkAt (l.foldl f s) j) = linkStanding (linkAt s j) :=
  List.foldlRecOn (motive := fun t => linkStanding (linkAt t j) = linkStanding (linkAt s j)) l f rfl
    fun t ht a _ => (h t a).trans ht

theorem linkStanding_dmirStart (l j : Nat) (s : State) :
    linkStanding (linkAt (dmirStart l s) j) = linkStanding (linkAt s j) := by
  rw [dmirStart, linkAt_onMod, linkStanding_onLink]
  exact fun _ => rfl

theorem linkStanding_runStart (scope j : Nat) (s : State) :
    linkStanding (linkAt (runStart scope s) j) = linkStanding (linkAt s j) := by
  unfold runStart
  extract_lets ls i2c t1 t2 t3
  have h1 : t1.drv = s.drv := by
    unfold t1
    split <;> rfl
  have h3 : linkStanding (linkAt t3 j) = linkStanding (linkAt t2 j) :=
    linkStanding_foldl (fun t l => linkStanding_dmirStart l j t) ls t2
  have h2 : linkAt t2 j = linkAt s j := linkAt_of_drv h1 j
  rw [linkStanding_foldl fun t k => congrArg linkStanding (linkAt_answerOk k _ t j), h3, h2]

theorem linkStanding_censusEnd (j : Nat) (s : State) :
    linkStanding (linkAt (censusEnd s) j) = linkStanding (linkAt s j) := by
  unfold censusEnd
  split
  · extract_lets next t
    split
    · rfl
    · exact linkStanding_runStart next j t
  · rfl

theorem linkStanding_dmirStop (l st j : Nat) (s : State) :
    linkStanding (linkAt (dmirStop l st s) j) = linkStanding (linkAt s j) := by
  unfold dmirStop
  split
  · rw [linkStanding_censusEnd, linkAt_onLio, linkAt_onMod, linkStanding_onLink]
    exact fun _ => rfl
  · rfl

theorem linkStanding_calDrop (l j : Nat) (s : State) :
    linkStanding (linkAt (calDrop l s) j) = linkStanding (linkAt s j) := by
  rw [calDrop, linkStanding_foldl fun t k => congrArg linkStanding (linkAt_onChan ..)]

/-- A link that no longer carries frames is down, and its run of ACTIVE_CLAIM_LOST is over. -/
theorem linkStanding_linkOff (l : Nat) (s : State) :
    linkStanding (linkAt (linkOff l s) l) = (false, 0, (linkAt s l).upLosses) := by
  unfold linkOff
  rw [linkStanding_calDrop, linkStanding_dmirStop, linkAt_onLink]
  rfl

/-- A link is lost: counted, off, and told (R226). -/
def linkLost (l : Nat) (s : State) : State :=
  raise 0x0506 l 0 ((linkOff l (onLink l (fun k => { k with upLosses := satAdd k.upLosses 1 }) s)).onDrv fun d =>
    { d with linkLoss := true })

theorem linkStanding_linkLost (l : Nat) (s : State) :
    linkStanding (linkAt (linkLost l s) l) = (false, 0, satAdd (linkAt s l).upLosses 1) := by
  rw [linkLost, linkAt_raise, linkAt_onDrv, linkStanding_linkOff, linkAt_onLink]
  exact fun _ => rfl

theorem linkLost_linkLoss (l : Nat) (s : State) : (linkLost l s).drv.linkLoss = true := by
  rw [linkLost, raise_drv]
  rfl

/-- The eighth period without an accepted frame loses the link (R226). -/
theorem exec_linkLoss {l : Fin 32} (hup : (linkAt s l.val).up = true) (hbad : 8 ≤ (linkAt s l.val).bad) :
    exec (.linkLoss l) s = .next (linkLost l.val s) :=
  if_pos ⟨hup, hbad⟩

/-! ### A control request without an answer (R228) -/

/-- A link without the request of an owner: the timeout is counted, and what the owner still wanted is dropped (R228). -/
def givenUp (owner : Nat) (k : LinkS) : LinkS :=
  { k with
    req := none
    ctlTo := satAdd k.ctlTo 1
    todo := k.todo.filter fun t => t.owner != owner }

/-- A link gives its request up, and the timeout is told (R228). -/
def requestDropped (l owner : Nat) (s : State) : State :=
  raise 0x0501 l 0 ((onLink l (givenUp owner) s).onDrv fun d => { d with ctlTo := true })

theorem linkAt_requestDropped (l owner : Nat) (s : State) :
    linkAt (requestDropped l owner s) l = givenUp owner (linkAt s l) := by
  rw [requestDropped, linkAt_raise, linkAt_onDrv, linkAt_onLink]
  exact fun _ => rfl

theorem requestDropped_ctlTo (l owner : Nat) (s : State) : (requestDropped l owner s).drv.ctlTo = true := by
  rw [requestDropped, raise_drv]
  rfl

/-- After its third repeat has waited in vain the request of a Kiosk fails (R228). -/
theorem exec_ctlTimeout {l : Fin 32} {r : CtlReq} (hr : (linkAt s l.val).req = some r) (hw : 64 ≤ r.waits)
    (hn : r.repeats = 3) (ho : r.owner < 32) :
    exec (.ctlTimeout l) s = .next (answerFail r.owner { status := 0x0033 } (requestDropped l.val r.owner s)) := by
  have hne : r.owner ≠ 32 := ho.ne
  show execCtlTimeout l s = _
  unfold execCtlTimeout
  simp only [hr, hw, hn, ho, hne, and_self, if_true, if_false]
  rfl

/-! ### The windows of temperature and impedance (R240, R242, R243, R246) -/

/-- When the frames of a window have arrived every channel is updated (R240). -/
theorem exec_thermalUpdate (hf : s.drv.frames = true) (h0 : s.wave.count.toNat ≠ 0)
    (hn : 16 * (s.drv.thermWin + 1) + 3 ≤ s.wave.count.toNat) :
    exec .thermalUpdate s = .next ((List.range 128).foldl (fun u c => thermChan c u)
      (s.onDrv fun d => { d with thermWin := (s.wave.count.toNat - 3) / 16 })) :=
  if_pos ⟨hf, h0, .inl hn⟩

/-- Samples of a channel's pilot window (R242). -/
def windowLen (s : State) (c : Nat) : Nat := (chanAt s c).pilot.window * (hz s / 4)

/-- The reading that a pilot window gives is valid (R242). -/
def windowOk (s : State) (c : Nat) : Bool :=
  readingOk (chanAt s c) (pilotW s (pilotHz (chanAt s c).pilot) (windowLen s c))

/-- A pilot window without a valid reading is counted, and the next one begins (R242). -/
def windowMissed (c : Nat) (s : State) : State :=
  pilotNextWindow c (onChan c (fun q => { q with
    readOk := false
    noRead := q.noRead + 1 }) s)

/-- Parameters that wait for a window change no counter, reading or start of it. -/
theorem pilotTake_reading (q : ChanS) :
    (pilotTake q).noRead = q.noRead ∧ (pilotTake q).readOk = q.readOk ∧ (pilotTake q).pilAt = q.pilAt := by
  unfold pilotTake
  split <;> exact ⟨rfl, rfl, rfl⟩

theorem windowMissed_reading (c : Nat) (s : State) :
    (chanAt (windowMissed c s) c).noRead = (chanAt s c).noRead + 1 ∧ (chanAt (windowMissed c s) c).readOk = false ∧
      (chanAt (windowMissed c s) c).pilAt = s.wave.count := by
  unfold windowMissed pilotNextWindow
  rw [chanAt_onChan, chanAt_onChan]
  exact pilotTake_reading _

/-- A pilot window that has run its length takes its reading, or is the next one without: the fourth of these is told (R242,
R246). -/
theorem exec_pilotWindowEnd {c : Fin 128} (hf : s.drv.frames = true) (hp : pilotOn s (chanAt s c.val).pilot = true)
    (hs : (chanAt s c.val).short ≠ .probe)
    (hw : (chanAt s c.val).pilAt.toNat + windowLen s c.val ≤ s.wave.count.toNat) :
    exec (.pilotWindowEnd c () () () ()) s =
      if windowOk s c.val then .next (pilotNextWindow c.val (takeReading c.val ((chanAt s c.val).pilot.mode == 1)
        (onChan c.val (fun q => { q with noRead := 0 }) s)))
      else .next (if (chanAt s c.val).noRead + 1 = 4 then raise 0x0504 c.val 0 (windowMissed c.val s)
        else windowMissed c.val s) :=
  if_pos ⟨hf, hp, hs, hw⟩

/-! ### What a reading leaves alone (R242, R243, R246) -/

@[simp] theorem onChan_wave (c : Nat) (f : ChanS → ChanS) (s : State) : (onChan c f s).wave = s.wave := rfl

@[simp] theorem shortStart_wave (c : Nat) (s : State) : (shortStart c s).wave = s.wave := by
  unfold shortStart
  split <;> simp

@[simp] theorem measStep_wave (c : Nat) (num den : Int) (s : State) : (measStep c num den s).wave = s.wave := by
  unfold measStep
  extract_lets q diff away tell far t1 t2
  have h2 : t2.wave = s.wave := by
    unfold t2
    split <;> simp [t1]
  repeat' split
  all_goals simp [h2]

@[simp] theorem loadChecks_wave (c : Nat) (zz : Nat × Nat) (s : State) : (loadChecks c zz s).wave = s.wave := by
  unfold loadChecks
  extract_lets q z below above t1 t2 lo hi out
  have h1 : t1.wave = s.wave := by
    unfold t1
    split <;> simp
  have h2 : t2.wave = s.wave := by
    unfold t2
    repeat' split
    all_goals simp [h1]
  repeat' split
  all_goals simp [h2]

@[simp] theorem takeReading_wave (c : Nat) (sub : Bool) (s : State) : (takeReading c sub s).wave = s.wave := by
  unfold takeReading
  extract_lets q free k re zz t1 t2
  have h2 : t2.wave = s.wave := by
    unfold t2
    split <;> simp [t1]
  rw [loadChecks_wave, h2]

/-! ### The probe of a shorted channel (R247) -/

/-- A probe that is due starts (R247). -/
theorem exec_shortProbeStart {c : Fin 128} (h : probeDue s c.val = true) :
    exec (.shortProbeStart c) s = .next (probeStart c.val s) :=
  congrArg _ (if_pos h)

/-- The reading that a probe gives is valid (R242, R247). -/
def probeOk (s : State) (c : Nat) : Bool :=
  readingOk (chanAt s c) (pilotW s (probePilot s (chanAt s c).pilot).2 (hz s / 5))

/-- A probe clears the short: a valid reading at or above SHORT_LIMIT, without over-current or saturation (R247). The reading of a
channel without a scale of the current is a free value (log entries 13, 157). -/
def probeClear (s : State) (c : Nat) : Bool :=
  let q := chanAt s c
  let zz := zSquare q (Config.free s.free)
  probeOk s c && decide (q.z.shortL * q.z.shortL * zz.2 ≤ zz.1) && !q.probeBad

/-- The probe's reading, which a valid one is checked as any other (R246, R247). -/
def probeRead (c : Nat) (s : State) : State :=
  let f := (probePilot s (chanAt s c).pilot).2
  if probeOk s c then takeReading c (decide (f.1 < 1000 * f.2)) s else onChan c (fun q => { q with readOk := false }) s

theorem probeClear_iff (s : State) (c : Nat) :
    probeClear s c = true ↔ probeOk s c = true ∧
      (chanAt s c).z.shortL * (chanAt s c).z.shortL * (zSquare (chanAt s c) (Config.free s.free)).2
        ≤ (zSquare (chanAt s c) (Config.free s.free)).1 ∧ (chanAt s c).probeBad = false := by
  simp only [probeClear, Bool.and_eq_true, Bool.not_eq_true', decide_eq_true_eq, and_assoc]

theorem probeRead_wave (c : Nat) (s : State) : (probeRead c s).wave = s.wave := by
  unfold probeRead
  dsimp only
  split <;> simp

/-- A probe that has run its length takes its reading, and then ends by it (R247). -/
theorem exec_shortProbeEnd {c : Fin 128} (hs : (chanAt s c.val).short = .probe)
    (hw : (chanAt s c.val).shortAt.toNat + hz s / 5 ≤ s.wave.count.toNat + 1) :
    exec (.shortProbeEnd c () ()) s = .next (probeEnd c.val (probeClear s c.val) (probeRead c.val s)) :=
  if_pos ⟨hs, hw⟩

/-- A channel that a probe clears resumes (R247). -/
theorem probeEnd_clear (c : Nat) (s : State) :
    (chanAt (probeEnd c true s) c).short = .none ∧ (chanAt (probeEnd c true s) c).resume = some (s.wave.count + 96) := by
  simp [probeEnd, pilotNextWindow]

/-- A channel that a probe does not clear waits (R247). -/
theorem probeEnd_waits (c : Nat) (s : State) :
    (chanAt (probeEnd c false s) c).short = .waiting ∧ (chanAt (probeEnd c false s) c).shortAt = s.wave.count + 1 := by
  simp [probeEnd, pilotNextWindow]

/-- A channel that is free to resume does so at its last wave (R244, R247). -/
theorem exec_channelResume {c : Fin 128} {w : BitVec 64} (hr : (chanAt s c.val).resume = some w)
    (hs : (chanAt s c.val).short = .none) (ht : (chanAt s c.val).trip = false) (hm : (chanAt s c.val).muteDue = none)
    (hw : w.toNat ≤ (s.wave.count + 1).toNat) :
    exec (.channelResume c) s = .next (onChan c.val (fun q => { q with resume := none }) s) := by
  show execChannelResume c s = _
  unfold execChannelResume
  simp only [hr, hs, ht, hm, hw, decide_true, Bool.true_or, Bool.true_and, beq_self_eq_true, Bool.not_false, if_true]

/-! ### The stages (R225, R231 to R237) -/

/-- A downstream frame of positions 1 to 35 whose CRC holds is taken, with its control slot (R221, R227 to R230, R232); any other is
counted and treated as missing. What a register that R229 leaves to the stage reads is a free value (log entries 13, 105). -/
theorem exec_stageDownstreamFrame (l : Fin 32) (b : Bool) (frame : List Byte) (s : State) :
    exec (.stageDownstreamFrame l b frame) s =
      if frame.length = 35 ∧ (crc16 (frame.take 33)).toNat = fldBe frame 33 2 then
        .next (onStage l.val (fun t => stageControl (stagePeriod b (inGood frame) t) b (BitVec.ofNat 32 (Config.free s.free))
          ((frame.drop 25).take 8)) { s with free := s.free + 1 })
      else .next (onStage l.val (stagePeriod b (fun i => inBad { i with err := i.err + 1 })) s) := by
  show execStageDownstreamFrame l b frame s = _
  simp only [execStageDownstreamFrame, Bool.and_eq_true, beq_iff_eq]

/-- A stage without an accepted input mutes every channel (R236). -/
theorem exec_stageMuteNoInput {l : Fin 32} (h : (stageAt s l.val).acc = none) :
    exec (.stageMuteNoInput l) s = .next (onStage l.val (fun t => { t with muteAll := true }) s) :=
  congrArg _ (if_pos (Option.isNone_iff_eq_none.mpr h))

/-- The bit of a position of a stage stands in its own mask. -/
theorem getLsbD_position (k : Fin 4) : (BitVec.ofNat 4 (2 ^ k.val)).getLsbD k.val = true := by
  decide +revert

end Sys2Proof.Proofs
end

section
/-! O47 and O48, from the rules above. -/

namespace Sys2Proof.Proofs

open Sys2Proof Sys2Proof.Machine Sys2Proof.Laws

/-- Settles O47: each clause is the rule of its event; what the statement says of a link or a channel is then read from the state
that the rule gives. -/
theorem driveEvents : Obligations.DriveEvents := by
  refine ⟨fun s l hup hbad => ?_, fun s l r hr hw hn ho => ?_, fun s hf h0 hn => exec_thermalUpdate hf h0 hn,
    fun s c hf hp hs hw => ⟨fun hok => ?_, fun hok => ?_⟩, fun s c hd => exec_shortProbeStart hd,
    fun s c hs hw => ⟨fun hok => ?_, fun hok => ?_⟩, fun s c w hr hs ht hm hw => ?_⟩
  · have hl := linkStanding_linkLost l.val s
    simp only [linkStanding, Prod.mk.injEq] at hl
    obtain ⟨hdown, hrun, hcount⟩ := hl
    exact ⟨_, exec_linkLoss hup hbad, hdown, hrun, hcount, linkLost_linkLoss l.val s⟩
  · have hl := linkAt_requestDropped l.val r.owner s
    exact ⟨_, congrArg LinkS.req hl, congrArg LinkS.ctlTo hl, requestDropped_ctlTo .., raise_host ..,
      exec_ctlTimeout hr hw hn ho⟩
  · obtain ⟨hno, hread, hat_⟩ := windowMissed_reading c.val s
    exact ⟨windowMissed c.val s, hno, hread, hat_, rfl,
      (exec_pilotWindowEnd hf hp hs hw).trans (if_neg (ne_true_of_eq_false hok))⟩
  · exact (exec_pilotWindowEnd hf hp hs hw).trans (if_pos hok)
  · have hx := exec_shortProbeEnd hs hw
    rw [(probeClear_iff s c.val).mpr hok] at hx
    rw [← probeRead_wave c.val s]
    exact ⟨_, hx, probeEnd_clear c.val _⟩
  · have hx := exec_shortProbeEnd hs hw
    rw [eq_false_of_ne_true (mt (probeClear_iff s c.val).mp hok)] at hx
    rw [← probeRead_wave c.val s]
    exact ⟨_, hx, probeEnd_waits c.val _⟩
  · exact ⟨_, exec_channelResume hr hs ht hm hw, by rw [chanAt_onChan], fun j hj => chanAt_onChan_other _ s hj, rfl⟩

/-- Settles O48: each clause is the rule of its event, and a change of a stage is a change of that stage only. Which frame the stage
plays next is the model's reading (log entry 159). -/
theorem stageEvents : Obligations.StageEvents := by
  refine ⟨fun s l b frame hlen hcrc => (exec_stageDownstreamFrame l b frame s).trans (if_pos ⟨hlen, hcrc⟩),
    fun s l b frame hbad => (exec_stageDownstreamFrame l b frame s).trans (if_neg (not_and_or.mpr hbad)),
    fun s l b => rfl, fun s l hacc => exec_stageMuteNoInput hacc, fun s l k => ⟨rfl, getLsbD_position k⟩,
    fun s l supply ot trips v i =>
      ⟨_, congrArg Host.Outcome.next (onStage_const l.val _ s), rfl, rfl, rfl, rfl, rfl, rfl, rfl, rfl⟩,
    fun s l j f => ⟨stageAt_onStage l.val f s, fun hj => stageAt_onStage_other f s (Fin.val_ne_of_ne hj), rfl⟩⟩

end Sys2Proof.Proofs
end

section
/-! The network (08 R261, R265, R266, R272 to R288; 13 R434): what an operation leaves of the ports and streams, and what each
network event does. -/

namespace Sys2Proof.Proofs

open Sys2Proof Sys2Proof.Machine Sys2Proof.Laws

variable {s : State}

/-! ### One port, one stream -/

@[simp] theorem portAt_onPort (p : Nat) (f : PortS → PortS) (s : State) : portAt (onPort p f s) p = f (portAt s p) :=
  tget_tmod_same ({} : PortS) s.net.ports p f

theorem portAt_onPort_other {p j : Nat} (f : PortS → PortS) (s : State) (h : j ≠ p) :
    portAt (onPort p f s) j = portAt s j :=
  tget_tmod_other ({} : PortS) s.net.ports p j f h

@[simp] theorem rxAt_onRx (k : Nat) (f : RxStream → RxStream) (s : State) : rxAt (onRx k f s) k = f (rxAt s k) :=
  tget_tmod_same ({} : RxStream) s.net.rx k f

theorem rxAt_onRx_other {k j : Nat} (f : RxStream → RxStream) (s : State) (h : j ≠ k) : rxAt (onRx k f s) j = rxAt s j :=
  tget_tmod_other ({} : RxStream) s.net.rx k j f h

@[simp] theorem txAt_onTx (k : Nat) (f : TxStream → TxStream) (s : State) : txAt (onTx k f s) k = f (txAt s k) :=
  tget_tmod_same ({} : TxStream) s.net.tx k f

theorem txAt_onTx_other {k j : Nat} (f : TxStream → TxStream) (s : State) (h : j ≠ k) : txAt (onTx k f s) j = txAt s j :=
  tget_tmod_other ({} : TxStream) s.net.tx k j f h

/-! ### What reports, counters and silenced rows leave alone -/

@[simp] theorem raise_net (c o : Nat) (d : BitVec 64) (s : State) : (raise c o d s).net = s.net := by
  rw [raise_flt]

/-- A change of a port is a change of the network only. -/
theorem onPort_of_net (p : Nat) (f : PortS → PortS) {t : State} (h : ∃ n, t = { s with net := n }) :
    ∃ n, onPort p f t = { s with net := n } := by
  obtain ⟨n, rfl⟩ := h
  exact ⟨_, rfl⟩

/-- A report of a change of the network changes the network and the fault collector only. -/
theorem raise_of_net (c o : Nat) (d : BitVec 64) {t : State} (h : ∃ n, t = { s with net := n }) :
    raise c o d t = { s with net := (raise c o d t).net, flt := (raise c o d t).flt } := by
  obtain ⟨n, rfl⟩ := h
  rw [raise_net]
  exact raise_flt ..

@[simp] theorem portAt_raise (c o : Nat) (d : BitVec 64) (s : State) (p : Nat) : portAt (raise c o d s) p = portAt s p := by
  rw [portAt, raise_net, portAt]

@[simp] theorem portAt_countPort (p i n : Nat) (s : State) :
    portAt (countPort p i n s) p = { portAt s p with stats := tmod 0 (portAt s p).stats i fun c => satAdd c n } :=
  portAt_onPort ..

@[simp] theorem portAt_stickPort (p i : Nat) (s : State) :
    portAt (stickPort p i s) p = { portAt s p with sticky := (portAt s p).sticky ||| BitVec.ofNat 8 (2 ^ i) } :=
  portAt_onPort ..

@[simp] theorem rxSilence_net (q : RxStream) (s : State) : (rxSilence q s).net = s.net :=
  List.foldlRecOn (motive := fun t : State => t.net = s.net) _ _ rfl fun _ ht _ _ => ht

/-- Counters of transmit streams are no part of a port. -/
theorem portAt_foldl_onTx {α : Type} (k : α → Nat) (f : α → TxStream → TxStream) (l : List α) (s : State) (p : Nat) :
    portAt (l.foldl (fun u x => onTx (k x) (f x) u) s) p = portAt s p :=
  List.foldlRecOn (motive := fun t => portAt t p = portAt s p) l _ rfl fun _ ht _ _ => ht

/-! ### Received frames (R261, R272, R276, R284) -/

/-- A frame that the MAC has accepted passes MACsec on a media port, and is delivered unless MACsec drops it (R284, log entry
94). -/
def rxPassed (p : Nat) (frame : List Byte) (stamp : Nat) (s : State) : State :=
  let r := if p < 4 then macsecRx p frame s else (s, some (frame, false))
  match r.2 with
  | none => r.1
  | some (f, mark) => rxDeliver p f mark stamp r.1

/-- The service port has no MACsec. -/
theorem rxPassed_service (frame : List Byte) (stamp : Nat) (s : State) :
    rxPassed 4 frame stamp s = rxDeliver 4 frame false stamp s := rfl

theorem rxPassed_delivered {p stamp : Nat} {frame f : List Byte} {mark : Bool} (hp : p < 4)
    (hm : (macsecRx p frame s).2 = some (f, mark)) :
    rxPassed p frame stamp s = rxDeliver p f mark stamp (macsecRx p frame s).1 := by
  simp only [rxPassed, hp, if_true, hm]

theorem rxPassed_dropped {p stamp : Nat} {frame : List Byte} (hp : p < 4) (hm : (macsecRx p frame s).2 = none) :
    rxPassed p frame stamp s = (macsecRx p frame s).1 := by
  simp only [rxPassed, hp, if_true, hm]

/-- What a port that is enabled, with its link up and its power on, does with a frame (R276): a short one and one with a bad FCS
are counted as such; a frame past MAX_FRAME goes on without a look at its FCS. A frame counts before MACsec judges it, the
oversize one too (log entry 90). -/
theorem exec_rxFrame {p : Fin 5} (frame : List Byte) (secs : BitVec 34) (ns : BitVec 30)
    (hf : (portAt s p.val).flags.getLsbD 0 = true) (hl : (portAt s p.val).link = true)
    (hw : s.clk.power = .run ∨ s.clk.power = .hush) :
    exec (.rxFrame p frame () secs ns) s =
      if frame.length < 64 then .next (countPort p.val 3 1 s)
      else if frame.length ≤ (portAt s p.val).maxFrame + macsecAdds s p.val frame ∧ fcsGood frame = false then
        .next (countPort p.val 2 1 s)
      else .next (rxPassed p.val frame (secs.toNat * 2 ^ 30 + ns.toNat)
        (countPort p.val 1 frame.length (countPort p.val 0 1 s))) := by
  have hon : ¬ (!((portAt s p.val).flags.getLsbD 0 && (portAt s p.val).link &&
      (s.clk.power == .run || s.clk.power == .hush))) = true := by
    rcases hw with hw | hw <;> simp [hf, hl, hw]
  exact if_neg hon

/-! ### Frames sent (R266, R277 to R279, R283) -/

/-- When no stream packet keeps the port, a frame of the firmware goes ahead of every ring (R266). -/
theorem exec_txFrameStart_fw {p : Fin 5} (filled : List Nat) {f : FwFrame} {l : List FwFrame}
    (hp : portFree (txDrain p.val s) p.val = true) (hf : (portAt (txDrain p.val s) p.val).fwTx = f :: l) :
    exec (.txFrameStart p filled) s = .next (txStartFw p.val f (txDrain p.val s)) := by
  show execTxFrameStart p filled s = _
  simp only [execTxFrameStart, hp, if_true, hf]

/-- Otherwise the first ring in turn whose head stands in the transmit buffer starts its frame (R266, R279). -/
theorem exec_txFrameStart_ring {p : Fin 5} {filled : List Nat} {r : Nat} {l : List (List Byte)}
    (hp : portFree (txDrain p.val s) p.val = true) (hf : (portAt (txDrain p.val s) p.val).fwTx = [])
    (hr : (txOrder p.val (portAt (txDrain p.val s) p.val).turn).find?
      (fun r => txReady (txDrain p.val s) (txRing p.val r) (filled.getD r 0)) = some r)
    (hl : txHead (txDrain p.val s) (txRing p.val r) = some l) :
    exec (.txFrameStart p filled) s = .next (txStartRing p.val r l (txDrain p.val s)) := by
  show execTxFrameStart p filled s = _
  simp only [execTxFrameStart, hp, if_true, hf, hr, hl]

/-- The LAST descriptor of `n` at the head of a ring asks for a timestamp (R283). -/
def tsAsked (s : State) (g n : Nat) : Bool :=
  bitOf (fld (dmaRead s (ringDesc (ringAt s g) ((ringAt s g).cons.toNat + n - 1)) 16) 10 2) 1

/-- A frame of a ring that is whole on the wire is counted and written back, with its timestamp where TS_REQ asks for it (R277,
R283). -/
theorem exec_txFrameComplete {p : Fin 5} {g n len : Nat} (secs : BitVec 34) (ns : BitVec 30)
    (hs : (portAt s p.val).sending = some g) (hf : (portAt s p.val).fwOut = none)
    (hr : (ringAt s g).inFly = some (n, len)) :
    exec (.txFrameComplete p secs ns) s = .next (sendEnd p.val (txBack g n (3 + if tsAsked s g n then 32 else 0)
      (if tsAsked s g n then secs.toNat * 2 ^ 30 + ns.toNat else 0)
      (countPort p.val 15 len (countPort p.val 14 1 s)))) := by
  show execTxFrameComplete p secs ns s = _
  simp only [execTxFrameComplete, hs, hf, hr]
  rfl

/-- What a cut frame leaves on the wire: the bytes sent, and an inverted FCS (R279). -/
def wireCut (p sent : Nat) (s : State) : State :=
  onPort p (fun q => { q with wire := badFcs (q.wire.take (min sent (q.wire.length - 4))) }) s

/-- TX_START of a ring rises by one step, to 38 at most (R279). -/
def txStartRaised (r : RingS) : RingS := { r with txStart := if r.txStart.toNat < 38 then r.txStart + 1 else r.txStart }

/-- A frame of a ring whose buffer runs dry is cut, counted and written back with UNDERRUN, and TX_START rises (R279). -/
theorem exec_txUnderrun {p : Fin 5} {g n len : Nat} (sent : Nat) (hs : (portAt s p.val).sending = some g)
    (hr : (ringAt s g).inFly = some (n, len)) :
    exec (.txUnderrun ⟨p, sent⟩) s = .next (sendEnd p.val (txBack g n 5 0 (onRing g txStartRaised
      (stickPort p.val 6 (stickRing g 1 (countPort p.val 16 1 (wireCut p.val sent s))))))) := by
  have hcut : (ringAt (wireCut p.val sent s) g).inFly = some (n, len) := hr
  show execTxUnderrun ⟨p, sent⟩ s = _
  unfold execTxUnderrun
  rw [wireCut] at hcut
  simp only [hs, hcut, Option.isNone_some, Bool.and_false, Bool.false_eq_true, if_false]
  rfl

/-! ### PAUSE (R280, R281) -/

/-- A pause that ends before the next microsecond does is over (R280). -/
theorem exec_pauseExpire {p : Fin 5} {e : Nat} (he : (portAt s p.val).pauseEnd = some e)
    (hn : e < (s.clk.now + 1) * 100000) : exec (.pauseExpire p) s = .next (pauseSet p.val 0 s) := by
  show execPauseExpire p s = _
  simp only [execPauseExpire, he, hn, if_true]

/-- The watchdog of a port ends its pause: the hold-off begins, and the event is counted and told (R281). -/
def watchdogEnds (p : Nat) (s : State) : State :=
  raise 0x0603 (objPort p) 0 (stickPort p 7 (countPort p 11 1 (onPort p (fun q => { q with
    pauseEnd := none
    pausedAt := none
    holdAt := some s.clk.now }) s)))

theorem portAt_watchdogEnds (p : Nat) (s : State) :
    (portAt (watchdogEnds p s) p).pauseEnd = none ∧ (portAt (watchdogEnds p s) p).pausedAt = none ∧
      (portAt (watchdogEnds p s) p).holdAt = some s.clk.now := by
  simp [watchdogEnds]

/-- The watchdog touches the network and the fault collector only. -/
theorem watchdogEnds_net_flt (p : Nat) (s : State) :
    watchdogEnds p s = { s with net := (watchdogEnds p s).net, flt := (watchdogEnds p s).flt } := by
  unfold watchdogEnds stickPort countPort
  exact raise_of_net _ _ _ (onPort_of_net _ _ (onPort_of_net _ _ (onPort_of_net _ _ ⟨s.net, rfl⟩)))

/-- A port that has stayed paused for WD_US resumes, and what waits for it begins (R281). -/
theorem exec_pauseWatchdog {p : Fin 5} {e b : Nat} (he : (portAt s p.val).pauseEnd = some e)
    (hb : (portAt s p.val).pausedAt = some b) (hw : b + (portAt s p.val).wdUs ≤ s.clk.now)
    (hn : s.clk.now * 100000 < e) : exec (.pauseWatchdog p) s = .next (txDrain p.val (watchdogEnds p.val s)) := by
  show execPauseWatchdog p s = _
  simp only [execPauseWatchdog, he, hb, hw, hn, and_self, if_true, watchdogEnds]

/-- After HOLDOFF_MS the port honours PAUSE again (R281). -/
theorem exec_pauseHoldoffEnd {p : Fin 5} {b : Nat} (hb : (portAt s p.val).holdAt = some b)
    (hn : b + (portAt s p.val).holdMs * 1000 ≤ s.clk.now) :
    exec (.pauseHoldoffEnd p) s = .next (onPort p.val (fun q => { q with holdAt := none }) s) := by
  show execPauseHoldoffEnd p s = _
  simp only [execPauseHoldoffEnd, hb, hn, if_true]

/-! ### Links and wakes (R286, R288; 13 R434) -/

/-- A link comes up on an enabled port whose clocks run (R288). -/
theorem exec_linkDown_up {p : Fin 5} (hf : (portAt s p.val).flags.getLsbD 0 = true) (hw : s.clk.power = .run)
    (hc : p = 4 ∨ s.clk.lock.getLsbD 3 = true) : exec (.linkDown p true) s = .next (linkSet p.val true s) := by
  have hp : (p.val == 4 || s.clk.lock.getLsbD 3) = true := by
    rcases hc with rfl | hlock
    · rfl
    · rw [hlock, Bool.or_true]
  show execLinkDown p true s = _
  simp only [execLinkDown, hf, hw, hp, beq_self_eq_true, Bool.true_or, Bool.and_self, if_true]

/-- In RETAIN a frame with a good FCS that matches wakes the engine, and WAKE_CAUSE names it (R286). -/
theorem exec_wakeFrame {frame : List Byte} {c : Nat} (hg : fcsGood frame = true) (hm : wakeMatch s frame = some c)
    (hw : s.clk.power = .retain) :
    exec (.wakeFrame frame) s = .next (wakeBegin 1 (s.onNet fun n => { n with wakeCause := BitVec.ofNat 8 c })) := by
  show execWakeFrame frame s = _
  simp only [execWakeFrame, hg, hm, hw, if_true]

/-! ### Streams (R265, R266) -/

/-- A receive stream that is lost holds nothing (R265). -/
def streamEmptied (q : RxStream) : RxStream := { q with state := 3, paths := 0, buf := [] }

/-- A receive stream is lost: emptied, its rows silent, and the loss told (R265). -/
def streamLost (k : Nat) (s : State) : State :=
  raise 0x0605 (streamObj (rxAt s k).ports k) 0 (rxSilence (rxAt s k) (onRx k streamEmptied s))

theorem rxAt_streamLost (k j : Nat) (s : State) : rxAt (streamLost k s) j = rxAt (onRx k streamEmptied s) j := by
  rw [rxAt, streamLost, raise_net, rxSilence_net, rxAt]

/-- A stream that has accepted no packet for 8 packet times is lost (R265). -/
theorem exec_streamLoss {k : Fin 512} (ho : (rxAt s k.val).state = 1 ∨ (rxAt s k.val).state = 2)
    (hl : (rxAt s k.val).lastAt.toNat + 8 * packetLen s (rxAt s k.val).ptime ≤ s.wave.count.toNat) :
    exec (.streamLoss k) s = .next (streamLost k.val s) :=
  if_pos ⟨ho, hl⟩

/-- A transmit stream without the packet that was ready. -/
def packetTaken (k : Nat) (s : State) : State := onTx k (fun t => { t with ready := none }) s

/-- The packet of the words `ws` whose first sample is `n`, as its stream makes it for every port (R266). -/
def packetMade (k : Nat) (n : BitVec 64) (ws : List W36) (s : State) : TxPkt :=
  let a := txAt s k
  { stream := k
    first := n
    ts := txTs a n
    seq := txSeq s a n
    at64 := s.wave.count
    rtp := rtpBytes (packetTaken k s) a n ws
    len := streamFrame a.chans (packetLen s a.ptime) a.extId a.vlan a.l24 }

/-- A packet that another unit sends is taken and not queued (R267). -/
theorem exec_streamPacketQueue_other {k : Fin 512} {n : BitVec 64} {ws : List W36}
    (hr : (txAt s k.val).ready = some (n, false, ws)) :
    exec (.streamPacketQueue k) s = .next (packetTaken k.val s) := by
  show execStreamPacketQueue k s = _
  simp only [execStreamPacketQueue, hr, Bool.false_eq_true, if_false, packetTaken]

/-- A packet that is due is queued on each port of its stream, and begins where the port is free (R266). -/
theorem exec_streamPacketQueue {k : Fin 512} {n : BitVec 64} {ws : List W36}
    (hr : (txAt s k.val).ready = some (n, true, ws)) :
    exec (.streamPacketQueue k) s = .next ((pathPorts (txAt s k.val).ports).foldl (fun v p => txDrain p (onPort p (fun q =>
      { q with queue := q.queue ++ [pktFor v (txAt s k.val) p (packetMade k.val n ws s)] }) v)) (packetTaken k.val s)) := by
  show execStreamPacketQueue k s = _
  simp only [execStreamPacketQueue, hr, if_true]
  rfl

/-- Stale packets leave the queue of their port, and each is counted for its stream (R266). -/
theorem exec_streamPacketStale (p : Fin 4) (s : State) :
    exec (.streamPacketStale p) s = .next (((portAt s p.val).queue.filter (pktStale s)).foldl
      (fun u x => onTx x.stream (fun t => { t with cnt := bumpCnt t.cnt 7 1 }) u)
      (onPort p.val (fun q => { q with queue := q.queue.filter fun x => !pktStale s x }) s)) := rfl

end Sys2Proof.Proofs
end

section
/-! O49 and O50, from the rules above. -/

namespace Sys2Proof.Proofs

open Sys2Proof Sys2Proof.Machine Sys2Proof.Laws

/-- Settles O49: each clause is the rule of its event; a received frame takes the branch of R276 that its length and its FCS
name, and then what MACsec answers. Where a frame is counted is the model's reading (log entry 90). -/
theorem networkFrames : Obligations.NetworkFrames := by
  refine ⟨fun s p frame secs ns hf hl hw => ?_,
    fun s p filled hp => ⟨fun f l hfw => exec_txFrameStart_fw filled hp hfw,
      fun hfw r l hr hh => exec_txFrameStart_ring hp hfw hr hh⟩,
    fun s p g n len secs ns hs hf hr => exec_txFrameComplete secs ns hs hf hr,
    fun s p g n len sent hs hr => exec_txUnderrun sent hs hr,
    fun s g fw prod mem => rfl, fun s g fw ctrl => rfl⟩
  intro long time u
  have hx := exec_rxFrame frame secs ns hf hl hw
  have htaken (h64 : 64 ≤ frame.length) (hok : long ∨ fcsGood frame = true) :
      exec (.rxFrame p frame () secs ns) s = .next (rxPassed p.val frame time u) := by
    have hgood : ¬ (frame.length ≤ (portAt s p.val).maxFrame + macsecAdds s p.val frame ∧ fcsGood frame = false) :=
      fun ⟨hshort, hbad⟩ => hok.elim (Nat.not_lt.mpr hshort) (ne_true_of_eq_false hbad)
    rw [hx, if_neg (Nat.not_lt.mpr h64), if_neg hgood]
  refine ⟨fun hrunt => ?_, fun h64 hlong hbad => ?_, fun hp h64 hok => ?_, fun hp h64 hok => ?_⟩
  · rw [hx, if_pos hrunt]
  · rw [hx, if_neg (Nat.not_lt.mpr h64), if_pos ⟨Nat.not_lt.mp hlong, hbad⟩]
  · subst hp
    exact htaken h64 hok
  · have hp4 : p.val < 4 := Nat.lt_of_le_of_ne (Nat.le_of_lt_succ p.isLt) (Fin.val_ne_of_ne hp)
    refine ⟨fun f mark hm => ?_, fun hm => ?_⟩
    · rw [htaken h64 hok, rxPassed_delivered hp4 hm]
    · rw [htaken h64 hok, rxPassed_dropped hp4 hm]

/-- Settles O50: each clause is the rule of its event; what the statement says of a port or a stream is then read from the state
that the rule gives. -/
theorem networkEvents : Obligations.NetworkEvents := by
  refine ⟨fun s p e he hn => exec_pauseExpire he hn, fun s p e b he hb hw hn => ?_, fun s p b hb hn => ?_,
    fun s p => ⟨rfl, fun hf hw hc => exec_linkDown_up hf hw hc⟩, fun s frame c hg hm hw => exec_wakeFrame hg hm hw,
    fun s hw ht hn => if_pos ⟨hw, ht, hn⟩, fun s k ho hl => ?_, fun s k n ws hr => ?_,
    fun s k n ws hr => exec_streamPacketQueue hr, fun s p => ⟨_, exec_streamPacketStale p s, ?_⟩⟩
  · obtain ⟨hend, hat_, hhold⟩ := portAt_watchdogEnds p.val s
    exact ⟨_, hend, hat_, hhold, watchdogEnds_net_flt p.val s, exec_pauseWatchdog he hb hw hn⟩
  · exact ⟨_, exec_pauseHoldoffEnd hb hn, portAt_onPort .., fun j hj => portAt_onPort_other _ s hj⟩
  · refine ⟨_, exec_streamLoss ho hl, ?_, fun j hj => ?_⟩
    · rw [rxAt_streamLost, rxAt_onRx, streamEmptied]
    · rw [rxAt_streamLost, rxAt_onRx_other _ s hj]
  · exact ⟨_, exec_streamPacketQueue_other hr, txAt_onTx .., fun j hj => txAt_onTx_other _ s hj⟩
  · rw [portAt_foldl_onTx, portAt_onPort]

end Sys2Proof.Proofs
end

section
/-! The census of local modules and stages (09 R300, R301, R304): what each census event does. -/

namespace Sys2Proof.Proofs

open Sys2Proof Sys2Proof.Machine Sys2Proof.Laws

variable {s : State}

/-! ### Modules on I²C (R300, R304) -/

/-- A run that waits for its probe asks every address once, and then waits for a probe no longer (R300). -/
theorem exec_censusProbe_run (answers : List (Fin 32 × List Byte)) (hn : nolutDown s = false) (hb : s.lio.busy = true)
    (hp : s.lio.probe = true) :
    exec (.censusProbe answers) s = .next (censusEnd ((List.range 32).foldl (fun u m =>
      probeModule true m ((answers.find? fun a => a.1.val == m).map (·.2)) u) (s.onLio fun x => { x with
        probe := false
        probeAt := s.clk.now }))) := by
  have hrun : (s.lio.busy && s.lio.probe) = true := Bool.and_eq_true_iff.mpr ⟨hb, hp⟩
  show execCensusProbe answers s = _
  simp only [execCensusProbe, hn, hrun, Bool.false_eq_true, if_false, Bool.true_or, if_true, Bool.not_true, Bool.and_false]

/-- The bytes of a module that is being read are checked; a bad CRC makes it a failed read (R300, R304). -/
theorem exec_censusReadComplete {m : Fin 32} (b : List Byte) (hn : nolutDown s = false) (hr : (modAt s m.val).st = 1) :
    exec (.censusReadComplete m b) s
      = .next (if dmirCrc b then moduleDone m.val (dmirRead m.val b s) else readFailed m.val s) :=
  if_pos ⟨hr, hn⟩

/-- A NACK or a long clock stretch makes the read of a module a failed one (R300). -/
theorem exec_censusReadRetry {m : Fin 32} (hn : nolutDown s = false) (hr : (modAt s m.val).st = 1) :
    exec (.censusReadRetry m) s = .next (readFailed m.val s) :=
  congrArg Host.Outcome.next (if_pos ⟨hr, hn⟩)

/-- A bus that 9 clocks and a stop have freed changes nothing (R300). -/
theorem exec_i2cBusStuck_freed (b : Fin 4) (s : State) : exec (.i2cBusStuck b true) s = .next s := rfl

/-- A bus that stays stuck is reported, and each of its 8 modules becomes UNREADABLE (R300). The OBJECT of the report is the
model's choice (log entry 99). -/
theorem exec_i2cBusStuck_stuck (b : Fin 4) (s : State) :
    exec (.i2cBusStuck b false) s = .next ((List.range 8).foldl (fun u a =>
      moduleDone (8 * b.val + a) (unreadable (8 * b.val + a) u)) (raise 0x0705 (8 * b.val) 0 (stickLio 1 s))) := rfl

/-! ### Stages (R301, R304) -/

/-- A stage that is being read is checked when all 256 bytes have come (R301, R304). -/
theorem exec_stageDmirReadComplete {l : Fin 32} (hn : nolutDown s = false) (hr : (modAt s (32 + l.val)).st = 1)
    (hlen : (linkAt s l.val).dmir.length = 256) :
    exec (.stageDmirReadComplete l) s = .next (moduleDone (32 + l.val) (dmirRead (32 + l.val) (linkAt s l.val).dmir
      (onLink l.val (fun k => { k with dmir := [] }) s))) :=
  if_pos ⟨hr, hlen, hn⟩

/-- An UNREADABLE stage whose time has come is read again while its link is up (R301). -/
theorem exec_stageDmirRetry {l : Fin 32} {b : Nat} (ha : (modAt s (32 + l.val)).retryAt = some b) (hb : b ≤ s.clk.now)
    (hn : nolutDown s = false) (hup : (linkAt s l.val).up = true) (hst : (modAt s (32 + l.val)).st = 3) :
    exec (.stageDmirRetry l) s = .next (dmirStart l.val s) := by
  show execStageDmirRetry l s = _
  simp only [execStageDmirRetry, ha]
  rw [if_pos ⟨hb, hup, hst, hn⟩]

end Sys2Proof.Proofs
end

section
/-! O51, from the rules above. -/

namespace Sys2Proof.Proofs

open Sys2Proof Sys2Proof.Machine Sys2Proof.Laws

/-- Settles O51: each clause is the rule of its event; a module that has been read takes the branch of R304 that its CRC names.
The OBJECT of BUS_STUCK and where a stage's read starts are the model's readings (log entries 99 and 100). -/
theorem censusEvents : Obligations.CensusEvents := by
  refine ⟨fun s answers hn hb hp => exec_censusProbe_run answers hn hb hp, fun s m b hn hr => ⟨fun hcrc => ?_, fun hcrc => ?_, ?_⟩,
    fun s b => ⟨exec_i2cBusStuck_freed b s, exec_i2cBusStuck_stuck b s⟩,
    fun s l hn hr hlen => exec_stageDmirReadComplete hn hr hlen,
    fun s l b ha hb hn hup hst => exec_stageDmirRetry ha hb hn hup hst⟩
  · rw [exec_censusReadComplete b hn hr, if_pos hcrc]
  · rw [exec_censusReadComplete b hn hr, if_neg (ne_true_of_eq_false hcrc)]
  · exact exec_censusReadRetry hn hr

end Sys2Proof.Proofs
end

section
/-! The twin pair (10 R314 to R339; 07 R226): what a report leaves alone in the twin, and what each event of a pair does. -/

namespace Sys2Proof.Proofs

open Sys2Proof Sys2Proof.Machine Sys2Proof.Laws

variable {s : State}

/-! ### What a report and a record leave alone -/

@[simp] theorem raise_twin (c o : Nat) (d : BitVec 64) (s : State) : (raise c o d s).twin = s.twin := by
  rw [raise_flt]

@[simp] theorem keepRecord_twin (d : Decision) (s : State) :
    (keepRecord d s).twin = { s.twin with records := (d :: s.twin.records).take 8 } := rfl

@[simp] theorem setTwin_twin (st : Nat) (s : State) :
    (setTwin st s).twin = { s.twin with state := st, stateAt := sampleNow s } := rfl

/-! ### Start and joining (R314, R323, R325 to R327) -/

/-- At the end of its wait, with the link down and no stage that has reported the peer, a unit becomes the claimant (R314). -/
theorem exec_twinStartWait {t0 : Nat} (hj : s.twin.joinFrom = some t0) (hp : s.twin.pair = true) (hst : s.twin.state = 1)
    (hl : s.twin.linkUp = false) (hstay : s.twin.stay = false) (hn : nolutDown s = false)
    (hw : t0 + s.twin.startWait * 100000 * (if s.twin.unit then 2 else 1) ≤ s.clk.now) :
    exec .twinStartWait s
      = .next (becomeClaimant (if s.twin.highAcc = 0 then 1 else claimSucc s.twin.highAcc) s) := by
  show execTwinStartWait s = _
  simp only [execTwinStartWait, hj]
  exact if_pos ⟨hp, hst, hl, hstay, hw, hn⟩

/-- The end of RUN_IN begins SEED, with every item still to be installed (R323). -/
theorem exec_twinRunInEnd (hst : s.twin.state = 3) (hw : s.twin.runInEnd.toNat ≤ (sampleNow s).toNat) :
    exec .twinRunInEnd s = .next (setTwin 4 (s.onTwin fun t => { t with
      joinAt := s.clk.now
      seedPut := []
      seedLeft := seedItems s })) :=
  if_pos ⟨hst, hw⟩

/-- A block whose words have not come in time computes the wave without them (R325). -/
theorem exec_seedItemTimeout {b : Fin 1024} (hst : s.twin.state = 4) (hl : s.twin.seedLeft.contains (2, b.val) = true)
    (hp : s.twin.seedPut.contains b.val = false) :
    exec (.seedItemTimeout b) s = .next (s.onTwin fun t => { t with seedOver := b.val :: t.seedOver }) :=
  if_pos ⟨hst, hl, hp⟩

/-- A joiner that has converged is READY, with the predecessor of the claimant's claim (R326). -/
theorem exec_twinReady (hst : s.twin.state = 5) (hl : s.twin.linkUp = true) (hc : 4800 ≤ s.twin.convRun) :
    exec .twinReady s = .next (setTwin 6 (s.onTwin fun t => { t with claim := claimPred t.peer.claim })) :=
  if_pos ⟨hst, hl, hc⟩

/-- A join that has lasted its limit fails, and the unit is ALONE (R327). -/
theorem exec_joinFailed (hst : s.twin.state = 4 ∨ s.twin.state = 5)
    (hw : s.twin.joinAt + s.twin.joinLimit * 1000000 ≤ s.clk.now) :
    exec .joinFailed s = .next (setTwin 1 (raise 0x0804 0 0 (s.onTwin fun t => { t with
      failed := true
      joinAt := s.clk.now }))) :=
  if_pos ⟨hst, hw⟩

/-- With AUTO_REJOIN a failed join starts again after the limit (R327). -/
theorem exec_twinAutoRejoin (hf : s.twin.failed = true) (ha : s.twin.autoRejoin = true) (hst : s.twin.state = 1)
    (hl : s.twin.linkUp = true) (hn : nolutDown s = false)
    (hw : s.twin.joinAt + s.twin.joinLimit * 1000000 ≤ s.clk.now) :
    exec .twinAutoRejoin s = .next (startJoin s) :=
  if_pos ⟨hf, ha, hst, hl, hw, hn⟩

/-! ### Promotion (R331, R334) -/

/-- In wave `p` the old claimant stands down (R334). -/
theorem exec_twinPromotion_claimant {p : BitVec 64} {c : BitVec 16} {swap : Bool}
    (hp : s.twin.promAt = some (p, c, swap)) (hw : p.toNat ≤ (sampleNow s).toNat) (ha : s.twin.active = true) :
    exec .twinPromotion s = .next (standDown p swap (s.onTwin fun t => { t with promAt := none, lastProm := p })) := by
  show execTwinPromotion s = _
  simp only [execTwinPromotion, hp]
  refine (if_pos ⟨hw, ?_⟩).trans (if_pos ha)
  rw [ha, Bool.true_or]

/-- In wave `p` a standby whose firmware runs and which has no load staged becomes the claimant (R331). -/
theorem exec_twinPromotion_standby {p : BitVec 64} {c : BitVec 16} {swap : Bool}
    (hp : s.twin.promAt = some (p, c, swap)) (hw : p.toNat ≤ (sampleNow s).toNat) (ha : s.twin.active = false)
    (hn : nolutDown s = false) (hq : s.plan.staged = none) :
    exec .twinPromotion s = .next (becomeClaimant c ((s.onTwin fun t => { t with promAt := none, lastProm := p }).onTwin
      fun t => { t with promotions := satAdd t.promotions 1 })) := by
  show execTwinPromotion s = _
  simp only [execTwinPromotion, hp, onTwin_plan, hq]
  refine (if_pos ⟨hw, ?_⟩).trans (if_neg (ne_true_of_eq_false ha))
  rw [hn, Bool.not_false, Bool.or_true]

/-- At the latest in wave `w` the old claimant drops its claim and rejoins (R334). -/
theorem exec_twinClaimDrop {w : BitVec 64} (hd : s.twin.dropAt = some w) (hw : w.toNat ≤ (sampleNow s).toNat) :
    exec .twinClaimDrop s = .next (rejoin (s.onTwin fun t => { t with dropAt := none })) := by
  show execTwinClaimDrop s = _
  simp only [execTwinClaimDrop, hd]
  exact if_pos (.inr hw)

/-! ### Frames and lanes (R315 to R320) -/

/-- A frame that fails ends its lane's run of good frames (R315, R317). -/
theorem exec_octotFrameReceive_fails {k : Fin 2} {h : List Byte} {good : Bool} (recs : List FwdRec)
    (hp : s.twin.pair = true) (hbad : (good && fld h 0 4 == 0x4F435431 && h.length == 368) = false) :
    exec (.octotFrameReceive k good h recs) s
      = .next (s.onTwin fun t => { t with laneGood := tput 0 t.laneGood k.val 0 }) := by
  show execOctotFrameReceive k good h recs s = _
  simp only [execOctotFrameReceive, hp, hbad, if_true, Bool.false_eq_true, if_false]

/-- The first good copy of a frame is taken; before its 16th good frame in a row a lane stays as it is (R315, R317). -/
theorem exec_octotFrameReceive_first {k : Fin 2} {h : List Byte} {recs : List FwdRec} (hp : s.twin.pair = true)
    (hst : s.twin.state ≠ 2) (hm : fld h 0 4 = 0x4F435431) (hlen : h.length = 368) (hg : tget 0 s.twin.laneGood k.val < 15)
    (hfirst : s.twin.heardAt ≠ some (octParse h (recs.filter fun r => r.type != 6)).sample) :
    exec (.octotFrameReceive k true h recs) s = .next (octTake (octParse h (recs.filter fun r => r.type != 6))
      (s.onTwin fun t => { t with
        heard := t.heard ||| BitVec.ofNat 2 (2 ^ k.val)
        laneGood := tput 0 t.laneGood k.val (tget 0 t.laneGood k.val + 1) })) := by
  have hrun : min 16 (tget 0 s.twin.laneGood k.val + 1) = tget 0 s.twin.laneGood k.val + 1 := by omega
  have hdown : ¬ 16 ≤ tget 0 s.twin.laneGood k.val + 1 := by omega
  have hgood : (true && fld h 0 4 == 0x4F435431 && h.length == 368) = true := by rw [hm, hlen]; decide
  show execOctotFrameReceive k true h recs s = _
  simp only [execOctotFrameReceive, hp, hgood, if_true, State.onTwin, hrun, tget_tput_same, hdown, hst, hfirst, if_false]

/-- A lane that is up goes down after 8 periods without a good frame (R317). -/
theorem exec_octotLane {k : Fin 2} (hup : s.twin.laneUp.getLsbD k.val = true) (hbad : 8 ≤ tget 0 s.twin.laneBad k.val) :
    exec (.octotLane k) s = .next (octEval (raise 0x0801 k.val 0 (s.onTwin fun t => { t with
      laneUp := t.laneUp &&& ~~~ (BitVec.ofNat 2 (2 ^ k.val)) }))) :=
  if_pos ⟨hup, hbad⟩

/-- An upstream frame tells the unit what its stage accepts, and a quorum of stages may promote it (07 R226; R313, R336). -/
theorem exec_upstreamFrameReceive (l : Fin 32) (comma : Bool) (frame : List Byte) (s : State) :
    exec (.upstreamFrameReceive l comma frame) s
      = .next (quorumPromote (stageTells l.val (upstreamFrame l.val comma frame s))) := rfl

/-- Forwarded commands that are due are applied (R319). -/
theorem exec_forwardedCommandApply (s : State) : exec .forwardedCommandApply s = .next (forwardAll s) := rfl

/-! ### Decisions (R328, R329, R339) -/

/-- A decision that ends: its record `r` is kept, and its outcome shown (R328). -/
def decided (r : Decision) (s : State) : State :=
  keepRecord r (s.onTwin fun t => { t with
    decide := none
    outcome := r.outcome })

/-- The two trip flags of a unit as a field of a record are not 0 exactly when one of them is set (R328). -/
theorem tripFlags_bne_zero (a b : Bool) : (BitVec.ofNat 2 (b2n a + 2 * b2n b) != 0) = (a || b) := by
  decide +revert

/-- A decision while a promotion is in progress is only recorded (R339). -/
theorem exec_twinDecision_busy {d : Decision} (hd : s.twin.decide = some d)
    (hw : d.sample.toNat + 8 ≤ (sampleNow s).toNat) (hn : nolutDown s = false) (hb : promBusy (d.sample + 8) s = true) :
    ∃ r : Decision, exec .twinDecision s = .next (decided r s) := by
  show ∃ r, execTwinDecision s = _
  simp only [execTwinDecision, hd, hw, hn, and_self, if_true, hb]
  exact ⟨_, rfl⟩

/-- Where only this unit has a trip flag set and it is the claimant, the standby is promoted in wave n + 9 (R328 step 1, R329). -/
theorem exec_twinDecision_claimantLoses {d : Decision} (hd : s.twin.decide = some d)
    (hw : d.sample.toNat + 8 ≤ (sampleNow s).toNat) (hn : nolutDown s = false) (hb : promBusy (d.sample + 8) s = false)
    (hown : (s.twin.own.flags.getLsbD 4 || s.twin.own.flags.getLsbD 5) = true)
    (hpeer : (s.twin.peer.flags.getLsbD 4 || s.twin.peer.flags.getLsbD 5) = false) (ha : d.active = true) :
    ∃ r : Decision, r.outcome = 2 ∧ exec .twinDecision s = .next (raise 0x0806 0 0 ((decided r s).onTwin fun t => { t with
      promAt := some (d.sample + 9, claimSucc (if t.active then t.claim else t.peer.claim), false) })) := by
  have hloser (e : Decision) : decideLoser true false e = (some true, 1) := rfl
  show ∃ r : Decision, r.outcome = 2 ∧ execTwinDecision s = _
  simp only [execTwinDecision, hd, hw, hn, and_self, if_true, tripFlags_bne_zero, hown, hpeer, hloser, ha, hb, beq_self_eq_true,
    Bool.false_eq_true, if_false]
  exact ⟨_, rfl, rfl⟩

end Sys2Proof.Proofs
end

section
/-! O45 and O46, from the rules above. -/

namespace Sys2Proof.Proofs

open Sys2Proof Sys2Proof.Machine Sys2Proof.Laws

/-- Settles O45: each clause is the rule of its event; what the statement says of the unit's state, its seed items, its claim and
its join is then read from the state that the rule gives. -/
theorem pairStates : Obligations.PairStates := by
  refine ⟨fun s t0 hj hp hst hl hstay hn hw => exec_twinStartWait hj hp hst hl hstay hn hw,
    fun s hst hw => ⟨_, exec_twinRunInEnd hst hw, rfl, rfl, rfl, rfl⟩,
    fun s b hst hl hp => exec_seedItemTimeout hst hl hp,
    fun s hst hl hc => ⟨_, exec_twinReady hst hl hc, rfl, rfl⟩,
    fun s hst hw => ⟨_, exec_joinFailed hst hw, rfl, ?_⟩,
    fun s hf ha hst hl hn hw => exec_twinAutoRejoin hf ha hst hl hn hw,
    fun s p c swap hp hw => ⟨fun ha => exec_twinPromotion_claimant hp hw ha,
      fun ha hn hq => exec_twinPromotion_standby hp hw ha hn hq⟩,
    fun s w hd hw => exec_twinClaimDrop hd hw⟩
  rw [setTwin_twin, raise_twin]
  exact ⟨rfl, rfl⟩

/-- Settles O46: each clause is the rule of its event; what a decision leaves is the twin of `decided`, with the promotion where
the claimant loses. -/
theorem pairFrames : Obligations.PairFrames := by
  refine ⟨fun s k h recs good hp hbad => exec_octotFrameReceive_fails recs hp hbad,
    fun s k h recs hp hst hm hlen hg hfirst => exec_octotFrameReceive_first hp hst hm hlen hg hfirst,
    fun s k hup hbad => exec_octotLane hup hbad, fun s l comma frame => exec_upstreamFrameReceive l comma frame s,
    fun s d hd hw hn hb => ?_, fun s d hd hw hn hb hown hpeer ha => ?_, exec_forwardedCommandApply⟩
  · obtain ⟨r, hx⟩ := exec_twinDecision_busy hd hw hn hb
    exact ⟨_, hx, rfl⟩
  · obtain ⟨r, hr, hx⟩ := exec_twinDecision_claimantLoses hd hw hn hb hown hpeer ha
    refine ⟨_, hx, ?_⟩
    rw [raise_twin]
    exact ⟨rfl, hr, rfl⟩

end Sys2Proof.Proofs
end

section
/-! The requests of the Kiosks (11 R357 to R359; 10 R319): a command carries out the request that waits for it on its Kiosk, or
answers with what the checks find. -/

namespace Sys2Proof.Proofs

open Sys2Proof Sys2Proof.Machine Sys2Proof.Laws

variable {s : State} {c : Instr} {q : KioskRow} {r : Req}

/-- A command of a Kiosk carries out the request that waits for it; CLK_GATE_SET first notes in a sticky bit what it refuses. -/
theorem exec_of_kioskRow (h : kioskRow c = some q) (hg : ∀ k, c ≠ .clkGateSet k) :
    exec c s = .next (runKiosk q.code q.kiosk q.fwd q.check q.effect s) := by
  cases c <;> cases h
  case clkGateSet k => exact absurd rfl (hg k)
  all_goals rfl

/-- An accepted CLK_GATE_SET has nothing to refuse. -/
theorem exec_clkGateSet_accepted {k : Fin 32} (h : Accepts 0x0906 k.val clkGateSetCheck r s) :
    exec (.clkGateSet k) s = .next (runKiosk 0x0906 k.val fwdNever clkGateSetCheck clkGateSetEffect s) := by
  obtain ⟨hheld, -, hcheck⟩ := h
  simp [exec, execClkGateSet, hheld, hcheck]

/-- An accepted request of any of the commands of the Kiosks is carried out. -/
theorem exec_of_accepts (h : kioskRow c = some q) (ha : Accepts q.code q.kiosk q.check r s) :
    exec c s = .next (runKiosk q.code q.kiosk q.fwd q.check q.effect s) := by
  by_cases hg : ∃ k, c = .clkGateSet k
  · obtain ⟨k, rfl⟩ := hg
    cases h
    exact exec_clkGateSet_accepted ha
  · exact exec_of_kioskRow h (not_exists.mp hg)

/-- Settles O33: the commands run the request on their Kiosk, and an accepted one runs into its effect. -/
theorem kioskCommandsAccepted : Obligations.KioskCommandsAccepted :=
  fun _ _ h _ _ ha => (exec_of_accepts h ha).trans (congrArg _ (runKiosk_accepts ha))

/-- Settles O34: the commands run the request on their Kiosk, and one that a check turns away is answered with what it finds. -/
theorem kioskCommandsTurnedAway : Obligations.KioskCommandsTurnedAway := by
  intro c q s r h hg hheld
  rw [exec_of_kioskRow h hg]
  exact ⟨fun he => congrArg _ (runKiosk_epoch hheld he), fun he f hf => congrArg _ (runKiosk_fails hheld he hf)⟩

end Sys2Proof.Proofs
end

section
/-! What the interrupt of a Kiosk and a response leave alone (11 R356 to R358, R365). -/

namespace Sys2Proof.Proofs

open Sys2Proof Sys2Proof.Machine Sys2Proof.Laws

variable {s : State}

/-- A changed Kiosk reads as changed. -/
@[simp] theorem kiosk_onKiosk (k : Nat) (g : KioskS → KioskS) (s : State) :
    tget {} (onKiosk k g s).host.kiosks k = g (tget {} s.host.kiosks k) := tget_tmod_same ({} : KioskS) _ k g

/-- The interrupt of a Kiosk is a bit of HOST_IRQ and a message. -/
theorem kioskIrq_host (k : Nat) (s : State) : (kioskIrq k s).host = { s.host with
    irq := (kioskIrq k s).host.irq
    irqHi := (kioskIrq k s).host.irqHi
    msix := (kioskIrq k s).host.msix } := by
  unfold kioskIrq
  split
  · split <;> rfl
  · rfl

/-- A response stands in its Kiosk, with the interrupt, and moves the counter of a sealed session on. -/
theorem answer_frame (k status detail : Nat) (b : List Byte) (s : State) : answer k status detail b s = { s with
    host := { s.host with
      kiosks := (answer k status detail b s).host.kiosks
      irq := (answer k status detail b s).host.irq
      irqHi := (answer k status detail b s).host.irqHi
      msix := (answer k status detail b s).host.msix }
    sm := { s.sm with session := (answer k status detail b s).sm.session } } := by
  unfold answer
  extract_lets ks
  split
  · rfl
  · split
    · rfl
    · rw [kioskIrq_only, kioskIrq_host]
      dsimp only [onKiosk, State.onHost]
      split <;> rfl

end Sys2Proof.Proofs
end
section
/-! Doorbells (11 R357), Kiosk 0 (11 R362), the registers and the SPI port (11 R351, R352) and the Data Port (11 R369 to R371). -/

namespace Sys2Proof.Proofs

open Sys2Proof Sys2Proof.Machine Sys2Proof.Laws

variable {s : State}

/-! ### Doorbells (R357) -/

/-- The request in the buffer is the one in progress, and the Kiosk is BUSY. -/
def busyWith (k : Nat) (r : Req) (s : State) : State := onKiosk k (fun x => { x with st := 1, req := some r }) s

/-- A doorbell on a Kiosk that has not answered yet is counted and marked. -/
def doorbellError (k : Nat) (s : State) : State :=
  onKiosk k (fun x => { x with dbErr := true }) (s.onHost fun h => { h with dbErrors := satAdd h.dbErrors 1 })

theorem exec_kioskDoorbell (k : Fin 32) (h : hostUp s = true) : exec (.kioskDoorbell k ()) s = .next (doorbell k.val s) :=
  if_pos h

theorem doorbell_of_ne_zero {k : Nat} (h : k ≠ 0) (s : State) : doorbell k s = ringKiosk k s := if_neg h

/-- Outside READY, and on an OFFLINE Kiosk, a doorbell does nothing. -/
theorem ringKiosk_ignored {k : Nat} (h : s.host.fwState ≠ 5 ∨ (tget {} s.host.kiosks k).st = 7) : ringKiosk k s = s := if_pos h

/-- On a BUSY Kiosk a doorbell is an error. -/
theorem ringKiosk_busy {k : Nat} (hf : s.host.fwState = 5) (hst : (tget {} s.host.kiosks k).st = 1) :
    ringKiosk k s = doorbellError k s := by
  have h5 : ¬ (s.host.fwState ≠ 5 ∨ (tget {} s.host.kiosks k).st = 7) := by rw [hf, hst]; decide
  exact (if_neg h5).trans (if_pos (.inl hst))

/-- Only Kiosk 31 takes sealed requests. -/
theorem openSeal_of_ne {k : Nat} (h : k ≠ 31) (header : List Byte) (r : Req) (s : State) :
    openSeal k header r s = (some r, s) := if_pos h

/-- On a Kiosk without a command in progress a request that passes the early checks is taken up. -/
theorem ringKiosk_takes {k : Nat} (hf : s.host.fwState = 5) (h1 : (tget {} s.host.kiosks k).st ≠ 1)
    (h7 : (tget {} s.host.kiosks k).st ≠ 7) (hr : (tget {} s.host.kiosks k).req = none) (hk : k ≠ 31)
    (hl : fld (bufBytes (tget {} s.host.kiosks k).reqBuf 256) 4 2 ≤ 240)
    (hc : earlyCheck k (bufRequest (tget {} s.host.kiosks k)) (busyWith k (bufRequest (tget {} s.host.kiosks k)) s) = none) :
    ringKiosk k s = busyWith k (bufRequest (tget {} s.host.kiosks k)) s := by
  have h5 : ¬ (s.host.fwState ≠ 5 ∨ (tget {} s.host.kiosks k).st = 7) := not_or.mpr ⟨not_not_intro hf, h7⟩
  have hn : ¬ ((tget {} s.host.kiosks k).st = 1 ∨ (tget {} s.host.kiosks k).req.isSome = true) := by rw [hr]; simpa using h1
  simp only [busyWith] at hc ⊢
  simp only [ringKiosk, if_neg h5, if_neg hn, if_neg (Nat.not_lt.mpr hl), openSeal_of_ne hk, hc]

/-- Settles O37: by the state of the Kiosk. -/
theorem kioskDoorbells : Obligations.KioskDoorbells := by
  intro s k hup hk q
  have h0 : k.val ≠ 0 := fun h => hk (Fin.ext h)
  rw [exec_kioskDoorbell k hup, doorbell_of_ne_zero h0]
  refine ⟨fun h => by rw [ringKiosk_ignored h], fun hf hst => ?_, fun hf h1 h7 hr h31 hl hc => ?_⟩
  · rw [ringKiosk_busy hf hst]
    exact ⟨_, rfl, rfl, by rw [doorbellError, kiosk_onKiosk], rfl, by rw [doorbellError, kiosk_onKiosk]; rfl⟩
  · exact congrArg _ (ringKiosk_takes hf h1 h7 hr (fun h => h31 (Fin.ext h)) hl hc)

/-! ### Kiosk 0 (R362) -/

/-- In READY the next message is shown on Kiosk 0 once the one before is acknowledged. -/
theorem exec_kiosk0EventPost {r : Rec} {l : List Rec} (hf : s.host.fwState = 5) (h3 : (tget {} s.host.kiosks 0).st ≠ 3)
    (hq : s.host.k0 = r :: l) : exec .kiosk0EventPost s = .next (k0Show r (s.onHost fun h => { h with k0 := l })) := by
  simp only [exec, execKiosk0EventPost, hf, h3, hq, ne_eq, not_false_eq_true, and_self, if_true]

/-- Kiosk 0 in state EVENT shows the record's number. -/
theorem kiosk_k0Show (r : Rec) (s : State) : ((tget {} (k0Show r s).host.kiosks 0).st,
    (tget {} (k0Show r s).host.kiosks 0).tagDone) = (3, r.seq.truncate 16) := by
  rw [k0Show, kioskIrq_kiosks, kiosk_onKiosk]

theorem k0Show_k0 (r : Rec) (s : State) : (k0Show r s).host.k0 = s.host.k0 := by
  rw [k0Show, kioskIrq_host]
  rfl

theorem exec_kiosk0Ack_event (hf : s.host.fwState = 5) (h3 : (tget {} s.host.kiosks 0).st = 3) :
    exec .kiosk0Ack s = .next (onKiosk 0 (fun k => { k with st := 0 }) s) := by
  simp only [exec, execKiosk0Ack, hf, h3, if_true]

/-- A command on Kiosk 0 is answered WRONG_KIOSK. -/
def wrongKiosk (s : State) : State :=
  let b := bufBytes (tget {} s.host.kiosks 0).reqBuf 256
  kioskIrq 0 (onKiosk 0 (fun k => { k with
    respBuf := bufPut k.respBuf (respHeader (fld b 0 2) (fld b 2 2) 0 s.plan.epoch 0x0008 0)
    st := 2
    tagDone := BitVec.ofNat 16 (fld b 2 2) }) (s.onHost fun h => { h with rejected := satAdd h.rejected 1 }))

theorem exec_kiosk0Ack_command (hf : s.host.fwState = 5) (h3 : (tget {} s.host.kiosks 0).st ≠ 3) :
    exec .kiosk0Ack s = .next (wrongKiosk s) := by
  simp only [exec, execKiosk0Ack, hf, h3, if_true, if_false]
  rfl

theorem wrongKiosk_st (s : State) : (tget {} (wrongKiosk s).host.kiosks 0).st = 2 := by
  rw [wrongKiosk, kioskIrq_kiosks, kiosk_onKiosk]

theorem wrongKiosk_rejected (s : State) : (wrongKiosk s).host.rejected = satAdd s.host.rejected 1 := by
  rw [wrongKiosk, kioskIrq_host]
  rfl

/-! ### Registers and the SPI port (R351, R352, R363; 01 R36) -/

/-- What the host has read is what the access brings. -/
@[simp] theorem readOut_rdata (r : List Byte × State) : (readOut r).host.rdata = r.1 := rfl

theorem length_sized (n : Nat) (b : List Byte) : (sized n b).length = n := by
  simp only [sized, zeros, List.length_take, List.length_append, List.length_replicate]
  omega

/-- Cut to what it may carry, a write goes to BAR2 or, word by word, to the registers. -/
theorem exec_spiWrite {a : BitVec 32} {d : List Byte} (hup : hostUp s = true) (ha : spiGood a = true) (hd : d ≠ []) :
    exec (.spiWrite a d ()) s =
      let n := d.take (spiLen a d.length)
      let u := spiDone (decide (n.length < d.length)) s
      if spiBar2 a then .next (bar2Write (spiOff a) (n.map some) u)
      else .next ((wordsOf (spiOff a) n.length).foldl (fun u w => hostWrite w (wordPart (spiOff a) n w) u) u) :=
  if_pos (by simp [hup, ha, hd])

theorem exec_spiRead {a : BitVec 32} {n : Nat} (hup : hostUp s = true) (ha : spiGood a = true) (hn : n ≠ 0) :
    ∃ r : List Byte × State, exec (.spiRead a n) s = .next (readOut (sized n r.1, r.2)) :=
  ⟨_, if_pos (by simp [hup, ha, hn])⟩

/-! ### The Data Port (R369 to R371) -/

@[simp] theorem dpAt_onDp (c : Nat) (f : DpS → DpS) (s : State) : dpAt (onDp c f s) c = f (dpAt s c) :=
  tget_tmod_same ({} : DpS) _ c f

theorem dpAt_onDp_other {c j : Nat} (f : DpS → DpS) (s : State) (h : j ≠ c) : dpAt (onDp c f s) j = dpAt s j :=
  tget_tmod_other ({} : DpS) _ c j f h

theorem exec_dpBurstIdleEnd {c : Fin 4} (hb : (dpAt s c.val).burstNext.isSome = true)
    (ht : (dpAt s c.val).burstAt + 2 ≤ s.clk.now) : exec (.dpBurstIdleEnd c) s = .next (dpEnd c.val s) := if_pos ⟨hb, ht⟩

/-- Settles O52: each clause is the rule of its access. -/
theorem hostAccesses : Obligations.HostAccesses := by
  refine ⟨fun s k hup => exec_kioskDoorbell k hup, fun s r l hf h3 hq => ?_, fun s hf => ⟨fun h3 => ?_, fun h3 => ?_⟩,
    fun s o d hup => if_pos hup, fun s o hup => ⟨_, if_pos hup, rfl⟩, fun s hup => ⟨_, if_pos hup, rfl⟩,
    fun s v hup => if_pos hup, fun s a d hup ha hd => ⟨fun hb => ?_, fun hb => ?_⟩, fun s a n hup ha hn => ?_,
    fun s hup => ⟨_, if_pos hup, rfl, rfl⟩, fun s c o d => rfl, fun s c o n ded => rfl,
    fun s c => ⟨rfl, exec_dpBurstIdleEnd, fun v => rfl, ?_⟩⟩
  · obtain ⟨hst, htag⟩ := Prod.mk.inj (kiosk_k0Show r (s.onHost fun h => { h with k0 := l }))
    exact ⟨_, exec_kiosk0EventPost hf h3 hq, k0Show_k0 r _, hst, htag⟩
  · exact ⟨_, exec_kiosk0Ack_event hf h3, rfl, by rw [kiosk_onKiosk]⟩
  · exact ⟨_, exec_kiosk0Ack_command hf h3, wrongKiosk_st s, wrongKiosk_rejected s⟩
  · exact (exec_spiWrite hup ha hd).trans (if_pos hb)
  · exact (exec_spiWrite hup ha hd).trans (if_neg (Bool.not_eq_true _ ▸ hb))
  · obtain ⟨r, hr⟩ := exec_spiRead hup ha hn
    exact ⟨_, hr, length_sized n r.1⟩
  · exact ⟨_, rfl, dpAt_onDp _ _ s, fun j hj => dpAt_onDp_other _ s hj⟩

end Sys2Proof.Proofs
end

section
/-! The commands that only read (11 R357, R358): their effect changes nothing and their response is returned at once. -/

namespace Sys2Proof.Proofs

open Sys2Proof Sys2Proof.Machine Sys2Proof.Laws

variable {s : State} {c : Instr} {q : KioskRow} {r : Req} {code k : Nat}

/-! ### A request that begins -/

/-- The request waits on its Kiosk with the code of its command. -/
theorem kiosk_of_heldReq (h : heldReq code k s = some r) : (tget {} s.host.kiosks k).req = some r ∧ r.code = code := by
  unfold heldReq at h
  dsimp only at h
  split at h
  · next u hu =>
    split at h
    · next hc =>
      cases h
      exact ⟨hu, hc.1⟩
    · cases h
  · cases h

/-- A command that is not forwarded begins within the host interface. -/
theorem begun_false_hostOnly (code k : Nat) (r : Req) (s : State) : HostOnly s (begun code k false r s) := rfl

/-- The Kiosk of a command that has begun. -/
theorem kiosk_begun (code k : Nat) (r : Req) (s : State) : tget {} (begun code k false r s).host.kiosks k =
    { tget {} s.host.kiosks k with req := some { r with
      taken := true
      wave := effWave code r.payload (sampleNow s) } } :=
  kiosk_onKiosk k _ _

/-! ### Commands that read -/

/-- The effect reads: it has a response, and no part of the state changes but, by `f`, the counter of free values. -/
def EffectReads (f : Nat → Nat) (effect : Nat → List Byte → State → Effect) : Prop :=
  ∀ k p u, ∃ b, effect k p u = (u.onFree f, some b)

/-- A command whose effect reads is answered at once, within the host interface. -/
theorem reads_of_effectReads {f : Nat → Nat} (h : kioskRow c = some q) (hf : q.fwd = fwdNever) (he : EffectReads f q.effect) :
    Reads (fun s t => t = { s with host := t.host, free := f s.free }) c := by
  intro q' s r h' ha hp
  obtain rfl : q = q' := Option.some.inj (h.symm.trans h')
  obtain ⟨hreq, hcode⟩ := kiosk_of_heldReq ha.1
  have hk := kiosk_begun q.code q.kiosk r s
  have hb := begun_false_hostOnly q.code q.kiosk r s
  set u := begun q.code q.kiosk false r s
  obtain ⟨b, hb'⟩ := he q.kiosk r.payload u
  have ht : (tget {} (u.onFree f).host.kiosks q.kiosk).req = some (taken r s) := by
    rw [onFree_host, hk, taken, hcode]
  have hp' : Plain q.kiosk (taken r s) (u.onFree f) := ⟨hp.1, by rw [onFree_host, hk]; exact hp.2⟩
  obtain ⟨honly, hans⟩ := answer_answers (status := 0) (detail := 0) (p := b) ht hp'
  have hx : exec c s = .next (answer q.kiosk 0 0 b (u.onFree f)) := by
    rw [exec_of_accepts h ha, runKiosk_accepts ha, hf, if_neg (fun h => Bool.false_ne_true h.1)]
    exact congrArg (Host.Outcome.next ∘ settle q.kiosk) hb'
  refine ⟨_, b, by rw [hb'], hx, ?_, ?_⟩
  · rw [HostOnly] at honly hb
    rw [honly, hb]
    rfl
  · rw [HostOnly] at hb
    rw [hb] at hans ⊢
    exact hans

/-- What a command that reads leaves alone may be said of less. -/
theorem Reads.mono {only only' : State → State → Prop} (h : Reads only c) (hm : ∀ s t, only s t → only' s t) :
    Reads only' c := by
  intro q s r hq ha hp
  obtain ⟨t, b, hb, hx, ho, hans⟩ := h q s r hq ha hp
  exact ⟨t, b, hb, hx, hm s t ho, hans⟩

/-- A command whose effect changes nothing only reads. -/
theorem readsOnly_of_effectReads (h : kioskRow c = some q) (hf : q.fwd = fwdNever) (he : EffectReads id q.effect) :
    ReadsOnly c :=
  reads_of_effectReads h hf he

theorem effectReads_planLatencyRead : EffectReads id planLatencyReadEffect := by
  intro k p u
  unfold planLatencyReadEffect
  split
  · exact ⟨_, rfl⟩
  · exact ⟨_, rfl⟩

/-- NET_PTP_STATUS takes one free value for its readings. -/
theorem reads_netPtpStatus (k : Fin 32) :
    Reads (fun s t => t = { s with host := t.host, free := t.free }) (.netPtpStatus k () ()) := by
  refine Reads.mono (reads_of_effectReads (f := (· + 1)) rfl rfl fun _ _ _ => ⟨_, rfl⟩) fun s t h => ?_
  rw [h]

/-- Settles O35: every effect but that of NET_PTP_STATUS leaves its state and has a response. -/
theorem kioskReads : Obligations.KioskReads := by
  intro k secs ns
  refine ⟨?_, ?_, ?_, ?_, ?_, ?_, ?_, readsOnly_of_effectReads rfl rfl effectReads_planLatencyRead, ?_, ?_, ?_, ?_, ?_, ?_, ?_,
    ?_, ?_, ?_, reads_netPtpStatus k, ?_, ?_, ?_, ?_, ?_, ?_, ?_, ?_, ?_, ?_, ?_, ?_,
    ?_, ?_, ?_, ?_⟩
  all_goals exact readsOnly_of_effectReads rfl rfl fun _ _ _ => ⟨_, rfl⟩

end Sys2Proof.Proofs
end

section
/-! What commands that set registers leave in them (11 R366, R373; 02 R71, R79; 05 R172, R181; 06 R216, R217; 07 R252; 08 R290;
13 R436, R439; 15 R469, R486): neither the request that begins nor the response that ends it touches them. -/

namespace Sys2Proof.Proofs

open Sys2Proof Sys2Proof.Machine Sys2Proof.Laws

variable {s : State} {c : Instr} {q : KioskRow} {p : List Byte} {k : Nat}

/-! ### What a request and its response leave alone -/

/-- A request that begins is counted and taken, and a unit that forwards nothing but is the claimant runs ahead. -/
theorem begun_frame (code k : Nat) (fwd : Bool) (r : Req) (s : State) : begun code k fwd r s = { s with
    host := { s.host with
      accepted := (begun code k fwd r s).host.accepted
      kiosks := (begun code k fwd r s).host.kiosks }
    twin := (begun code k fwd r s).twin } := by
  unfold begun
  extract_lets u v
  have hv : v = u.onTwin fun _ => v.twin := by
    simp only [v]
    split <;> rfl
  clear_value v
  rw [hv]
  rfl

/-- Registers that no request touches by beginning or by being answered are the same in `t` as in `s`. -/
structure SettingsKept (s t : State) : Prop where
  wave : t.wave = s.wave
  xp : t.xp = s.xp
  plan : t.plan = s.plan
  place : t.place = s.place
  drv : t.drv = s.drv
  net : t.net = s.net
  clk : t.clk = s.clk
  classes : t.host.classes = s.host.classes
  view : (t.host.view, t.host.rowBase, t.host.strips, t.host.colBase, t.host.buses)
    = (s.host.view, s.host.rowBase, s.host.strips, s.host.colBase, s.host.buses)
  rollback : t.sm.rollback = s.sm.rollback

theorem SettingsKept.refl (s : State) : SettingsKept s s := ⟨rfl, rfl, rfl, rfl, rfl, rfl, rfl, rfl, rfl, rfl⟩

theorem settingsKept_begun (code k : Nat) (fwd : Bool) (r : Req) (s : State) : SettingsKept s (begun code k fwd r s) := by
  rw [begun_frame]
  exact ⟨rfl, rfl, rfl, rfl, rfl, rfl, rfl, rfl, rfl, rfl⟩

theorem settingsKept_answer (k status detail : Nat) (b : List Byte) (s : State) :
    SettingsKept s (answer k status detail b s) := by
  rw [answer_frame]
  exact ⟨rfl, rfl, rfl, rfl, rfl, rfl, rfl, rfl, rfl, rfl⟩

/-- What an effect has set stays when its response is returned. -/
theorem settingsKept_settle (k : Nat) (e : Effect) : SettingsKept e.1 (settle k e) := by
  unfold settle
  split
  · exact settingsKept_answer k 0 0 _ e.1
  · exact SettingsKept.refl e.1

/-- What a command leaves in registers is what its effect leaves in them, begun on the registers before. -/
theorem leaves_of_effect {post : List Byte → State → State → Prop} (h : kioskRow c = some q)
    (hp : ∀ k p s u t, SettingsKept s u → SettingsKept (q.effect k p u).1 t → post p s t) : Leaves c post := by
  intro q' s r h' ha hfwd
  obtain rfl : q = q' := Option.some.inj (h.symm.trans h')
  have hn : ¬ (q.fwd r.payload = true ∧ forwards s = true) := fun hc => Bool.false_ne_true (hfwd.symm.trans hc.2)
  exact ⟨_, (exec_of_accepts h ha).trans (congrArg _ ((runKiosk_accepts ha).trans (if_neg hn))),
    hp q.kiosk r.payload s _ _ (settingsKept_begun q.code q.kiosk (q.fwd r.payload) r s) (settingsKept_settle q.kiosk _)⟩

/-! ### What each effect sets -/

variable (k)

theorem sysEventConfigEffect_classes : (sysEventConfigEffect k p s).1.host.classes
    = if byteAt p 0 = 1 then BitVec.ofNat 5 (fld p 1 1) else s.host.classes := by
  dsimp only [sysEventConfigEffect]
  split <;> rfl

theorem xpStepTimeoutEffect_stTimeout : (xpStepTimeoutEffect k p s).1.xp.stTimeout
    = if byteAt p 0 = 0 then s.xp.stTimeout else byteAt p 0 := by
  dsimp only [xpStepTimeoutEffect]
  split <;> rfl

/-- A binding of XP_OVL_BIND waits for the next tick (02 R79). -/
theorem xpOvlBindEffect_binds : (xpOvlBindEffect k p s).1.xp.bind = s.xp.bind ∧
    tget none (xpOvlBindEffect k p s).1.xp.bindNext (byteAt p 0).toNat = some (if byteAt p 1 = 0xFF then none
      else some { level := (byteAt p 1).toNat, brokenActs := byteAt p 2 == 1 }) := by
  dsimp only [xpOvlBindEffect, onXp_xp]
  exact ⟨rfl, tget_tput_same none _ _ _⟩

/-- At the tick the binding that waits comes into force. -/
theorem bindAct_single {w : BitVec 64} {i : Nat} {b : Option Bind} (h : s.xp.bindNext = [(i, some b)]) :
    tget none (bindAct w s).xp.bind i = b ∧ (tget {} (bindAct w s).xp.pri i).follows = some w ∧
      (bindAct w s).xp.bindNext = [] := by
  simp only [bindAct, onXp_xp, h, List.foldl_cons, List.foldl_nil]
  exact ⟨tget_tput_same none _ i b, by rw [tget_tmod_same], trivial⟩

/-- A player that plays stops 96 waves on. -/
theorem playerStopEffect_playing (h : (tget {} s.plan.players (byteAt p 0).toNat).st = 2) :
    (tget {} (playerStopEffect k p s).1.plan.players (byteAt p 0).toNat).st = 3 ∧
      (tget {} (playerStopEffect k p s).1.plan.players (byteAt p 0).toNat).stopAt = nextWave s + 96 := by
  dsimp only [playerStopEffect]
  rw [player_onPlayer, if_pos h]
  exact ⟨rfl, rfl⟩

theorem playerBindEffect_bound : (tget {} (playerBindEffect k p s).1.plan.players (byteAt p 0).toNat).bound
    = if byteAt p 1 = 0xFF then none else some (byteAt p 1).toNat := by
  dsimp only [playerBindEffect]
  rw [player_onPlayer]
  split <;> rfl

theorem dspThresholdsEffect_set (h : byteAt p 0 = 1) : (dspThresholdsEffect k p s).1 = s.onPlace fun q => { q with
    thrNext := some (BitVec.ofNat 8 (fld p 1 1), BitVec.ofNat 8 (fld p 2 1), BitVec.ofNat 8 (fld p 3 1),
      BitVec.ofNat 16 (fld p 4 2))
    shadowK := BitVec.ofNat 16 (fld p 4 2) } := by
  rw [dspThresholdsEffect, if_pos h]

theorem dspAuditConfigEffect_set (h : byteAt p 0 = 1) : (dspAuditConfigEffect k p s).1.place = { s.place with
    audOn := byteAt p 1 == 1
    audCycle := BitVec.ofNat 16 (fld p 2 2)
    audWin := BitVec.ofNat 16 (fld p 4 2) } := by
  rw [dspAuditConfigEffect, if_pos h]
  dsimp only
  split
  · rw [raise_flt]
    rfl
  · rfl

theorem drvKerbSetEffect_set (h : byteAt p 1 = 1) : (chanAt (drvKerbSetEffect k p s).1 (byteAt p 0).toNat).kerb
    = { floor := fld p 2 1, vPeak := fld p 4 2, release := fld p 6 2 } := by
  dsimp only [drvKerbSetEffect]
  rw [if_pos h, chanAt_onChan]

@[simp] theorem ringAt_onRing (g : Nat) (f : RingS → RingS) (s : State) : ringAt (onRing g f s) g = f (ringAt s g) :=
  tget_tmod_same ({} : RingS) _ g f

theorem netRingOwnerEffect_owner : (ringAt (netRingOwnerEffect k p s).1 (fld p 0 1)).owner = some (byteAt p 1 == 1) := by
  dsimp only [netRingOwnerEffect]
  rw [ringAt_onRing]

theorem clkDpllConfigEffect_set (h : byteAt p 0 = 1) : (clkDpllConfigEffect k p s).1 = s.onClk fun c => { c with
    realign := byteAt p 1 == 1
    pull := fld p 2 2
    stepLim := fld p 4 4
    holdAlarm := fld p 8 2 } := if_pos h

theorem pwrVcoreEffect_set (h : byteAt p 0 = 1) : (pwrVcoreEffect k p s).1 = s.onClk fun c => { c with
    floor := fld p 1 1
    ceil := fld p 2 1
    vid := max (fld p 1 1) (min c.vid (fld p 2 1)) } := if_pos h

theorem z640ViewSetEffect_set (h : byteAt p 0 = 1) : (z640ViewSetEffect k p s).1 = s.onHost fun h => { h with
    view := byteAt p 1 == 1
    rowBase := fld p 4 2
    strips := fld p 6 2
    colBase := fld p 8 2
    buses := fld p 10 2 } := if_pos h

/-- Settles O36: each command leaves what its effect sets. -/
theorem kioskSettings : Obligations.KioskSettings := by
  intro k
  refine ⟨leaves_of_effect rfl fun j p s u t hu ht => ?_, leaves_of_effect rfl fun j p s u t hu ht => ?_,
    leaves_of_effect rfl fun j p s u t hu ht => ?_, fun s w i b => bindAct_single,
    leaves_of_effect rfl fun j p s u t hu ht h => ?_, leaves_of_effect rfl fun j p s u t hu ht => ?_,
    leaves_of_effect rfl fun j p s u t hu ht h => ?_, leaves_of_effect rfl fun j p s u t hu ht h => ?_,
    leaves_of_effect rfl fun j p s u t hu ht h => ?_, leaves_of_effect rfl fun j p s u t hu ht => ?_,
    leaves_of_effect rfl fun j p s u t hu ht h => ?_, leaves_of_effect rfl fun j p s u t hu ht h => ?_,
    leaves_of_effect rfl fun j p s u t hu ht => ht.rollback, leaves_of_effect rfl fun j p s u t hu ht h => ?_⟩
  · rw [ht.classes, sysEventConfigEffect_classes, hu.classes]
  · rw [ht.xp, xpStepTimeoutEffect_stTimeout, hu.xp]
  · rw [ht.xp, ← hu.xp]
    exact xpOvlBindEffect_binds j
  · have hw : nextWave u = nextWave s := by simp only [nextWave, nextTick, hu.wave]
    rw [ht.plan, ← hw]
    exact playerStopEffect_playing j (hu.plan ▸ h)
  · rw [ht.plan, playerBindEffect_bound]
  · rw [ht.place, dspThresholdsEffect_set _ h]
    exact ⟨rfl, rfl⟩
  · rw [ht.place, dspAuditConfigEffect_set _ h]
    exact ⟨rfl, rfl, rfl⟩
  · rw [chanAt, ht.drv]
    exact drvKerbSetEffect_set j h
  · rw [ringAt, ht.net]
    exact netRingOwnerEffect_owner j
  · rw [ht.clk, clkDpllConfigEffect_set _ h]
    exact ⟨rfl, rfl, rfl, rfl⟩
  · rw [ht.clk, pwrVcoreEffect_set _ h, ← hu.clk]
    exact ⟨rfl, rfl, rfl⟩
  · have hv := ht.view
    rw [z640ViewSetEffect_set _ h] at hv
    simpa only [Prod.mk.injEq, onHost_host] using hv

end Sys2Proof.Proofs
end

section
/-! The staging window (11 R354; 12 R379, R381): a byte put there stands at its offset, as far as the window reaches. -/

namespace Sys2Proof.Proofs

open Sys2Proof Sys2Proof.Machine Sys2Proof.Laws

variable {s : State}

/-- What a staging write at offset `o` puts at the address `a`: the byte of its data for that address, inside the window. -/
def stagedAt (o : Nat) (d : List (Option Byte)) (a : Nat) : Option Byte :=
  if stagingAt + o ≤ a ∧ a < stagingAt + 2097152 then d.getD (a - (stagingAt + o)) none else none

/-- A byte of the data goes to its own address, when the window reaches that far. -/
theorem memByte_stagingByte (o : Nat) (d : List (Option Byte)) (m : List Host.Cell) (i a : Nat) :
    memByte (stagingByte o d m i) a = if a = stagingAt + o + i then (stagedAt o d a).getD (memByte m a) else memByte m a := by
  by_cases ha : a = stagingAt + o + i
  · subst ha
    have hi : stagingAt + o + i - (stagingAt + o) = i := Nat.add_sub_cancel_left _ _
    have hw : (stagingAt + o ≤ stagingAt + o + i ∧ stagingAt + o + i < stagingAt + 2097152) ↔ o + i < 2097152 := by omega
    simp only [stagingByte, stagedAt, if_true, hi, hw]
    cases d.getD i none with
    | none => simp
    | some b =>
      by_cases h : o + i < 2097152
      · simp [h, memByte_memPut]
      · simp [h]
  · rw [if_neg ha, stagingByte]
    split
    · split
      · rw [memByte_memPut, if_neg ha]
      · rfl
    · rfl

/-- The first `n` bytes of the data stand at their addresses, and every other byte of memory stays. -/
theorem memByte_foldl_stagingByte (o : Nat) (d : List (Option Byte)) (m : List Host.Cell) (a n : Nat) :
    memByte ((List.range n).foldl (stagingByte o d) m) a
      = if a < stagingAt + o + n then (stagedAt o d a).getD (memByte m a) else memByte m a := by
  induction n with
  | zero =>
    split
    · next h => rw [stagedAt, if_neg (by omega)]; rfl
    · rfl
  | succ n ih =>
    rw [List.range_succ, List.foldl_append, List.foldl_cons, List.foldl_nil, memByte_stagingByte, ih]
    rcases Nat.lt_trichotomy a (stagingAt + o + n) with h | h | h
    · rw [if_neg (by omega), if_pos h, if_pos (by omega)]
    · rw [if_pos h, if_neg (by omega), if_pos (by omega)]
    · rw [if_neg (by omega), if_neg (by omega), if_neg (by omega)]

/-- Past its last byte a staging write puts nothing. -/
theorem stagedAt_of_past {o a : Nat} {d : List (Option Byte)} (h : stagingAt + o + d.length ≤ a) : stagedAt o d a = none := by
  rw [stagedAt, List.getD_eq_default _ _ (by omega), ite_self]

/-- Every byte of memory after a staging write. -/
theorem memByte_stagingWrite (o : Nat) (d : List (Option Byte)) (h : s.host.fwState = 1) (a : Nat) :
    memByte (stagingWrite o d s).mat.mem a = (stagedAt o d a).getD (memByte s.mat.mem a) := by
  rw [stagingWrite, if_neg (not_not_intro h), onMat_mat, memByte_foldl_stagingByte]
  split
  · rfl
  · rw [stagedAt_of_past (by omega)]
    rfl

theorem exec_stagingWindowWrite (o : BitVec 26) (d : List (Option Byte)) (h : hostUp s = true) :
    exec (.stagingWindowWrite o d) s = .next (stagingWrite o.toNat d s) := if_pos h

/-- Settles O60: by induction on the number of bytes put. -/
theorem stagingWindowBytes : Obligations.StagingWindowBytes := by
  intro s o d hup hst
  refine ⟨_, exec_stagingWindowWrite o d hup, ?_, fun a => ?_⟩
  · rw [stagingWrite, if_neg (not_not_intro hst)]
    rfl
  · rw [memByte_stagingWrite _ _ hst, ← stagedAt]
    cases stagedAt o.toNat d a <;> rfl

end Sys2Proof.Proofs
end

section
/-! The steps of the boot (11 R353 to R355; 12 R397; 13 R418, R424, R425; 15 R467): what each leaves in the state before it. -/

namespace Sys2Proof.Proofs

open Sys2Proof Sys2Proof.Machine Sys2Proof.Laws

variable {s : State}

/-! ### The supplies, the RC oscillator, BOOTCFG and the crystal (13 R418, R424) -/

/-- The state after the RC oscillator is stable: the fuses are read and UNIT_ID is latched. -/
def rcStabled (unit : Bool) (s : State) : State :=
  (pinsFuse (monGood 0 (s.onClk fun c => { c with
    rcOk := true
    absent := false
    boot := 2 }))).onTwin fun t => { t with unit := unit }

theorem exec_rcStable (unit : Bool) (hp : s.clk.por = false) (hr : s.clk.rcOk = false) :
    exec (.rcStable unit) s = .next (rcStabled unit s) :=
  if_neg (by simp [hp, hr])

theorem exec_bootcfgMeasure {counts : List (BitVec 6)} (hb : s.clk.boot = 2) (hl : counts.length = 8) :
    exec (.bootcfgMeasure counts) s =
      let n := bootMedian (counts.map (·.toNat))
      .next ((s.onClk fun q => { q with
        bootCount := BitVec.ofNat 6 n
        bootCode := BitVec.ofNat 4 (bootCodeOf n)
        boot := 3 }).onHost fun h => { h with bootSrc := bootCodeOf n / 4 }) := if_pos ⟨hb, hl⟩

theorem exec_crystalDelayEnd_good (hb : s.clk.boot = 3) : exec (.crystalDelayEnd true) s =
    .next (monGood 1 (s.onClk fun c => { c with xtal := true, refOk := true, boot := 4 })) := if_pos hb

theorem exec_crystalDelayEnd_bad (hb : s.clk.boot = 3) : exec (.crystalDelayEnd false) s =
    .next (s.onClk fun c => { c with xtal := true, onRc := true, boot := 5 }) := if_pos hb

/-! ### The Security Module's self-test (15 R467) -/

/-- A module that was not asked for approved mode reaches READY, or TAMPERED, and Nolut is released. -/
theorem exec_smSelftestComplete_good (hb : s.clk.boot = 5) (h0 : s.sm.state = 0) (hr : s.sm.request = false) :
    exec (.smSelftestComplete true) s = .next (bootRom (s.onSm fun m => { m with state := if m.tampered then 3 else 1 })) := by
  simp only [exec, execSmSelftestComplete, hb, h0, and_self, if_true, onSm_sm, hr, Bool.false_and, Bool.false_eq_true, if_false]

theorem exec_smSelftestComplete_bad (hb : s.clk.boot = 5) (h0 : s.sm.state = 0) :
    exec (.smSelftestComplete false) s = .next (raise 0x0B03 0 0 s) := if_pos ⟨hb, h0⟩

/-! ### The image (11 R353, R354)

Where the boot ROM leaves the image that it has read is the model's choice (log entry 10). -/

theorem exec_bootImageLoaded (b : List Byte) (hf : s.host.fwState = 2) : exec (.bootImageLoaded (some b)) s =
    .next ((s.onMat fun m => { m with mem := memWrite m.mem stagingAt (b.take 2097152) }).onHost fun h => { h with
      bootErr := 0
      fwState := 3 }) := if_pos hf

theorem exec_bootImageLoaded_none (hf : s.host.fwState = 2) (h0 : s.host.bootSrc = 0) :
    exec (.bootImageLoaded none) s = .next (s.onHost fun h => { h with bootErr := 4, fwState := 6 }) :=
  (if_pos hf).trans (if_pos h0)

theorem exec_networkBootTimeout (hf : s.host.fwState = 2) (h2 : s.host.bootSrc = 2) :
    exec .networkBootTimeout s = .next (s.onHost fun h => { h with bootErr := 5, fwState := 6 }) := if_pos ⟨hf, h2⟩

/-- A good image starts, and LPDDR5 training with it. -/
def imageStarts (build : BitVec 64) (v : BitVec 32) (s : State) : State :=
  let h := memRead s.mat.mem stagingAt 176
  ((s.onHost fun q => { q with
    fwState := 4
    fwVer := BitVec.ofNat 32 (fld h 4 4)
    fwIndex := fld h 8 1
    fwBuild := build }).onSm fun m => { m with version := v }).onMat fun m => { m with
      ddrState := if m.ddrState = 0 then 1 else m.ddrState }

theorem exec_fwVerifyComplete_good (build : BitVec 64) (v : BitVec 32) (hf : s.host.fwState = 3)
    (he : imageErr s stagingAt = 0) : exec (.fwVerifyComplete () build v) s = .next (imageStarts build v s) :=
  (if_pos hf).trans (if_pos he)

theorem exec_fwVerifyComplete_bad (build : BitVec 64) (v : BitVec 32) (hf : s.host.fwState = 3)
    (he : imageErr s stagingAt ≠ 0) : exec (.fwVerifyComplete () build v) s = .next (s.onHost fun q => { q with
      bootErr := imageErr s stagingAt
      fwState := if q.bootSrc = 1 then 1 else 6 }) :=
  (if_pos hf).trans (if_neg he)

/-! ### LPDDR5 (12 R397) -/

/-- The end of a training releases MGT_nPHYRST and keeps what was trained. -/
def ddrTrained (cap rate : Nat) (s : State) : State :=
  drivePin 9 (s.onMat fun m => { m with
    ddrCap := if 1 ≤ cap ∧ cap ≤ 5 then cap else 0
    ddrRate := if 1 ≤ rate ∧ rate ≤ 4 then rate else 0 })

theorem ddrTrained_codes {cap rate : Nat} (hc : 1 ≤ cap ∧ cap ≤ 5) (hr : 1 ≤ rate ∧ rate ≤ 4) (s : State) :
    (ddrTrained cap rate s).mat.ddrCap = cap ∧ (ddrTrained cap rate s).mat.ddrRate = rate := ⟨if_pos hc, if_pos hr⟩

theorem exec_ddrTrainingComplete_good {cap rate : Nat} (hf : s.host.fwState = 4) (hd : s.mat.ddrState ≤ 1)
    (hc : 1 ≤ cap ∧ cap ≤ 5) (hr : 1 ≤ rate ∧ rate ≤ 4) : exec (.ddrTrainingComplete true cap rate) s =
      .next ((ddrTrained cap rate s).onMat fun m => { m with ddrState := 2, retrain := s.clk.now }) :=
  (if_pos ⟨hf, hd⟩).trans (if_pos ⟨rfl, hc.1, hc.2, hr⟩)

theorem exec_ddrTrainingComplete_bad (cap rate : Nat) (hf : s.host.fwState = 4) (hd : s.mat.ddrState ≤ 1) :
    exec (.ddrTrainingComplete false cap rate) s = .next (raise 0x1008 0 0 (ddrFail (ddrTrained cap rate s))) :=
  (if_pos ⟨hf, hd⟩).trans (if_neg (fun h => Bool.false_ne_true h.1))

/-! ### Quarters (13 R425) -/

/-- A tile that fails its power-on self-test starts retired. -/
def tileFails (s : State) (k : Fin 416) : State := onTile k.val (fun q => { q with failed := true, retired := true }) s

theorem tileAt_onTile_other {k j : Nat} (f : TileS → TileS) (s : State) (h : j ≠ k) : tileAt (onTile k f s) j = tileAt s j :=
  tget_tmod_other ({} : TileS) _ k j f h

/-- A tile stays retired while others fail. -/
theorem retired_tileFails {k : Fin 416} (h : (tileAt s k.val).retired = true) (j : Fin 416) :
    (tileAt (tileFails s j) k.val).retired = true := by
  by_cases hj : k.val = j.val
  · rw [tileFails, hj, tileAt_onTile]
  · rw [tileFails, tileAt_onTile_other _ s hj, h]

/-- Every tile of a list of failures is retired. -/
theorem retired_foldl_tileFails {k : Fin 416} {l : List (Fin 416)} (h : k ∈ l ∨ (tileAt s k.val).retired = true) :
    (tileAt (l.foldl tileFails s) k.val).retired = true := by
  induction l generalizing s with
  | nil => exact h.resolve_left List.not_mem_nil
  | cons j l ih =>
    refine ih ?_
    rcases h with h | h
    · rcases List.mem_cons.mp h with rfl | h
      · exact .inr (by rw [tileFails, tileAt_onTile])
      · exact .inl h
    · exact .inr (retired_tileFails h j)

theorem foldl_tileFails_clk (l : List (Fin 416)) (s : State) : (l.foldl tileFails s).clk = s.clk :=
  List.foldlRecOn (motive := fun t : State => t.clk = s.clk) l tileFails rfl fun _ h _ _ => h

/-- The next quarter is released. -/
def quarterReleased (s : State) : State :=
  let u := s.onClk fun c => { c with
    quarters := c.quarters + 1
    boot := if c.quarters = 3 then 8 else c.boot }
  u.onPlace fun p => { p with selfTest := p.selfTest || decide (4 ≤ u.clk.quarters) }

theorem exec_quarterRelease (failed : List (Fin 416)) (hf : s.host.fwState = 4) (hq : s.clk.quarters < 4)
    (hd : 2 ≤ s.mat.ddrState) : exec (.quarterRelease failed) s =
      .next ((failed.filter fun k => quarterOf (k.val / 8) == s.clk.quarters).foldl tileFails (quarterReleased s)) :=
  if_pos ⟨hf, hq, hd⟩

/-- Settles O53: each clause is the rule of its step. -/
theorem bootSteps : Obligations.BootSteps := by
  refine ⟨fun s => ⟨_, rfl, rfl⟩, fun s => rfl, fun s unit hp hr => ⟨_, exec_rcStable unit hp hr, rfl, rfl, rfl⟩,
    fun s counts hb hl => ⟨_, exec_bootcfgMeasure hb hl, rfl, rfl, rfl⟩,
    fun s hb => ⟨⟨_, exec_crystalDelayEnd_good hb, rfl, rfl, rfl⟩, ⟨_, exec_crystalDelayEnd_bad hb, rfl, rfl, rfl⟩⟩,
    fun s hb h0 hr => ⟨exec_smSelftestComplete_good hb h0 hr, exec_smSelftestComplete_bad hb h0⟩,
    fun s v hup => if_pos hup, fun s o d hup => exec_stagingWindowWrite o d hup,
    fun s b hf => ⟨_, exec_bootImageLoaded b hf, rfl, rfl, rfl⟩,
    fun s hf h0 => ⟨_, exec_bootImageLoaded_none hf h0, rfl, rfl, rfl⟩,
    fun s hf h2 => ⟨_, exec_networkBootTimeout hf h2, rfl, rfl, rfl⟩,
    fun s build v hf => ⟨fun he => ⟨_, exec_fwVerifyComplete_good build v hf he, rfl, rfl, rfl⟩,
      fun he => ⟨_, exec_fwVerifyComplete_bad build v hf he, rfl, rfl, rfl⟩⟩,
    fun s cap rate hf hd hc1 hc5 hr1 hr4 => ?_, fun s hd => if_pos hd, fun s failed hf hq hd => ?_,
    fun s d hf hq => if_pos ⟨hf, hq⟩, fun s hf hq hr => if_pos ⟨hf, hq, hr⟩⟩
  · obtain ⟨hcap, hrate⟩ := ddrTrained_codes ⟨hc1, hc5⟩ ⟨hr1, hr4⟩ s
    exact ⟨⟨_, exec_ddrTrainingComplete_good hf hd ⟨hc1, hc5⟩ ⟨hr1, hr4⟩, rfl, hcap, hrate⟩,
      _, exec_ddrTrainingComplete_bad cap rate hf hd, hcap⟩
  · refine ⟨_, exec_quarterRelease failed hf hq hd, ?_, fun k hk hkq => retired_foldl_tileFails (.inl ?_)⟩
    · rw [foldl_tileFails_clk]
      rfl
    · exact List.mem_filter.mpr ⟨hk, beq_iff_eq.mpr hkq⟩

end Sys2Proof.Proofs
end

section
/-! The block as a whole: what a step does, that every command keeps the queue and the canonical form of the byte memory (12 R379,
R381), and that every command but a transaction of the matrix completes. -/

namespace Sys2Proof.Proofs

open Sys2Proof Sys2Proof.Machine Sys2Proof.Laws

/-! ### Queue and byte memory -/

/-- Every command keeps the queue and the canonical form of the byte memory: a lane instruction because its issue does, any other
command by the law of its meaning. -/
theorem exec_keeps (c : Instr) (s : State) : OutKeeps s (exec c s) := by
  cases c with
  | nop | halt | rete | sosrun | soswait | mov | add | adds | sub | subs | neg | negs | abs | and | or | xor | not | ash
    | lsh | min | max | cmp | mulf | muli | addi | addsi | andi | ori | xori | ashi | lshi | cmpi | ldi | ldih | mpy | mac
    | msu | mpyn | pld | firtap | firtapn | ld | st | clra | movah | moval | movag | ldah | ldal | adda | suba | cpya
    | nega | asha | tsta | mvta | mvfa | lda | aadd | amod | mvtc | mvfc | j | call | jr | rep | loop | lpop =>
    exact out_next (issue_keeps keeps_refl)
  | mediaTick => exact execMediaTick_keeps keeps_refl
  | waveLaunch => exact execWaveLaunch_keeps keeps_refl
  | tileComplete => exact execTileComplete_keeps keeps_refl
  | xpEntryTimeout => exact execXpEntryTimeout_keeps keeps_refl
  | xpTimeoutLog => exact execXpTimeoutLog_keeps keeps_refl
  | sceneCommitRun => exact execSceneCommitRun_keeps keeps_refl
  | overlayLevelChange => exact execOverlayLevelChange_keeps keeps_refl
  | overlayTransitionTimeout => exact execOverlayTransitionTimeout_keeps keeps_refl
  | priReadingNoRate => exact execPriReadingNoRate_keeps keeps_refl
  | priBroken => exact execPriBroken_keeps keeps_refl
  | laneWaveComplete => exact execLaneWaveComplete_keeps keeps_refl
  | sosGroupComplete => exact execSosGroupComplete_keeps keeps_refl
  | illegalOp => exact execIllegalOp_keeps keeps_refl
  | laneEventTake => exact execLaneEventTake_keeps keeps_refl
  | budgetOverrun => exact execBudgetOverrun_keeps keeps_refl
  | slackWindowEnd speeds => exact @execSlackWindowEnd_keeps s s keeps_refl speeds
  | vcoreLower => exact execVcoreLower_keeps keeps_refl
  | contextTransferComplete => exact execContextTransferComplete_keeps keeps_refl
  | shadowRunEnd => exact execShadowRunEnd_keeps keeps_refl
  | auditStart => exact execAuditStart_keeps keeps_refl
  | auditWindowEnd => exact execAuditWindowEnd_keeps keeps_refl
  | tieBreakComplete => exact execTieBreakComplete_keeps keeps_refl
  | healthUpdate => exact execHealthUpdate_keeps keeps_refl
  | healthSave => exact execHealthSave_keeps keeps_refl
  | workReplace => exact execWorkReplace_keeps keeps_refl
  | cellRepair => exact execCellRepair_keeps keeps_refl
  | edramRowRepair => exact execEdramRowRepair_keeps keeps_refl
  | edramScrub => exact execEdramScrub_keeps keeps_refl
  | sramScrub => exact execSramScrub_keeps keeps_refl
  | ddrPatrolScrub => exact execDdrPatrolScrub_keeps keeps_refl
  | tjThresholdCross => exact execTjThresholdCross_keeps keeps_refl
  | edramRefreshRelax => exact execEdramRefreshRelax_keeps keeps_refl
  | tjCrit => exact execTjCrit_keeps keeps_refl
  | planStaged => exact execPlanStaged_keeps keeps_refl
  | planTakeEffect => exact execPlanTakeEffect_keeps keeps_refl
  | planUnloadEffect => exact execPlanUnloadEffect_keeps keeps_refl
  | eqPublishH => exact execEqPublishH_keeps keeps_refl
  | eqSettle => exact execEqSettle_keeps keeps_refl
  | blockSwap => exact execBlockSwap_keeps keeps_refl
  | fadeEnd => exact execFadeEnd_keeps keeps_refl
  | playerBegin => exact execPlayerBegin_keeps keeps_refl
  | playerStopEffect => exact execPlayerStopEffect_keeps keeps_refl
  | playerEntryEnd => exact execPlayerEntryEnd_keeps keeps_refl
  | upstreamFrameReceive => exact execUpstreamFrameReceive_keeps keeps_refl
  | linkLoss => exact execLinkLoss_keeps keeps_refl
  | ctlTimeout => exact execCtlTimeout_keeps keeps_refl
  | thermalUpdate => exact execThermalUpdate_keeps keeps_refl
  | pilotWindowEnd c i z p r => exact @execPilotWindowEnd_keeps s s keeps_refl c i z p r
  | shortProbeStart => exact execShortProbeStart_keeps keeps_refl
  | shortProbeEnd channel current impedance => exact @execShortProbeEnd_keeps s s keeps_refl channel current impedance
  | channelResume => exact execChannelResume_keeps keeps_refl
  | stageDownstreamFrame => exact execStageDownstreamFrame_keeps keeps_refl
  | stageFrameMissing => exact execStageFrameMissing_keeps keeps_refl
  | stageMuteNoInput => exact execStageMuteNoInput_keeps keeps_refl
  | stageCurrentLimit => exact execStageCurrentLimit_keeps keeps_refl
  | stageUpstreamSend => exact execStageUpstreamSend_keeps keeps_refl
  | rxFrame port frame protection secs ns => exact @execRxFrame_keeps s s keeps_refl port frame protection secs ns
  | streamLoss => exact execStreamLoss_keeps keeps_refl
  | streamPacketQueue => exact execStreamPacketQueue_keeps keeps_refl
  | streamPacketStale => exact execStreamPacketStale_keeps keeps_refl
  | txFrameStart => exact execTxFrameStart_keeps keeps_refl
  | txFrameComplete => exact execTxFrameComplete_keeps keeps_refl
  | txUnderrun => exact execTxUnderrun_keeps keeps_refl
  | pauseExpire => exact execPauseExpire_keeps keeps_refl
  | pauseWatchdog => exact execPauseWatchdog_keeps keeps_refl
  | pauseHoldoffEnd => exact execPauseHoldoffEnd_keeps keeps_refl
  | linkDown => exact execLinkDown_keeps keeps_refl
  | wakeFrame => exact execWakeFrame_keeps keeps_refl
  | wakeTimer => exact execWakeTimer_keeps keeps_refl
  | ptpTimeAvailable time => exact @execPtpTimeAvailable_keeps s s keeps_refl time
  | ptpTimeLost time => exact @execPtpTimeLost_keeps s s keeps_refl time
  | holdoverLong => exact execHoldoverLong_keeps keeps_refl
  | dpllLock => exact execDpllLock_keeps keeps_refl
  | ptpTimeReturn time phase => exact @execPtpTimeReturn_keeps s s keeps_refl time phase
  | realignStep => exact execRealignStep_keeps keeps_refl
  | censusProbe => exact execCensusProbe_keeps keeps_refl
  | censusReadComplete => exact execCensusReadComplete_keeps keeps_refl
  | censusReadRetry => exact execCensusReadRetry_keeps keeps_refl
  | i2cBusStuck => exact execI2cBusStuck_keeps keeps_refl
  | stageDmirReadComplete => exact execStageDmirReadComplete_keeps keeps_refl
  | stageDmirRetry => exact execStageDmirRetry_keeps keeps_refl
  | octotFrameReceive => exact execOctotFrameReceive_keeps keeps_refl
  | forwardedCommandApply => exact execForwardedCommandApply_keeps keeps_refl
  | octotLane => exact execOctotLane_keeps keeps_refl
  | twinStartWait => exact execTwinStartWait_keeps keeps_refl
  | twinRunInEnd => exact execTwinRunInEnd_keeps keeps_refl
  | seedItemTimeout => exact execSeedItemTimeout_keeps keeps_refl
  | twinReady => exact execTwinReady_keeps keeps_refl
  | joinFailed => exact execJoinFailed_keeps keeps_refl
  | twinAutoRejoin => exact execTwinAutoRejoin_keeps keeps_refl
  | twinDecision => exact execTwinDecision_keeps keeps_refl
  | twinPromotion => exact execTwinPromotion_keeps keeps_refl
  | twinClaimDrop => exact execTwinClaimDrop_keeps keeps_refl
  | kioskDoorbell kiosk plain => exact @execKioskDoorbell_keeps s s keeps_refl kiosk plain
  | kiosk0Ack => exact execKiosk0Ack_keeps keeps_refl
  | kiosk0EventPost => exact execKiosk0EventPost_keeps keeps_refl
  | sysVersion => exact execSysVersion_keeps keeps_refl
  | sysEcho => exact execSysEcho_keeps keeps_refl
  | sysEventConfig => exact execSysEventConfig_keeps keeps_refl
  | sysLogStatus => exact execSysLogStatus_keeps keeps_refl
  | sysTime => exact execSysTime_keeps keeps_refl
  | sysKioskStatus => exact execSysKioskStatus_keeps keeps_refl
  | planLoad => exact execPlanLoad_keeps keeps_refl
  | planVerify => exact execPlanVerify_keeps keeps_refl
  | planStatus => exact execPlanStatus_keeps keeps_refl
  | planLatencyRead => exact execPlanLatencyRead_keeps keeps_refl
  | planBlockInsert => exact execPlanBlockInsert_keeps keeps_refl
  | planBlockRemove => exact execPlanBlockRemove_keeps keeps_refl
  | planEqBypass => exact execPlanEqBypass_keeps keeps_refl
  | planUnload => exact execPlanUnload_keeps keeps_refl
  | xpNodeWrite => exact execXpNodeWrite_keeps keeps_refl
  | xpNodeRead => exact execXpNodeRead_keeps keeps_refl
  | xpStepTimeout => exact execXpStepTimeout_keeps keeps_refl
  | xpQueueStatus => exact execXpQueueStatus_keeps keeps_refl
  | xpSceneCommit => exact execXpSceneCommit_keeps keeps_refl
  | xpSceneDiscard => exact execXpSceneDiscard_keeps keeps_refl
  | xpSatRead => exact execXpSatRead_keeps keeps_refl
  | xpOvlDefine => exact execXpOvlDefine_keeps keeps_refl
  | xpOvlClear => exact execXpOvlClear_keeps keeps_refl
  | xpOvlSet => exact execXpOvlSet_keeps keeps_refl
  | xpOvlBind => exact execXpOvlBind_keeps keeps_refl
  | xpOvlStatus => exact execXpOvlStatus_keeps keeps_refl
  | xpAlleyStatus => exact execXpAlleyStatus_keeps keeps_refl
  | blkParamWrite => exact execBlkParamWrite_keeps keeps_refl
  | blkParamRead => exact execBlkParamRead_keeps keeps_refl
  | blkCoefWrite => exact execBlkCoefWrite_keeps keeps_refl
  | blkSosWrite => exact execBlkSosWrite_keeps keeps_refl
  | blkStatus => exact execBlkStatus_keeps keeps_refl
  | playerStart => exact execPlayerStart_keeps keeps_refl
  | playerStop => exact execPlayerStop_keeps keeps_refl
  | playerStatus => exact execPlayerStatus_keeps keeps_refl
  | playerBind => exact execPlayerBind_keeps keeps_refl
  | dspStatus => exact execDspStatus_keeps keeps_refl
  | dspPlacementRead => exact execDspPlacementRead_keeps keeps_refl
  | dspDistrictRead => exact execDspDistrictRead_keeps keeps_refl
  | dspThresholds => exact execDspThresholds_keeps keeps_refl
  | dspAuditConfig => exact execDspAuditConfig_keeps keeps_refl
  | dspHealthExport => exact execDspHealthExport_keeps keeps_refl
  | dspHealthImport => exact execDspHealthImport_keeps keeps_refl
  | drvLinkConfig => exact execDrvLinkConfig_keeps keeps_refl
  | drvLinkStatus => exact execDrvLinkStatus_keeps keeps_refl
  | drvStageSet => exact execDrvStageSet_keeps keeps_refl
  | drvCtlRaw => exact execDrvCtlRaw_keeps keeps_refl
  | drvThermalSet => exact execDrvThermalSet_keeps keeps_refl
  | drvPilotSet => exact execDrvPilotSet_keeps keeps_refl
  | drvKerbSet => exact execDrvKerbSet_keeps keeps_refl
  | drvZLimits => exact execDrvZLimits_keeps keeps_refl
  | drvMonitorRead => exact execDrvMonitorRead_keeps keeps_refl
  | drvChannelCtl => exact execDrvChannelCtl_keeps keeps_refl
  | drvCalWrite => exact execDrvCalWrite_keeps keeps_refl
  | netPortConfig => exact execNetPortConfig_keeps keeps_refl
  | netPortStatus => exact execNetPortStatus_keeps keeps_refl
  | netRingOwner => exact execNetRingOwner_keeps keeps_refl
  | netFilterSet => exact execNetFilterSet_keeps keeps_refl
  | netRxOpen => exact execNetRxOpen_keeps keeps_refl
  | netTxOpen => exact execNetTxOpen_keeps keeps_refl
  | netStreamClose => exact execNetStreamClose_keeps keeps_refl
  | netStreamStatus => exact execNetStreamStatus_keeps keeps_refl
  | netStatsRead => exact execNetStatsRead_keeps keeps_refl
  | netPtpConfig => exact execNetPtpConfig_keeps keeps_refl
  | netPtpStatus kiosk offset delay => exact @execNetPtpStatus_keeps s s keeps_refl kiosk offset delay
  | netWakeSet => exact execNetWakeSet_keeps keeps_refl
  | netMacsecSet => exact execNetMacsecSet_keeps keeps_refl
  | lioPortConfig => exact execLioPortConfig_keeps keeps_refl
  | lioMclkSet => exact execLioMclkSet_keeps keeps_refl
  | censusRun => exact execCensusRun_keeps keeps_refl
  | censusSummary => exact execCensusSummary_keeps keeps_refl
  | censusRead => exact execCensusRead_keeps keeps_refl
  | censusPlanCheck => exact execCensusPlanCheck_keeps keeps_refl
  | twinStatusRead => exact execTwinStatusRead_keeps keeps_refl
  | twinPolicy => exact execTwinPolicy_keeps keeps_refl
  | twinJoin => exact execTwinJoin_keeps keeps_refl
  | twinPromote => exact execTwinPromote_keeps keeps_refl
  | twinYield => exact execTwinYield_keeps keeps_refl
  | twinResolve => exact execTwinResolve_keeps keeps_refl
  | twinMismatchRead => exact execTwinMismatchRead_keeps keeps_refl
  | twinAddress => exact execTwinAddress_keeps keeps_refl
  | clkStatusRead => exact execClkStatusRead_keeps keeps_refl
  | clkRateSet => exact execClkRateSet_keeps keeps_refl
  | rateChangeFirstTick => exact execRateChangeFirstTick_keeps keeps_refl
  | clkDpllConfig => exact execClkDpllConfig_keeps keeps_refl
  | clkRealign => exact execClkRealign_keeps keeps_refl
  | clkMeasure => exact execClkMeasure_keeps keeps_refl
  | clkMeasureComplete => exact execClkMeasureComplete_keeps keeps_refl
  | clkGateSet => exact execClkGateSet_keeps keeps_refl
  | gateCloseTimeout => exact execGateCloseTimeout_keeps keeps_refl
  | gateCloseAck => exact execGateCloseAck_keeps keeps_refl
  | pwrStateSet => exact execPwrStateSet_keeps keeps_refl
  | powerStateEffect => exact execPowerStateEffect_keeps keeps_refl
  | retainEnter => exact execRetainEnter_keeps keeps_refl
  | wakeComplete => exact execWakeComplete_keeps keeps_refl
  | pwrVcore => exact execPwrVcore_keeps keeps_refl
  | pwrReset => exact execPwrReset_keeps keeps_refl
  | pwrPinmapRead => exact execPwrPinmapRead_keeps keeps_refl
  | pwrPinmapProgram => exact execPwrPinmapProgram_keeps keeps_refl
  | fltStatusRead => exact execFltStatusRead_keeps keeps_refl
  | fltSourceRead => exact execFltSourceRead_keeps keeps_refl
  | fltInject => exact execFltInject_keeps keeps_refl
  | fltInjectCancel => exact execFltInjectCancel_keeps keeps_refl
  | fltInjectStatus => exact execFltInjectStatus_keeps keeps_refl
  | injectionWindowEnd => exact execInjectionWindowEnd_keeps keeps_refl
  | secStatus => exact execSecStatus_keeps keeps_refl
  | secIdentity => exact execSecIdentity_keeps keeps_refl
  | secSessionOpen kiosk entropy keys => exact @execSecSessionOpen_keeps s s keeps_refl kiosk entropy keys
  | secSessionAuth kiosk entropy signature keys =>
    exact @execSecSessionAuth_keeps s s keeps_refl kiosk entropy signature keys
  | secSessionClose => exact execSecSessionClose_keeps keeps_refl
  | secEnrol => exact execSecEnrol_keeps keeps_refl
  | secLibKeySet => exact execSecLibKeySet_keeps keeps_refl
  | secLibConfig => exact execSecLibConfig_keeps keeps_refl
  | secLibVerify => exact execSecLibVerify_keeps keeps_refl
  | secKeyLoad kiosk check => exact @execSecKeyLoad_keeps s s keeps_refl kiosk check
  | secKeyErase => exact execSecKeyErase_keeps keeps_refl
  | secRollbackCommit => exact execSecRollbackCommit_keeps keeps_refl
  | secApproved => exact execSecApproved_keeps keeps_refl
  | secZeroise => exact execSecZeroise_keeps keeps_refl
  | secDebugUnlock => exact execSecDebugUnlock_keeps keeps_refl
  | sessionIdleTimeout => exact execSessionIdleTimeout_keeps keeps_refl
  | sessionAuthTimeout => exact execSessionAuthTimeout_keeps keeps_refl
  | sessionLockoutEnd => exact execSessionLockoutEnd_keeps keeps_refl
  | smSelftestComplete => exact execSmSelftestComplete_keeps keeps_refl
  | smConditionalTestFail => exact execSmConditionalTestFail_keeps keeps_refl
  | smGlitch clock => exact @execSmGlitch_keeps s s keeps_refl clock
  | smTamper detector => exact @execSmTamper_keeps s s keeps_refl detector
  | bulkOpen => exact execBulkOpen_keeps keeps_refl
  | bulkClose => exact execBulkClose_keeps keeps_refl
  | bulkStatus => exact execBulkStatus_keeps keeps_refl
  | bulkCrc => exact execBulkCrc_keeps keeps_refl
  | bulkSpaceInfo => exact execBulkSpaceInfo_keeps keeps_refl
  | z640Info => exact execZ640Info_keeps keeps_refl
  | z640ViewSet => exact execZ640ViewSet_keeps keeps_refl
  | z640XpWrite => exact execZ640XpWrite_keeps keeps_refl
  | z640XpRead => exact execZ640XpRead_keeps keeps_refl
  | z640StripMute => exact execZ640StripMute_keeps keeps_refl
  | z640Recall => exact execZ640Recall_keeps keeps_refl
  | z640Status => exact execZ640Status_keeps keeps_refl
  | dataPortWrite => exact execDataPortWrite_keeps keeps_refl
  | dataPortRead => exact execDataPortRead_keeps keeps_refl
  | dpBurstIdleEnd => exact execDpBurstIdleEnd_keeps keeps_refl
  | dpCommit => exact execDpCommit_keeps keeps_refl
  | dpAddrWrite => exact execDpAddrWrite_keeps keeps_refl
  | dpErrorClear => exact execDpErrorClear_keeps keeps_refl
  | sampleCountRead => exact execSampleCountRead_keeps keeps_refl
  | readClearRegister => exact execReadClearRegister_keeps keeps_refl
  | fwLoadWrite => exact execFwLoadWrite_keeps keeps_refl
  | stagingWindowWrite => exact execStagingWindowWrite_keeps keeps_refl
  | fwVerifyComplete verdict build smVersion => exact @execFwVerifyComplete_keeps s s keeps_refl verdict build smVersion
  | fwReady => exact execFwReady_keeps keeps_refl
  | logMarkWrite => exact execLogMarkWrite_keeps keeps_refl
  | ringProdWrite => exact execRingProdWrite_keeps keeps_refl
  | ringEnable => exact execRingEnable_keeps keeps_refl
  | fltNfaultWrite => exact execFltNfaultWrite_keeps keeps_refl
  | sysRemapWrite => exact execSysRemapWrite_keeps keeps_refl
  | registerWrite => exact execRegisterWrite_keeps keeps_refl
  | spiWrite addr data plain => exact @execSpiWrite_keeps s s keeps_refl addr data plain
  | spiRead => exact execSpiRead_keeps keeps_refl
  | spiStatus => exact execSpiStatus_keeps keeps_refl
  | matrixTransaction => exact execMatrixTransaction_keeps keeps_refl
  | masterReset => exact execMasterReset_keeps keeps_refl
  | pcieFlr => exact execPcieFlr_keeps keeps_refl
  | faultLineScan => exact execFaultLineScan_keeps keeps_refl
  | firmwareFaultReport => exact execFirmwareFaultReport_keeps keeps_refl
  | nfaultPulseEnd => exact execNfaultPulseEnd_keeps keeps_refl
  | faultMergeFlush => exact execFaultMergeFlush_keeps keeps_refl
  | powerOnReset => exact execPowerOnReset_keeps keeps_refl
  | powerOnResetRelease => exact execPowerOnResetRelease_keeps keeps_refl
  | rcStable => exact execRcStable_keeps keeps_refl
  | bootcfgMeasure => exact execBootcfgMeasure_keeps keeps_refl
  | crystalDelayEnd => exact execCrystalDelayEnd_keeps keeps_refl
  | pllLock => exact execPllLock_keeps keeps_refl
  | ddrTrainingComplete => exact execDdrTrainingComplete_keeps keeps_refl
  | ddrRetrain => exact execDdrRetrain_keeps keeps_refl
  | quarterRelease => exact execQuarterRelease_keeps keeps_refl
  | districtFail => exact execDistrictFail_keeps keeps_refl
  | nresetLow => exact execNresetLow_keeps keeps_refl
  | pciePerst => exact execPciePerst_keeps keeps_refl
  | fwWatchdog => exact execFwWatchdog_keeps keeps_refl
  | nolutRestartComplete verdict => exact @execNolutRestartComplete_keeps s s keeps_refl verdict
  | clockMonitorTrip => exact execClockMonitorTrip_keeps keeps_refl
  | clockMonitorRecover => exact execClockMonitorRecover_keeps keeps_refl
  | secLibVerifyComplete verdict => exact @execSecLibVerifyComplete_keeps s s keeps_refl verdict
  | bootImageLoaded => exact execBootImageLoaded_keeps keeps_refl
  | networkBootTimeout => exact execNetworkBootTimeout_keeps keeps_refl
  | commandedReset => exact execCommandedReset_keeps keeps_refl
  | fwHeartbeatIncrement => exact execFwHeartbeatIncrement_keeps keeps_refl

/-! ### Completion -/

/-- The outcome is a next state. -/
def Nexts (o : Host.Outcome State Fault Refusal) : Prop := ∃ t, o = .next t

/-! Below, `exec<Command>_nexts` says that the command answers a next state in each of its cases. -/

variable {s t : State} {a b : Host.Outcome State Fault Refusal}

theorem nexts_next : Nexts (.next s) := ⟨s, rfl⟩

theorem nexts_ite {c : Prop} [Decidable c] (ha : Nexts a) (hb : Nexts b) : Nexts (if c then a else b) := by
  split
  · exact ha
  · exact hb

/-- A command that acts where its condition holds and does nothing elsewhere. -/
theorem nexts_if {c : Prop} [Decidable c] : Nexts (if c then .next s else .next t) := nexts_ite nexts_next nexts_next

theorem execAuditWindowEnd_nexts (w b) : Nexts (execAuditWindowEnd w b s) := by
  unfold execAuditWindowEnd
  split
  exacts [nexts_next, nexts_next]

theorem execBlockSwap_nexts : Nexts (execBlockSwap s) := by
  unfold execBlockSwap
  split
  exacts [nexts_ite nexts_if nexts_next, nexts_next]

theorem execChannelResume_nexts (c) : Nexts (execChannelResume c s) := by
  unfold execChannelResume
  dsimp only
  split
  exacts [nexts_if, nexts_next]

theorem execClkMeasureComplete_nexts (n) : Nexts (execClkMeasureComplete n s) := by
  unfold execClkMeasureComplete
  split
  exacts [nexts_next, nexts_next]

theorem execCommandedReset_nexts : Nexts (execCommandedReset s) := by
  unfold execCommandedReset
  split
  exacts [nexts_if, nexts_next]

theorem execCtlTimeout_nexts (l) : Nexts (execCtlTimeout l s) := by
  unfold execCtlTimeout
  dsimp only
  split
  exacts [nexts_next, nexts_if]

theorem execEqPublishH_nexts : Nexts (execEqPublishH s) := by
  unfold execEqPublishH
  split
  exacts [nexts_if, nexts_next]

theorem execEqSettle_nexts : Nexts (execEqSettle s) := by
  unfold execEqSettle
  split
  exacts [nexts_if, nexts_next]

theorem execFirmwareFaultReport_nexts : Nexts (execFirmwareFaultReport s) := by
  unfold execFirmwareFaultReport
  split
  exacts [nexts_next, nexts_next]

theorem execNfaultPulseEnd_nexts : Nexts (execNfaultPulseEnd s) := by
  unfold execNfaultPulseEnd
  split
  exacts [nexts_if, nexts_next]

theorem execOverlayTransitionTimeout_nexts (i) : Nexts (execOverlayTransitionTimeout i s) := by
  unfold execOverlayTransitionTimeout
  split
  exacts [nexts_if, nexts_next]

theorem execPauseExpire_nexts (p) : Nexts (execPauseExpire p s) := by
  unfold execPauseExpire
  dsimp only
  split
  exacts [nexts_next, nexts_next]

theorem execPauseHoldoffEnd_nexts (p) : Nexts (execPauseHoldoffEnd p s) := by
  unfold execPauseHoldoffEnd
  dsimp only
  split
  exacts [nexts_next, nexts_next]

theorem execPauseWatchdog_nexts (p) : Nexts (execPauseWatchdog p s) := by
  unfold execPauseWatchdog
  dsimp only
  split
  exacts [nexts_if, nexts_next]

theorem execPlanUnloadEffect_nexts : Nexts (execPlanUnloadEffect s) := by
  unfold execPlanUnloadEffect
  split
  exacts [nexts_if, nexts_next]

theorem execPowerStateEffect_nexts : Nexts (execPowerStateEffect s) := by
  unfold execPowerStateEffect
  split
  exacts [nexts_if, nexts_if, nexts_next]

theorem execPriReadingNoRate_nexts (pins) : Nexts (execPriReadingNoRate pins s) := by
  unfold execPriReadingNoRate
  split
  exacts [nexts_next, nexts_next]

theorem execPtpTimeLost_nexts (u) : Nexts (execPtpTimeLost u s) := by
  unfold execPtpTimeLost
  dsimp only
  split
  exacts [nexts_next, nexts_next, nexts_next]

theorem execRateChangeFirstTick_nexts : Nexts (execRateChangeFirstTick s) := by
  unfold execRateChangeFirstTick
  split
  exacts [nexts_if, nexts_next]

theorem execSceneCommitRun_nexts : Nexts (execSceneCommitRun s) := by
  unfold execSceneCommitRun
  split
  exacts [nexts_if, nexts_next]

theorem execSecLibVerifyComplete_nexts (u) : Nexts (execSecLibVerifyComplete u s) := by
  unfold execSecLibVerifyComplete
  split
  exacts [nexts_if, nexts_next]

theorem execSessionAuthTimeout_nexts : Nexts (execSessionAuthTimeout s) := by
  unfold execSessionAuthTimeout
  split
  exacts [nexts_if, nexts_next]

theorem execSessionIdleTimeout_nexts : Nexts (execSessionIdleTimeout s) := by
  unfold execSessionIdleTimeout
  split
  exacts [nexts_if, nexts_next]

theorem execSessionLockoutEnd_nexts : Nexts (execSessionLockoutEnd s) := by
  unfold execSessionLockoutEnd
  split
  exacts [nexts_if, nexts_next]

theorem execShadowRunEnd_nexts (w b) : Nexts (execShadowRunEnd w b s) := by
  unfold execShadowRunEnd
  split
  exacts [nexts_next, nexts_next]

theorem execSosGroupComplete_nexts (k n b) : Nexts (execSosGroupComplete k n b s) := by
  unfold execSosGroupComplete
  dsimp only
  split
  exacts [nexts_next, nexts_ite nexts_if nexts_next]

theorem execStageDmirRetry_nexts (l) : Nexts (execStageDmirRetry l s) := by
  unfold execStageDmirRetry
  dsimp only
  split
  exacts [nexts_next, nexts_next]

theorem execStreamPacketQueue_nexts (k) : Nexts (execStreamPacketQueue k s) := by
  unfold execStreamPacketQueue
  dsimp only
  split
  exacts [nexts_next, nexts_if]

theorem execTieBreakComplete_nexts (w o) : Nexts (execTieBreakComplete w o s) := by
  unfold execTieBreakComplete
  split
  exacts [nexts_next, nexts_next]

theorem execTwinClaimDrop_nexts : Nexts (execTwinClaimDrop s) := by
  unfold execTwinClaimDrop
  split
  exacts [nexts_if, nexts_next]

theorem execTwinPromotion_nexts : Nexts (execTwinPromotion s) := by
  unfold execTwinPromotion
  split
  exacts [nexts_ite nexts_if nexts_next, nexts_next]

theorem execTwinStartWait_nexts : Nexts (execTwinStartWait s) := by
  unfold execTwinStartWait
  split
  exacts [nexts_if, nexts_next]

theorem execTxUnderrun_nexts (cut) : Nexts (execTxUnderrun cut s) := by
  unfold execTxUnderrun
  dsimp only
  split
  exacts [nexts_next, nexts_if]

theorem execXpEntryTimeout_nexts (i) : Nexts (execXpEntryTimeout i s) := by
  unfold execXpEntryTimeout
  split
  exacts [nexts_if, nexts_next]

theorem execXpTimeoutLog_nexts (q) : Nexts (execXpTimeoutLog q s) := by
  unfold execXpTimeoutLog
  dsimp only
  split
  exacts [nexts_if, nexts_next]

theorem execAuditStart_nexts (d) : Nexts (execAuditStart d s) := by
  refine nexts_ite ?_ nexts_next
  split
  exacts [nexts_next, nexts_next]

theorem execBootImageLoaded_nexts (b) : Nexts (execBootImageLoaded b s) := by
  refine nexts_ite ?_ nexts_next
  split
  exacts [nexts_next, nexts_if]

theorem execClockMonitorRecover_nexts (k) : Nexts (execClockMonitorRecover k s) := by
  refine nexts_ite nexts_next ?_
  dsimp only
  split <;> exact nexts_next

theorem execClockMonitorTrip_nexts (k) : Nexts (execClockMonitorTrip k s) := by
  refine nexts_ite nexts_next ?_
  split <;> exact nexts_next

theorem execPllLock_nexts (k) : Nexts (execPllLock k s) := by
  refine nexts_ite nexts_next ?_
  split <;> exact nexts_next

theorem execKiosk0EventPost_nexts : Nexts (execKiosk0EventPost s) := by
  refine nexts_ite ?_ nexts_next
  split
  exacts [nexts_next, nexts_next]

theorem execLaneEventTake_nexts (k) : Nexts (execLaneEventTake k s) := by
  refine nexts_ite ?_ nexts_next
  dsimp only
  split
  exacts [nexts_next, nexts_next]

theorem execWorkReplace_nexts (w) : Nexts (execWorkReplace w s) := by
  refine nexts_ite ?_ nexts_next
  extract_lets k x
  clear_value x
  split
  exacts [nexts_next, nexts_next]

theorem execWakeFrame_nexts (f) : Nexts (execWakeFrame f s) := by
  refine nexts_ite ?_ nexts_next
  split
  · exact nexts_next
  · dsimp only
    split <;> exact nexts_next

theorem execPlanStaged_nexts (n) : Nexts (execPlanStaged n s) := by
  unfold execPlanStaged
  split
  · exact nexts_next
  · refine nexts_ite nexts_next ?_
    split
    · exact nexts_next
    · exact nexts_next

theorem execPlanTakeEffect_nexts : Nexts (execPlanTakeEffect s) := by
  unfold execPlanTakeEffect
  split
  · split
    · exact nexts_if
    · exact nexts_next
  · exact nexts_next

theorem execTxFrameStart_nexts (p l) : Nexts (execTxFrameStart p l s) := by
  refine nexts_ite ?_ nexts_next
  split
  · exact nexts_next
  · split
    · exact nexts_next
    · split
      · exact nexts_next
      · exact nexts_next

theorem execTxFrameComplete_nexts (p secs ns) : Nexts (execTxFrameComplete p secs ns s) := by
  unfold execTxFrameComplete
  dsimp only
  split
  · exact nexts_next
  · split <;> exact nexts_next

theorem execTwinDecision_nexts : Nexts (execTwinDecision s) := by
  unfold execTwinDecision
  split
  · exact nexts_next
  · refine nexts_ite (nexts_ite nexts_next ?_) nexts_next
    split
    · exact nexts_next
    · exact nexts_ite nexts_next nexts_if

theorem execTileComplete_nexts (k sl e d b) : Nexts (execTileComplete k sl e d b s) := by
  refine nexts_ite nexts_next (nexts_ite nexts_next ?_)
  refine nexts_ite nexts_if (nexts_ite (nexts_ite ?_ nexts_next) ?_)
  · exact nexts_ite nexts_next nexts_if
  · exact nexts_ite nexts_next (nexts_ite nexts_next nexts_if)

/-- Every command but a transaction of the matrix answers a next state: one without a condition directly, one with conditions in
each of its cases. -/
theorem completes_of_ne_matrixTransaction (c : Instr) (hc : ∀ tx, c ≠ .matrixTransaction tx) : Completes c s := by
  cases c with
  | matrixTransaction tx => exact absurd rfl (hc tx)
  | bootcfgMeasure | budgetOverrun | censusReadComplete | ddrPatrolScrub | ddrRetrain | districtFail | dpBurstIdleEnd
    | edramRefreshRelax | faultLineScan | fwHeartbeatIncrement | fwLoadWrite | fwReady | fwWatchdog | gateCloseAck
    | gateCloseTimeout | healthSave | healthUpdate | holdoverLong | i2cBusStuck | joinFailed | kioskDoorbell
    | laneWaveComplete | linkLoss | logMarkWrite | masterReset | mediaTick | networkBootTimeout | nolutRestartComplete
    | octotLane | overlayLevelChange | pcieFlr | pciePerst | playerBegin | playerStopEffect | priBroken
    | ptpTimeAvailable | quarterRelease | rcStable | readClearRegister | realignStep | registerWrite | retainEnter
    | sampleCountRead | seedItemTimeout | shortProbeEnd | smConditionalTestFail | smGlitch | smTamper | spiRead
    | spiStatus | sramScrub | stageDmirReadComplete | stageDownstreamFrame | stagingWindowWrite | streamLoss
    | sysRemapWrite | thermalUpdate | tjCrit | tjThresholdCross | twinAutoRejoin | twinReady | twinRunInEnd
    | wakeComplete | wakeTimer | waveLaunch =>
    exact nexts_if
  | cellRepair | censusProbe | edramScrub | nresetLow | slackWindowEnd =>
    exact nexts_ite nexts_next nexts_if
  | crystalDelayEnd | ddrTrainingComplete | dpllLock | fwVerifyComplete | kiosk0Ack | linkDown | octotFrameReceive
    | pilotWindowEnd | ptpTimeReturn | smSelftestComplete | spiWrite =>
    exact nexts_ite nexts_if nexts_next
  | edramRowRepair =>
    exact nexts_ite nexts_next (nexts_ite (nexts_ite nexts_next nexts_if) nexts_next)
  | playerEntryEnd =>
    exact nexts_ite (nexts_ite nexts_next nexts_if) nexts_next
  | rxFrame =>
    exact nexts_ite nexts_next (nexts_ite nexts_next nexts_if)
  | auditStart => exact execAuditStart_nexts _
  | auditWindowEnd => exact execAuditWindowEnd_nexts _ _
  | blockSwap => exact execBlockSwap_nexts
  | bootImageLoaded => exact execBootImageLoaded_nexts _
  | channelResume => exact execChannelResume_nexts _
  | clkMeasureComplete => exact execClkMeasureComplete_nexts _
  | clockMonitorRecover => exact execClockMonitorRecover_nexts _
  | clockMonitorTrip => exact execClockMonitorTrip_nexts _
  | commandedReset => exact execCommandedReset_nexts
  | ctlTimeout => exact execCtlTimeout_nexts _
  | eqPublishH => exact execEqPublishH_nexts
  | eqSettle => exact execEqSettle_nexts
  | firmwareFaultReport => exact execFirmwareFaultReport_nexts
  | kiosk0EventPost => exact execKiosk0EventPost_nexts
  | laneEventTake => exact execLaneEventTake_nexts _
  | nfaultPulseEnd => exact execNfaultPulseEnd_nexts
  | overlayTransitionTimeout => exact execOverlayTransitionTimeout_nexts _
  | pauseExpire => exact execPauseExpire_nexts _
  | pauseHoldoffEnd => exact execPauseHoldoffEnd_nexts _
  | pauseWatchdog => exact execPauseWatchdog_nexts _
  | planStaged => exact execPlanStaged_nexts _
  | planTakeEffect => exact execPlanTakeEffect_nexts
  | planUnloadEffect => exact execPlanUnloadEffect_nexts
  | pllLock => exact execPllLock_nexts _
  | powerStateEffect => exact execPowerStateEffect_nexts
  | priReadingNoRate => exact execPriReadingNoRate_nexts _
  | ptpTimeLost u => exact execPtpTimeLost_nexts u
  | rateChangeFirstTick => exact execRateChangeFirstTick_nexts
  | sceneCommitRun => exact execSceneCommitRun_nexts
  | secLibVerifyComplete u => exact execSecLibVerifyComplete_nexts u
  | sessionAuthTimeout => exact execSessionAuthTimeout_nexts
  | sessionIdleTimeout => exact execSessionIdleTimeout_nexts
  | sessionLockoutEnd => exact execSessionLockoutEnd_nexts
  | shadowRunEnd => exact execShadowRunEnd_nexts _ _
  | sosGroupComplete => exact execSosGroupComplete_nexts _ _ _
  | stageDmirRetry => exact execStageDmirRetry_nexts _
  | streamPacketQueue => exact execStreamPacketQueue_nexts _
  | tieBreakComplete => exact execTieBreakComplete_nexts _ _
  | twinClaimDrop => exact execTwinClaimDrop_nexts
  | twinDecision => exact execTwinDecision_nexts
  | twinPromotion => exact execTwinPromotion_nexts
  | twinStartWait => exact execTwinStartWait_nexts
  | txFrameComplete => exact execTxFrameComplete_nexts _ _ _
  | txFrameStart => exact execTxFrameStart_nexts _ _
  | txUnderrun => exact execTxUnderrun_nexts _
  | wakeFrame => exact execWakeFrame_nexts _
  | workReplace => exact execWorkReplace_nexts _
  | xpEntryTimeout => exact execXpEntryTimeout_nexts _
  | xpTimeoutLog => exact execXpTimeoutLog_nexts _
  | tileComplete => exact execTileComplete_nexts _ _ _ _ _
  | _ => exact nexts_next

end Sys2Proof.Proofs
end

section
/-! O5, O6, O7, O1, O2 and O4, from the laws above. -/

namespace Sys2Proof.Proofs

open Sys2Proof Sys2Proof.Machine Sys2Proof.Laws

theorem step_nil {s : State} (h : s.pending = []) : step s = .next s := by
  simp only [step, h]

theorem step_cons {c : Instr} {l : List Instr} {s : State} (h : s.pending = c :: l) :
    step s = exec c { s with pending := l } := by
  simp only [step, h]

/-- Settles O1: `step` reads the queue and hands the rest of it to `exec`. -/
theorem stepRunsFrontCommand : Obligations.StepRunsFrontCommand := fun _ _ _ => rfl

/-- Settles O2: `step` on an empty queue. -/
theorem stepIdlesOnEmptyQueue : Obligations.StepIdlesOnEmptyQueue := fun _ h => step_nil h

/-- Settles O4: the memory of the reset state is empty, and so is its queue. -/
theorem resetInv : Obligations.ResetInv := ⟨rfl, rfl⟩

/-- Settles O5: an idle step leaves the state, and every command keeps the canonical form of the byte memory. -/
theorem stepKeepsMemoryForm : Obligations.StepKeepsMemoryForm := by
  intro s t hs ht
  cases hq : s.pending with
  | nil =>
    rw [step_nil hq] at ht
    exact Host.Outcome.next.inj ht ▸ hs
  | cons c l =>
    rw [step_cons hq] at ht
    exact (exec_keeps c _ t ht).2 hs

/-- Settles O6: every command keeps the queue. -/
theorem commandsKeepQueue : Obligations.CommandsKeepQueue := fun c s t h => (exec_keeps c s t h).1

/-- Settles O7: by the command. -/
theorem onlyMatrixTransactionsStop : Obligations.OnlyMatrixTransactionsStop :=
  fun c _ h => completes_of_ne_matrixTransaction c h

end Sys2Proof.Proofs
end

section
/-! Scrubbing, row repair and the junction sensors (12 R387, R392 to R395, R398; 13 R437; 14 R447): what each event leaves in the
state before it. -/

namespace Sys2Proof.Proofs

open Sys2Proof Sys2Proof.Machine Sys2Proof.Laws

variable {s : State} {m : MemAt}

@[simp] theorem raise_mat (c o : Nat) (d : BitVec 64) (s : State) : (raise c o d s).mat = s.mat := by
  rw [raise_flt]

/-! ### Scrubbing (12 R392, R395, R398)

A patrol counts what it finds and raises no fault (log entry 67). -/

theorem exec_edramScrub (double : Bool) (hp : s.clk.por = false) (hr : s.clk.power ≠ .retain) :
    exec (.edramScrub m double) s = if double then .next (doubleBit m s) else .next (corrected m s) :=
  if_neg (by simp [hp, hr])

/-- What a pass over the working SRAM leaves in the memories (12 R395). -/
def sramScrubbed (n : Nat) (double : Bool) (s : State) : State := s.onMat fun x => { x with
  ce := satAdd x.ce n
  ue := if double then satAdd x.ue 1 else x.ue
  scrubbed := s.clk.now }

/-- A double-bit error in the working SRAM is FATAL (12 R387). -/
theorem exec_sramScrub (n : Nat) (double : Bool) (hp : s.clk.por = false) (hr : s.clk.power ≠ .retain)
    (ht : s.mat.scrubbed + 60000000 ≤ s.clk.now) : exec (.sramScrub n double) s =
      .next (if double then raise 0x100A 0 0 (sramScrubbed n double s) else sramScrubbed n double s) :=
  if_pos ⟨hp, hr, ht⟩

theorem sramScrub_mat (n : Nat) (double : Bool) (s : State) :
    (if double then raise 0x100A 0 0 (sramScrubbed n double s) else sramScrubbed n double s).mat
      = (sramScrubbed n double s).mat := by
  split
  · exact raise_mat ..
  · rfl

theorem exec_ddrPatrolScrub (n d : Nat) (hs : s.mat.ddrState = 2) (ht : s.mat.patrolled + 86400000000 ≤ s.clk.now) :
    exec (.ddrPatrolScrub n d) s = .next (s.onMat fun x => { x with
      ce := satAdd x.ce n
      ue := satAdd x.ue d
      patrolled := s.clk.now }) := if_pos ⟨hs, ht⟩

/-! ### Row repair (12 R393)

That a row changes at the flip, and at once while no waves run, is the model's reading (log entry 64). -/

/-- The self-test repairs a row whether or not the row is due. -/
theorem exec_edramRowRepair (hp : s.clk.por = false) : exec (.edramRowRepair m true) s =
    if sparesOut m s then
      if m.region = 0 then .next (onTile m.bank (fun q => { q with
        dead := true
        health := 0 }) s)
      else if s.mat.sparesTold.contains (bankKey m) then .next s
      else .next (raise 0x1005 0 (BitVec.ofNat 64 (m.bank * 2 ^ 32 + m.word)) (s.onMat fun x => { x with
        spares := true
        sparesTold := x.sparesTold ++ [bankKey m] }))
    else .next (if s.wave.live then rowSwap m s else repairAll (rowSwap m s)) :=
  if_neg (by simp [hp])

theorem exec_edramRowRepair_swaps (hp : s.clk.por = false) (ho : sparesOut m s = false) :
    exec (.edramRowRepair m true) s = .next (if s.wave.live then rowSwap m s else repairAll (rowSwap m s)) := by
  rw [exec_edramRowRepair hp, ho]
  rfl

/-- The tile of a gain bank that has no spare row is dead. -/
theorem exec_edramRowRepair_gain (hp : s.clk.por = false) (ho : sparesOut m s = true) (hg : m.region = 0) :
    exec (.edramRowRepair m true) s = .next (onTile m.bank (fun q => { q with
      dead := true
      health := 0 }) s) :=
  (exec_edramRowRepair hp).trans ((if_pos ho).trans (if_pos hg))

/-- Any other bank without a spare row is told once. -/
theorem exec_edramRowRepair_pool (hp : s.clk.por = false) (ho : sparesOut m s = true) (hg : m.region ≠ 0)
    (ht : s.mat.sparesTold.contains (bankKey m) = false) : exec (.edramRowRepair m true) s =
      .next (raise 0x1005 0 (BitVec.ofNat 64 (m.bank * 2 ^ 32 + m.word)) (s.onMat fun x => { x with
        spares := true
        sparesTold := x.sparesTold ++ [bankKey m] })) :=
  (exec_edramRowRepair hp).trans ((if_pos ho).trans ((if_neg hg).trans (if_neg (ne_true_of_eq_false ht))))

/-! ### Refresh and the sensors (12 R394; 14 R447; log entry 66) -/

theorem exec_tjThresholdCross (k : Fin 16) (tj : Int) (hp : s.clk.por = false) :
    exec (.tjThresholdCross k tj) s = .next (sensorHot k.val tj s) := if_neg (ne_true_of_eq_false hp)

theorem exec_edramRefreshRelax {q : Fin 4} (tj : Int) (hp : s.clk.por = false)
    (ht : tget 0 s.mat.rose q.val + 1000000 ≤ s.clk.now) : exec (.edramRefreshRelax q tj) s =
      .next (coolEnd (s.onMat fun x => { x with
        tj := tput 0 x.tj q.val tj
        refresh := tput 0 x.refresh q.val (min (tget 0 x.refresh q.val) (refreshCode (tj + 3))) })) := if_pos ⟨hp, ht⟩

theorem exec_tjCrit (k : Fin 16) {tj : Int} (hp : s.clk.por = false) (hj : 140 < tj) : exec (.tjCrit k tj) s =
    .next (raise 0x090C k.val (BitVec.ofInt 64 tj) (sensorHot k.val tj s)) := if_pos ⟨hp, hj⟩

/-- Settles O44: each clause is the rule of its event; what the statement says of a tile or the memories is then read from the
state that the rule leaves. -/
theorem memoryEvents : Obligations.MemoryEvents := by
  refine ⟨fun s m hp hr => ⟨exec_edramScrub true hp hr, exec_edramScrub false hp hr⟩,
    fun s n double hp hr ht => ⟨_, exec_sramScrub n double hp hr ht, ?_⟩,
    fun s n d hs ht => exec_ddrPatrolScrub n d hs ht,
    fun s m hp => ⟨fun ho hg => ⟨_, exec_edramRowRepair_gain hp ho hg, ?_⟩,
      fun ho hg ht => ⟨_, exec_edramRowRepair_pool hp ho hg ht, ?_⟩, fun ho hl => ?_, fun ho hl => ?_⟩,
    fun s k tj hp => exec_tjThresholdCross k tj hp,
    fun s q tj hp ht => exec_edramRefreshRelax tj hp ht,
    fun s k tj hp hj => exec_tjCrit k hp hj⟩
  · rw [sramScrub_mat]
    exact ⟨rfl, rfl, rfl, rfl⟩
  · rw [tileAt_onTile]
    exact ⟨rfl, rfl⟩
  · rw [raise_mat]
    exact ⟨rfl, rfl⟩
  · rw [exec_edramRowRepair_swaps hp ho, if_pos hl]
  · rw [exec_edramRowRepair_swaps hp ho, if_neg (ne_true_of_eq_false hl)]

end Sys2Proof.Proofs
end

section
/-! The matrix (12 R382 to R388; 13 R426): what a transaction, a write of SYS_REMAP and the reset of a master do. -/

namespace Sys2Proof.Proofs

open Sys2Proof Sys2Proof.Machine Sys2Proof.Laws

variable {s : State} {tx : BusTx}

/-- The only beat of a transaction of the forms of R384 is aligned to its length, so that it lies within 4 KB. -/
theorem crosses4k_of_single (h : txOk tx = true) (h1 : tx.beats = 1) : crosses4k tx = false := by
  have hpage : beatLen tx ∣ 4096 := Nat.pow_dvd_pow 2 (by omega : tx.size.val ≤ 12)
  have haddr : beatLen tx ∣ tx.addr.toNat := by
    cases hw : tx.wrap <;> simp [txOk, h1, hw] at h
    exact Nat.dvd_of_mod_eq_zero h
  have hroom : beatLen tx ∣ 4096 - tx.addr.toNat % 4096 := Nat.dvd_sub hpage ((Nat.dvd_mod_iff hpage).mpr haddr)
  have hfits := Nat.le_of_dvd (by omega) hroom
  simp only [crosses4k, h1, decide_eq_false_iff_not]
  omega

/-- A forced release is a write to the debug access registers, whose content the spec leaves out (12 R379). -/
theorem txDevice_of_forcedNow {d : Nat} (h : txOk tx = true) (hf : forcedNow s tx = some d) : txDevice s tx = true := by
  simp only [forcedNow, Option.ite_none_right_eq_some, Bool.and_eq_true, beq_iff_eq] at hf
  obtain ⟨⟨⟨-, h1⟩, hd⟩, -⟩ := hf
  have h0 : beatAddr tx 0 = tx.addr.toNat := by simp [beatAddr]
  simp only [txDevice, crosses4k_of_single h h1, h1, List.range_one, List.any_cons, List.any_nil, h0]
  split at hd
  · next hs => rw [hs]; rfl
  · cases hd

/-- A transaction of the forms of R384 forces a release, faults at a device whose behaviour the spec leaves out, or is issued. -/
theorem exec_matrixTransaction (hp : s.clk.por = false) (hx : txOk tx = true) : exec (.matrixTransaction tx) s =
    match forcedNow s tx with
    | some d => .next (releaseEarly d s)
    | none => if txDevice s tx then .fault (.unspecifiedDevice tx.addr.toNat) else .next (txIssue tx s) :=
  if_neg (by simp [hp, hx])

theorem exec_sysRemapWrite (m : Fin 8) (v : Bool) (s : State) : exec (.sysRemapWrite m v) s =
    if permitted s m.val .priv then .next (s.onMat fun x => { x with remap := v })
    else .next (busErr m.val false 0x21000000 true 0 s) := rfl

theorem exec_masterReset {m : Fin 8} (h : canReset m.val = true) : exec (.masterReset m) s = .next (masterReset m.val s) :=
  if_pos h

/-- Settles O58: a transaction that reaches no such device forces no release. -/
theorem matrixCommands : Obligations.MatrixCommands := by
  refine ⟨fun s tx hp hx => ⟨fun hd => ?_, fun hd => ?_⟩, fun s m v => ⟨fun h => ?_, fun h => ?_⟩,
    fun s m h => exec_masterReset h⟩
  · have hf : forcedNow s tx = none := by
      cases hf : forcedNow s tx with
      | none => rfl
      | some d => rw [txDevice_of_forcedNow hx hf] at hd; cases hd
    rw [exec_matrixTransaction hp hx, hf, hd]
    rfl
  · rw [exec_matrixTransaction hp hx, hd]
    rfl
  · rw [exec_sysRemapWrite, if_pos h]
  · rw [exec_sysRemapWrite, if_neg (ne_true_of_eq_false h)]

end Sys2Proof.Proofs
end

section
/-! Clocks (13 R404 to R417): the media DPLL, the clock monitors and PLLs, the gates and the measuring counter. -/

namespace Sys2Proof.Proofs

open Sys2Proof Sys2Proof.Machine Sys2Proof.Laws

variable {s : State}

/-! ### Time from the network (R404, R407 to R410) -/

@[simp] theorem ptpEval_clk (s : State) : (ptpEval s).clk = s.clk := by
  unfold ptpEval
  dsimp only
  split <;> rfl

@[simp] theorem ptpUsable_clk (usable : Bool) (s : State) : (ptpUsable usable s).clk = s.clk := ptpEval_clk _

@[simp] theorem raise_clk (c o : Nat) (d : BitVec 64) (s : State) : (raise c o d s).clk = s.clk := by
  rw [raise_flt]

@[simp] theorem endCond_clk (c o : Nat) (s : State) : (endCond c o s).clk = s.clk := by
  rw [endCond_flt]

/-- A DPLL in free-run locks when time comes; in any other state but holdover it keeps its state (R407). -/
theorem exec_ptpTimeAvailable (h3 : s.clk.dpll ≠ some 3) (hr : s.clk.restart = false) : exec (.ptpTimeAvailable ()) s =
    .next (if s.clk.dpll = some 0 then dpllSet 1 (ptpUsable true s) else ptpUsable true s) := by
  show execPtpTimeAvailable () s = _
  simp only [execPtpTimeAvailable, h3, hr, Bool.false_eq_true, or_self, if_false, ptpUsable_clk]

/-- A locked DPLL that loses time holds over (R407); a re-alignment that waits for time is answered NO_LOCK (log entry 45). -/
theorem exec_ptpTimeLost_locked (h : (realignLost (ptpUsable false s)).clk.dpll = some 2) : exec (.ptpTimeLost ()) s =
    .next (raise 0x0901 0 0 (dpllSet 3 ((realignLost (ptpUsable false s)).onClk fun c => { c with holdAt := c.now }))) := by
  show execPtpTimeLost () s = _
  simp only [execPtpTimeLost, h]

theorem exec_holdoverLong (h3 : s.clk.dpll = some 3) (ht : s.clk.holdAt + s.clk.holdAlarm * 1000000 ≤ s.clk.now) :
    exec .holdoverLong s = .next (raise 0x0903 0 0 s) := if_pos ⟨h3, ht⟩

/-- The DPLL has locked: the sample, the phase and the frequency offset of the lock stand (R408). -/
def dpllLocked (phase ppb : BitVec 32) (s : State) : State := dpllSet 2 (s.onClk fun c => { c with
  lastLock := sampleNow s
  phase := phase
  ppb := ppb })

/-- A counter that is not valid steps at a lock (R410). -/
theorem exec_dpllLock (target : BitVec 64) (phase ppb : BitVec 32) (h1 : s.clk.dpll = some 1) (hu : s.net.ptp.usable = true)
    (hr : s.clk.restart = false) : exec (.dpllLock target phase ppb) s =
      let u := dpllLocked phase ppb s
      if u.wave.counterValid then .next u else .next (stepTo target (if u.clk.relock then noteRealign target u else u)) :=
  if_pos ⟨h1, hu, hr⟩

/-- Time that returns within the step limit ends the holdover (R409). -/
theorem exec_ptpTimeReturn_near {phase : BitVec 32} (h3 : s.clk.dpll = some 3) (hr : s.clk.restart = false)
    (hn : phase.toInt.natAbs ≤ s.clk.stepLim * 1000) : exec (.ptpTimeReturn () phase) s =
      let u := (ptpUsable true s).onClk fun c => { c with phase := phase }
      .next (holdoverEnds (dpllSet 2 (u.onClk fun c => { c with lastLock := sampleNow u }))) := by
  refine (if_pos ⟨h3, hr⟩).trans (if_pos ?_)
  rwa [onClk_clk, ptpUsable_clk]

/-- The counter steps to the target, and every Kiosk that waits for the step is answered (R410, R439). -/
theorem exec_realignStep (target : BitVec 64) (hd : s.clk.realDue = true) (hu : s.net.ptp.usable = true)
    (hp : s.clk.dpll.isSome = true) (hr : s.clk.restart = false) : exec (.realignStep target) s =
      let v := noteRealign target s
      let u := holdoverEnds (dpllSet 2 (stepTo target (v.onClk fun c => { c with lastLock := target })))
      .next ((waitingKiosks u 0x0904 fun _ => true).foldl
        (fun w k => answerOk k (le 8 target.toNat ++ le 8 v.clk.lastStep.toNat) w) u) :=
  if_pos ⟨hd, hu, hp, hr⟩

/-! ### Monitors and PLLs (R405, R411 to R413) -/

/-- A monitor whose clock was good reacts as its row of R412 says. -/
theorem exec_clockMonitorTrip {k : Fin 6} (hp : s.clk.por = false) (hm : s.clk.monOk.getLsbD k.val = true) :
    exec (.clockMonitorTrip k) s =
      match k.val with
      | 0 => .next (clockAbsent s)
      | 1 => .next (toRc (fun s =>
          let s := raise 0x0908 1 0 ((monTripped 1 s).onClk fun c => { c with refOk := false })
          let s := if s.clk.monOk.getLsbD 3 then mediaTrips s else s
          if s.clk.monOk.getLsbD 4 then ddrTrips s else s) s)
      | 2 => .next (toRc (fun s => raise 0x0906 2 0 (monTripped 2 s)) s)
      | 3 => .next (mediaTrips s)
      | 4 => .next (ddrTrips s)
      | _ => .next (sdsFail (monTripped 5 s)) :=
  if_neg (by simp [hp, hm])

/-- A bit just set is set. -/
theorem getLsbD_or_pow {n : Nat} (v : BitVec n) {k : Nat} (hk : k < n) : (v ||| BitVec.ofNat n (2 ^ k)).getLsbD k = true := by
  rw [BitVec.getLsbD_or, BitVec.getLsbD_ofNat, Nat.testBit_two_pow_self, decide_eq_true hk, Bool.and_true, Bool.or_true]

theorem monOk_monGood {k : Nat} (hk : k < 6) (s : State) : (monGood k s).clk.monOk.getLsbD k = true := getLsbD_or_pow _ hk

/-- What a clock that is back ends beside its monitor's bit (R413). -/
theorem exec_clockMonitorRecover {k : Fin 6} (hp : s.clk.por = false) (hr : s.clk.rcOk = true)
    (hm : s.clk.monOk.getLsbD k.val = false) : ∃ t, exec (.clockMonitorRecover k) s = .next t ∧
      t.clk.monOk = (monGood k.val s).clk.monOk := by
  have he : ¬(s.clk.por = true ∨ s.clk.rcOk = false ∨ s.clk.monOk.getLsbD k.val = true) := by
    simp only [hp, hr, hm, Bool.false_eq_true, Bool.true_eq_false, or_self, not_false_iff]
  show ∃ t, execClockMonitorRecover k s = .next t ∧ _
  rw [execClockMonitorRecover, if_neg he]
  dsimp only
  split
  · exact ⟨_, rfl, by rw [endCond_clk]; rfl⟩
  · exact ⟨_, rfl, by rw [endCond_clk]⟩
  · exact ⟨_, rfl, by rw [endCond_clk]⟩
  · exact ⟨_, rfl, rfl⟩

/-- A PLL that locks is marked in LOCK, and the monitor of its output finds a good clock (R405, R413). -/
theorem exec_pllLock {k : Fin 4} (hp : s.clk.por = false) (hr : s.clk.rcOk = true) (hf : s.clk.refOk = true)
    (hl : s.clk.lock.getLsbD k.val = false) (hw : s.clk.power ≠ .retain) : ∃ t, exec (.pllLock k) s = .next t ∧
      t.clk.lock = s.clk.lock ||| BitVec.ofNat 4 (2 ^ k.val) ∧ t.clk.monOk = (monGood (k.val + 2) s).clk.monOk := by
  have he : ¬((s.clk.por || !s.clk.rcOk || !(k.val == 3 || s.clk.refOk) || s.clk.lock.getLsbD k.val
      || (s.clk.power == .retain)) = true) := by
    simp only [hp, hr, hf, hl, beq_eq_false_iff_ne.mpr hw, Bool.not_true, Bool.or_true, Bool.or_false, Bool.false_eq_true,
      not_false_iff]
  show ∃ t, execPllLock k s = .next t ∧ _
  rw [execPllLock, if_neg he]
  obtain ⟨k, hk⟩ := k
  match k, hk with
  | 0, _ => exact ⟨_, rfl, rfl, rfl⟩
  | 1, _ =>
    refine ⟨_, rfl, ?_⟩
    split <;> exact ⟨rfl, rfl⟩
  | 2, _ => exact ⟨_, rfl, rfl, rfl⟩
  | 3, _ => exact ⟨_, rfl, rfl, rfl⟩

/-! ### Gates and the measuring counter (R414 to R417) -/

@[simp] theorem answer_clk (k status detail : Nat) (b : List Byte) (s : State) : (answer k status detail b s).clk = s.clk := by
  rw [answer_frame]

theorem answerOk_clk (k : Nat) (b : List Byte) (s : State) : (answerOk k b s).clk = s.clk := answer_clk k 0 0 b s

theorem clkGates_congr {u v : State} (h : v.clk = u.clk) : clkGates v = clkGates u := by
  unfold clkGates
  rw [h]

/-- Two steps that agree where an invariant of the second holds fold to the same. -/
theorem foldl_congr_of_invariant {α β : Type} {P : β → Prop} {f g : β → α → β} (hfg : ∀ b a, P b → f b a = g b a)
    (hg : ∀ b a, P b → P (g b a)) (l : List α) {b : β} (hb : P b) : l.foldl f b = l.foldl g b := by
  induction l generalizing b with
  | nil => rfl
  | cons a l ih =>
    rw [List.foldl_cons, List.foldl_cons, hfg b a hb]
    exact ih (hg b a hb)

/-- Answers leave the gates alone, so that all of them carry the gates of the state before the first. -/
theorem foldl_answerOk_gates (l : List (Nat × Nat × Nat)) (u : State) :
    l.foldl (fun v q => answerOk q.2.1 (le 4 (clkGates v).toNat) v) u
      = l.foldl (fun v q => answerOk q.2.1 (le 4 (clkGates u).toNat) v) u :=
  foldl_congr_of_invariant (P := fun v => v.clk = u.clk)
    (fun v q h => congrArg (fun g : BitVec 32 => answerOk q.2.1 (le 4 g.toNat) v) (clkGates_congr h))
    (fun v _ h => (answerOk_clk _ _ v).trans h) l rfl

/-- A gate whose port is idle closes, and those who asked are answered with the gates as they then are (log entry 42). -/
theorem exec_gateCloseAck {g : Fin 16} (hc : (takeClosing g.val s).1 ≠ [])
    (ho : (s.mat.out.any fun q => txGate q.tx g.val) = false) : exec (.gateCloseAck g) s =
      let u := (takeClosing g.val s).2.onClk fun c => { c with gates := c.gates &&& ~~~ BitVec.ofNat 16 (2 ^ g.val) }
      .next ((takeClosing g.val s).1.foldl (fun v q => answerOk q.2.1 (le 4 (clkGates u).toNat) v) u) :=
  (if_neg (by simp [hc, ho])).trans (congrArg _ (foldl_answerOk_gates _ _))

theorem exec_gateCloseTimeout {g : Fin 16}
    (h : (s.clk.closing.any fun q => q.1 == g.val && decide (q.2.2 + s.clk.gateTo ≤ s.clk.now)) = true) :
    exec (.gateCloseTimeout g) s =
      let r := takeClosing g.val s
      .next (r.1.foldl (fun v q => answerFail q.2.1 { status := 0x0061 } v)
        (gateRefused (r.2.onMat fun m => { m with gateRef := true }))) := if_pos h

/-- A measurement is rounded down to mHz (log entry 171). -/
theorem exec_clkMeasureComplete (n : BitVec 32) {d ref cycles k : Nat} (h : s.clk.meas = some (d, ref, cycles, k)) :
    exec (.clkMeasureComplete n) s = .next (answerOk k (le 4 n.toNat ++ zeros 4
      ++ le 8 (n.toNat * nominalHz s ref * 1000 / cycles)) (s.onClk fun c => { c with
        meas := none
        measCnt := n })) := by
  show execClkMeasureComplete n s = _
  simp only [execClkMeasureComplete, h]

/-- Settles O54: each clause is the rule of its event. -/
theorem clockEvents : Obligations.ClockEvents := by
  refine ⟨fun s hr => ⟨fun h0 => ?_, fun h2 => ?_⟩, fun s h => exec_ptpTimeLost_locked h,
    fun s h3 ht => exec_holdoverLong h3 ht,
    fun s target phase ppb h1 hu hr => ⟨fun hv => ?_, fun hv hl => ?_⟩,
    fun s phase h3 hr hn => exec_ptpTimeReturn_near h3 hr ?_,
    fun s target hd hu hp hr => exec_realignStep target hd hu hp hr,
    fun s hp => ⟨fun hm => exec_clockMonitorTrip hp hm, fun hm => exec_clockMonitorTrip hp hm,
      fun hm => exec_clockMonitorTrip hp hm, fun hm => exec_clockMonitorTrip hp hm⟩,
    fun s k hp hr hm => ?_, fun s k hp hr hf hl hw => ?_,
    fun s g hc ho => exec_gateCloseAck hc ho, fun s g h => exec_gateCloseTimeout h,
    fun s n d ref cycles k h => exec_clkMeasureComplete n h⟩
  · rw [exec_ptpTimeAvailable (by simp [h0]) hr, if_pos h0]
  · rw [exec_ptpTimeAvailable (by simp [h2]) hr, if_neg (by simp [h2])]
  · exact (exec_dpllLock target phase ppb h1 hu hr).trans (if_pos hv)
  · have hrelock : (dpllLocked phase ppb s).clk.relock = false := hl
    refine (exec_dpllLock target phase ppb h1 hu hr).trans ((if_neg (ne_true_of_eq_false hv)).trans ?_)
    rw [hrelock]
    rfl
  · rwa [onClk_clk, ptpUsable_clk] at hn
  · obtain ⟨t, he, ht⟩ := exec_clockMonitorRecover hp hr hm
    exact ⟨t, he, ht ▸ monOk_monGood k.isLt s⟩
  · obtain ⟨t, he, hlock, hmon⟩ := exec_pllLock hp hr hf hl hw
    exact ⟨t, he, hlock, hmon ▸ monOk_monGood (by omega) s⟩

end Sys2Proof.Proofs
end

section
/-! Resets, the watchdog and RETAIN (11 R353, R377; 13 R419 to R423, R433, R434, R437). -/

namespace Sys2Proof.Proofs

open Sys2Proof Sys2Proof.Machine Sys2Proof.Laws

variable {s : State}

/-! ### Pins and PCIe (13 R419 to R422; 11 R377) -/

theorem exec_nresetLow_long {ns : Nat} (taken : Bool) (hp : s.clk.por = false) (hn : 1000 ≤ ns) :
    exec (.nresetLow ns taken) s = .next (systemReset 1 s) :=
  (if_neg (ne_true_of_eq_false hp)).trans (if_pos (.inl hn))

/-- A pulse below 850 ns resets nothing, whatever it would be taken for (R420). -/
theorem exec_nresetLow_short {ns : Nat} (taken : Bool) (hp : s.clk.por = false) (hn : ns < 850) :
    exec (.nresetLow ns taken) s = .next s :=
  (if_neg (ne_true_of_eq_false hp)).trans (if_neg (by omega))

theorem exec_pciePerst_high (s : State) : exec (.pciePerst true) s = .next (s.onMat fun m => { m with pcie := true }) := rfl

theorem exec_pciePerst_low (hf : s.flt.fatal = false) : exec (.pciePerst false) s =
    .next (hostLost (setCause 7 (s.onMat fun m => { m with pcie := false }))) :=
  congrArg Host.Outcome.next (if_neg (ne_true_of_eq_false hf))

theorem exec_pcieFlr (hf : s.flt.fatal = false) (hp : s.mat.pcie = true) :
    exec .pcieFlr s = .next (masterReset 2 (hostLost (setCause 8 s))) := if_neg (by simp [hf, hp])

/-! ### The firmware (13 R419, R423; 11 R353)

That a heartbeat also serves the watchdog is the model's reading (log entry 84), and so is the check of the copy (log entry 164). -/

theorem exec_fwWatchdog (hf : s.host.fwState = 5) (ht : s.host.served + 1000000 ≤ s.clk.now) :
    exec .fwWatchdog s = .next (nolutReset (setCause 4 (raise 0x090A 0 0 s))) := if_pos ⟨hf, ht⟩

theorem exec_fwHeartbeatIncrement (hf : s.host.fwState = 5) : exec .fwHeartbeatIncrement s =
    .next (s.onHost fun h => { h with
      beat := h.beat + 1
      served := s.clk.now }) := if_pos hf

theorem exec_nolutRestartComplete (hr : s.clk.restart = true) (hf : s.host.fwState = 4) :
    exec (.nolutRestartComplete ()) s = .next (if imageErr s copyAt = 0 then fwReady s else raise 0x090B 0 0 s) :=
  if_pos ⟨hr, hf⟩

/-- A firmware that restarts reaches READY through its copy only. -/
theorem exec_fwReady_restart (hr : s.clk.restart = true) : exec .fwReady s = .next s := if_neg (by simp [hr])

/-- A commanded reset takes effect 1 ms after its response (R437). -/
theorem exec_commandedReset {scope t0 : Nat} (hd : s.clk.resetDue = some (scope, t0)) (ht : t0 + 1000 ≤ s.clk.now)
    (hf : s.flt.fatal = false) : exec .commandedReset s =
      .next (if scope = 0 then systemReset 3 s else nolutReset (setCause 5 s)) := by
  show execCommandedReset s = _
  simp only [execCommandedReset, hd, ht, hf, and_self, if_true]

/-! ### RETAIN (13 R433, R434) -/

/-- Entry to RETAIN takes the links down in the manner of the SerDes clock monitor (log entry 44) and leaves no clock running. -/
theorem exec_retainEnter {w : BitVec 64} (hp : s.clk.power = .hush) (hd : s.clk.powDue = some (.retain, w))
    (hw : s.clk.wakeSrc = 0) : ∃ t, exec .retainEnter s = .next t ∧ t.clk.power = .retain ∧ t.clk.powDue = none ∧
      t.clk.lock = 0 ∧ t.clk.dpll = none ∧ t.wave.counterValid = false ∧ t.mat.pcie = false := by
  refine ⟨_, if_pos ⟨hp, by rw [hd]⟩, ?_, rfl, rfl, rfl, rfl, rfl⟩
  rw [onClk_clk]
  exact if_neg (by simp [hw])

/-- Clocks and counter as a wake leaves them: every PLL locked, and the periods that passed counted (R434). -/
theorem exec_wakeComplete (n : BitVec 64) (hp : s.clk.power = .waking) : ∃ t, exec (.wakeComplete n) s = .next t ∧
    t.clk.power = .hush ∧ t.clk.wakeSrc = 0 ∧ t.clk.lock = 0xF ∧
    t.wave.count = (if s.wave.rate.isSome then s.wave.count + n else s.wave.count) ∧ t.net.rings = [] := by
  refine ⟨_, if_pos hp, ?_⟩
  rw [drivePin, onClk_clk, onClk_wave, onClk_net, raise_clk, raise_wave, raise_net]
  exact ⟨rfl, rfl, rfl, rfl, rfl⟩

/-- Settles O55: each clause is the rule of its event. -/
theorem resetsAndPower : Obligations.ResetsAndPower := by
  refine ⟨fun s taken ns hp hn => exec_nresetLow_long taken hp hn, fun s taken ns hp hn => exec_nresetLow_short taken hp hn,
    fun s => ⟨exec_pciePerst_high s, fun hf => exec_pciePerst_low hf⟩, fun s hf hp => exec_pcieFlr hf hp,
    fun s hf ht => exec_fwWatchdog hf ht, fun s hf => exec_fwHeartbeatIncrement hf,
    fun s hr hf => ⟨fun he => ?_, fun he => ⟨?_, exec_fwReady_restart hr⟩⟩,
    fun s t0 ht hf => ⟨fun hd => exec_commandedReset hd ht hf, fun hd => exec_commandedReset hd ht hf⟩,
    fun s w hp hd hw => exec_retainEnter hp hd hw, fun s n hp => exec_wakeComplete n hp⟩
  · rw [exec_nolutRestartComplete hr hf, if_pos he]
  · rw [exec_nolutRestartComplete hr hf, if_neg he]

end Sys2Proof.Proofs
end

section
/-! The fault collector (14 R443 to R445, R451, R453, R455, R460): what a scan, a report of the firmware and the ends of windows and
pulses leave in the state before them. -/

namespace Sys2Proof.Proofs

open Sys2Proof Sys2Proof.Machine Sys2Proof.Laws

variable {s : State}

/-! ### Scans (R443, R444)

That a scan carries the time on by 1 µs is the model's reading (log entry 5). -/

/-- The state a microsecond later. -/
def afterMicro (s : State) : State := s.onClk fun c => { c with now := c.now + 1 }

/-- A firmware that is down, or whose ports take no part in PTP, has nothing to tell in time. -/
theorem ptpTimer_of_silent (h : s.host.fwState ≠ 5 ∨ ptpCfg s 5 = 0) : ptpTimer s = s :=
  if_neg fun hc => h.elim (· hc.1) hc.2

/-- While the engine is held in reset a scan passes the time only. -/
theorem exec_faultLineScan_held (broken : List (Nat × Nat)) (hp : s.clk.por = true ∨ s.clk.rcOk = false)
    (hf : s.host.fwState ≠ 5 ∨ ptpCfg s 5 = 0) : exec (.faultLineScan broken) s = .next (afterMicro s) := by
  have ht : ptpTimer (afterMicro s) = afterMicro s := ptpTimer_of_silent hf
  show execFaultLineScan broken s = _
  unfold execFaultLineScan
  rw [← afterMicro, ht]
  exact if_pos hp

/-- A scan that finds no report, no blind pair and no broken line leaves the collector empty and the host interface alone. -/
theorem exec_faultLineScan_quiet {broken : List (Nat × Nat)} (hp : s.clk.por = false) (hr : s.clk.rcOk = true)
    (hq : s.flt.lineQ = []) (hb : s.flt.broken = []) (hn : readBroken (afterMicro s) broken = [])
    (hf : s.host.fwState ≠ 5 ∨ ptpCfg s 5 = 0) : ∃ t, exec (.faultLineScan broken) s = .next t ∧
      t.clk.now = s.clk.now + 1 ∧ t.flt.seenBrk = [] ∧ t.flt.lineQ = [] ∧ t.host = s.host := by
  have ht : ptpTimer (afterMicro s) = afterMicro s := ptpTimer_of_silent hf
  have hup : ¬((afterMicro s).clk.por = true ∨ (afterMicro s).clk.rcOk = false) := by simp [afterMicro, hp, hr]
  have hb' : (afterMicro s).flt.broken = [] := hb
  have hq' : (afterMicro s).flt.lineQ = [] := hq
  show ∃ t, execFaultLineScan broken s = .next t ∧ _
  unfold execFaultLineScan
  rw [← afterMicro, ht]
  refine ⟨_, if_neg hup, ?_⟩
  rw [hn, hb', hq']
  exact ⟨rfl, rfl, rfl, rfl⟩

/-! ### Reports and merges (R445, R451) -/

theorem exec_firmwareFaultReport {r : Rep} {l : List Rep} (h : s.flt.fwQ = r :: l) :
    exec .firmwareFaultReport s = .next (collect r (s.onFlt fun f => { f with fwQ := l })) := by
  show execFirmwareFaultReport s = _
  simp only [execFirmwareFaultReport, h]

/-- What remains of a window: one that has ended goes on from now if it has merged, and closes if not. -/
def windowNext (now : Nat) (m : Merge) : Option Merge :=
  if m.at_ + 1000 ≤ now then (if m.count = 0 then none else some { m with at_ := now, count := 0 }) else some m

theorem exec_faultMergeFlush (s : State) : exec .faultMergeFlush s =
    .next ((s.flt.merges.filter fun m => decide (m.at_ + 1000 ≤ s.clk.now)).foldl (fun s m => flushMerge m s)
      (s.onFlt fun f => { f with merges := f.merges.filterMap (windowNext s.clk.now) })) := rfl

/-- Before its end a window stays. -/
theorem exec_faultMergeFlush_none (h : ∀ m ∈ s.flt.merges, s.clk.now < m.at_ + 1000) : exec .faultMergeFlush s = .next s := by
  have hdue : (s.flt.merges.filter fun m => decide (m.at_ + 1000 ≤ s.clk.now)) = [] :=
    List.filter_eq_nil_iff.mpr fun m hm => by simpa using h m hm
  have hstay : s.flt.merges.filterMap (windowNext s.clk.now) = s.flt.merges :=
    (List.filterMap_congr fun m hm => if_neg (Nat.not_le.mpr (h m hm))).trans List.filterMap_some
  rw [exec_faultMergeFlush, hdue, State.onFlt, hstay]
  rfl

/-- At its end the reports that a window has merged are written as one record. -/
theorem exec_faultMergeFlush_one {m : Merge} (hm : s.flt.merges = [m]) (ht : m.at_ + 1000 ≤ s.clk.now) (hc : m.count ≠ 0) :
    exec .faultMergeFlush s = .next (flushMerge m (s.onFlt fun f => { f with
      merges := [{ m with at_ := s.clk.now, count := 0 }] })) := by
  have hnext : [m].filterMap (windowNext s.clk.now) = [{ m with at_ := s.clk.now, count := 0 }] := by
    simp [windowNext, ht, hc]
  have hdue : [m].filter (fun m => decide (m.at_ + 1000 ≤ s.clk.now)) = [m] :=
    List.filter_eq_self.mpr (by simpa using ht)
  rw [exec_faultMergeFlush, State.onFlt, hm, hnext, hdue]
  rfl

/-! ### nFAULT and injections (R453, R455, R460) -/

theorem exec_nfaultPulseEnd {b : Nat} (h : s.flt.pulse = some b) (hb : b ≤ s.clk.now) :
    exec .nfaultPulseEnd s = .next (s.onFlt fun f => { f with pulse := none }) := by
  show execNfaultPulseEnd s = _
  simp only [execNfaultPulseEnd, h, hb, if_true]

/-- An injection whose window has ended. -/
def injDue (now : Nat) : Option Inj → Bool
  | some j => decide (j.until_ ≤ now)
  | none => false

theorem exec_injectionWindowEnd (s : State) : exec .injectionWindowEnd s = .next ((List.range 4).foldl
    (fun t i => if injDue s.clk.now (tget none s.flt.inj i) then closeInj i t else t) s) := rfl

/-- Where one window alone has ended, that one closes. -/
theorem exec_injectionWindowEnd_one {j : Inj} {i : Fin 4} (hj : tget none s.flt.inj i.val = some j) (hu : j.until_ ≤ s.clk.now)
    (hk : ∀ k, k ≠ i.val → tget none s.flt.inj k = none) : exec .injectionWindowEnd s = .next (closeInj i.val s) := by
  have hdue : (fun k => injDue s.clk.now (tget none s.flt.inj k)) = (· == i.val) := by
    funext k
    by_cases h : k = i.val
    · simp [h, hj, injDue, hu]
    · simp [h, hk k h, injDue]
  have hone : ∀ i : Fin 4, (List.range 4).filter (· == i.val) = [i.val] := by decide
  rw [exec_injectionWindowEnd, ← List.foldl_filter (p := fun k => injDue s.clk.now (tget none s.flt.inj k)), hdue, hone i]
  rfl

/-- A reserved PULSE_US leaves the pulse, and under FATAL the level stays (R453, R460). -/
theorem exec_fltNfaultWrite (v : BitVec 32) (s : State) : exec (.fltNfaultWrite v) s = .next (s.onFlt fun f => { f with
    pulseUs := if 1 ≤ bitsOf v.toNat 29 16 ∧ bitsOf v.toNat 29 16 ≤ 10000 then bitsOf v.toNat 29 16 else f.pulseUs
    assert_ := if f.fatal then f.assert_ else v.getLsbD 0 }) := rfl

/-- Settles O56: each clause is the rule of its event. -/
theorem faultEvents : Obligations.FaultEvents := by
  refine ⟨fun s broken => ?_, fun s broken hp hr hq hb hn hf => exec_faultLineScan_quiet hp hr hq hb hn hf,
    fun s r l h => exec_firmwareFaultReport h, fun s h => exec_faultMergeFlush_none h,
    fun s m hm ht hc => exec_faultMergeFlush_one hm ht hc, fun s b h hb => exec_nfaultPulseEnd h hb,
    fun s j i hj hu hk => exec_injectionWindowEnd_one hj hu hk, fun s v => ⟨_, exec_fltNfaultWrite v s, rfl, rfl, rfl⟩⟩
  obtain ⟨t, ht⟩ := completes_of_ne_matrixTransaction (s := s) (.faultLineScan broken) (fun _ => nofun)
  exact ⟨t, ht, fun hp hf => Host.Outcome.next.inj (ht.symm.trans (exec_faultLineScan_held broken hp hf))⟩

end Sys2Proof.Proofs
end

section
/-! The security module on its own (15 R467, R472, R474, R477, R479): failed tests, glitches and tampers, the timeouts of a session
and the end of a library verification. -/

namespace Sys2Proof.Proofs

open Sys2Proof Sys2Proof.Machine Sys2Proof.Laws

variable {s : State}

@[simp] theorem raise_sm (c o : Nat) (d : BitVec 64) (s : State) : (raise c o d s).sm = s.sm := by
  rw [raise_flt]

/-! ### Tests and detectors (R467, R479) -/

theorem exec_smConditionalTestFail (h : s.sm.state = 1) : exec .smConditionalTestFail s =
    .next (raise 0x0B01 0 0x10 (zeroVolatile ((smFail (leaveApproved s)).onSm fun m => { m with state := 2 }))) := if_pos h

/-- A glitch is counted with those of the last second and told. -/
def glitched (s : State) : State := raise 0x0B01 0 0 (smFail (s.onSm fun m => { m with
  glitch := true
  glitches := s.clk.now :: m.glitches.filter fun t => decide (s.clk.now < t + 1000000) }))

/-- The fourth glitch in a second is a tamper. -/
theorem exec_smGlitch (clock : Bool) (h : detects s = true) : exec (.smGlitch clock) s =
    .next (if 4 ≤ (glitched s).sm.glitches.length then tamper (glitched s) else glitched s) := if_pos h

theorem exec_smTamper (d : Fin 3) (h : detects s = true) : exec (.smTamper d) s = .next (tamper s) := if_pos h

theorem tamper_sm (s : State) : (tamper s).sm.tampered = true ∧ (tamper s).sm.state = 3 := by
  rw [tamper, raise_sm]
  exact ⟨rfl, rfl⟩

/-! ### Sessions (R472, R474) -/

theorem exec_sessionIdleTimeout {q : Sess} (h : s.sm.session = some q) (ht : q.lastAt + q.idle * 1000000 ≤ s.clk.now) :
    exec .sessionIdleTimeout s = .next (sessionEnd s) := by
  show execSessionIdleTimeout s = _
  simp only [execSessionIdleTimeout, h, ht, if_true]

theorem exec_sessionAuthTimeout {o : Opening} (h : s.sm.opening = some o) (ht : o.time + 10000000 ≤ s.clk.now) :
    exec .sessionAuthTimeout s = .next (s.onSm fun m => { m with opening := none }) := by
  show execSessionAuthTimeout s = _
  simp only [execSessionAuthTimeout, h, ht, if_true]

theorem exec_sessionLockoutEnd {b : Nat} (h : s.sm.lockAt = some b) (ht : b + 60000000 ≤ s.clk.now) :
    exec .sessionLockoutEnd s = .next (s.onSm fun m => { m with lockAt := none }) := by
  show execSessionLockoutEnd s = _
  simp only [execSessionLockoutEnd, h, ht, if_true]

/-! ### The library (R477)

A record that is not whole ends as one whose signature fails (log entry 55). -/

/-- The verification in progress is over. -/
def verifyEnded (s : State) : State := s.onSm fun m => { m with verifying := none }

/-- An entry is VERIFIED. -/
def libVerified (e : Nat) (s : State) : State := s.onSm fun m => { m with
  verified := if m.verified.contains e then m.verified else m.verified ++ [e] }

/-- An entry is no longer VERIFIED. -/
def libUnverified (e : Nat) (s : State) : State := s.onSm fun m => { m with verified := m.verified.filter (· != e) }

theorem mem_libVerified (e : Nat) (s : State) : e ∈ (libVerified e s).sm.verified := by
  show e ∈ if s.sm.verified.contains e then s.sm.verified else s.sm.verified ++ [e]
  split
  · next h => exact List.contains_iff_mem.mp h
  · exact List.mem_append_right _ (List.mem_singleton_self e)

theorem not_mem_libUnverified (e : Nat) (s : State) : e ∉ (libUnverified e s).sm.verified := by
  simp [libUnverified]

theorem exec_secLibVerifyComplete {e k : Nat} (h : s.sm.verifying = some (e, k)) : exec (.secLibVerifyComplete ()) s =
    if libRecordOk (verifyEnded s) e && libSigned (verifyEnded s) e then
      let u := libVerified e (verifyEnded s)
      .next (answerOk k (le 1 1 ++ zeros 3 ++ le 4 (fld (libRecord u e) 12 4)) u)
    else .next (answerFail k { status := 0x0056 } (libUnverified e (verifyEnded s))) := by
  show execSecLibVerifyComplete () s = _
  unfold execSecLibVerifyComplete
  rw [h]
  rfl

/-- Settles O57: each clause is the rule of its event; what the statement says of the module is then read from the state that the
rule leaves. -/
theorem securityEvents : Obligations.SecurityEvents := by
  refine ⟨fun s h => exec_smConditionalTestFail h, fun s clock h => exec_smGlitch clock h,
    fun s d h => ⟨_, exec_smTamper d h, tamper_sm s⟩, fun s q h ht => ⟨_, exec_sessionIdleTimeout h ht, rfl⟩,
    fun s o h ht => exec_sessionAuthTimeout h ht, fun s b h ht => exec_sessionLockoutEnd h ht,
    fun s e k h => ⟨fun hr hg => ⟨libVerified e (verifyEnded s), mem_libVerified e _, rfl, ?_⟩,
      fun hf => ⟨libUnverified e (verifyEnded s), not_mem_libUnverified e _, rfl, ?_⟩⟩⟩
  · have hok : (libRecordOk (verifyEnded s) e && libSigned (verifyEnded s) e) = true := Bool.and_eq_true_iff.mpr ⟨hr, hg⟩
    rw [exec_secLibVerifyComplete h, if_pos hok]
  · have hbad : ¬(libRecordOk (verifyEnded s) e && libSigned (verifyEnded s) e) = true :=
      ne_true_of_eq_false (Bool.and_eq_false_iff.mpr hf)
    rw [exec_secLibVerifyComplete h, if_neg hbad]

end Sys2Proof.Proofs
end

section
/-! What commands leave alone: of each of these commands, in every state, the groups of registers outside which nothing changes. -/

namespace Sys2Proof.Proofs

open Sys2Proof Sys2Proof.Machine Sys2Proof.Laws

/-- A next state is what `g` makes of it: where `g` takes some groups of registers from it and the others from the state before, no
other group has changed. -/
def Framed (g : State → State) (o : Host.Outcome State Fault Refusal) : Prop := ∀ t, o = .next t → t = g t

variable {s u v : State} {g : State → State} {a b : Host.Outcome State Fault Refusal}

theorem framed_next (h : u = g u) : Framed g (.next u) := fun _ e => Host.Outcome.next.inj e ▸ h

theorem framed_ite {c : Prop} [Decidable c] (ha : Framed g a) (hb : Framed g b) : Framed g (if c then a else b) := by
  split
  · exact ha
  · exact hb

theorem framed_if {c : Prop} [Decidable c] (hu : u = g u) (hv : v = g v) : Framed g (if c then .next u else .next v) :=
  framed_ite (framed_next hu) (framed_next hv)

/-! ### Crosspoint, plans and placement -/

theorem framed_xpEntryTimeout (i : Fin 5242880) :
    Framed (fun t => { s with xp := t.xp, flt := t.flt }) (exec (.xpEntryTimeout i) s) := by
  show Framed _ (execXpEntryTimeout i s)
  unfold execXpEntryTimeout
  split
  · exact framed_if rfl rfl
  · exact framed_next rfl

theorem framed_xpTimeoutLog (q : Fin 80) :
    Framed (fun t => { s with xp := t.xp, flt := t.flt }) (exec (.xpTimeoutLog q) s) := by
  show Framed _ (execXpTimeoutLog q s)
  unfold execXpTimeoutLog
  dsimp only
  split
  · refine framed_if ?_ rfl
    rw [raise_flt]
    rfl
  · exact framed_next rfl

theorem framed_overlayTransitionTimeout (i : Fin 5242880) :
    Framed (fun t => { s with xp := t.xp }) (exec (.overlayTransitionTimeout i) s) := by
  show Framed _ (execOverlayTransitionTimeout i s)
  unfold execOverlayTransitionTimeout
  split
  · exact framed_if rfl rfl
  · exact framed_next rfl

theorem framed_playerEntryEnd (p : Fin 64) : Framed (fun t => { s with plan := t.plan }) (exec (.playerEntryEnd p) s) :=
  framed_ite (framed_ite (framed_next rfl) (framed_if rfl rfl)) (framed_next rfl)

theorem framed_eqPublishH : Framed (fun t => { s with plan := t.plan, flt := t.flt }) (exec .eqPublishH s) := by
  show Framed _ (execEqPublishH s)
  unfold execEqPublishH
  split
  · exact framed_if (latSet_plan_flt ..) rfl
  · exact framed_next rfl

theorem framed_eqSettle : Framed (fun t => { s with plan := t.plan, wave := t.wave, flt := t.flt }) (exec .eqSettle s) := by
  show Framed _ (execEqSettle s)
  unfold execEqSettle
  split
  · refine framed_if ?_ rfl
    rw [raise_flt]
    rfl
  · exact framed_next rfl

theorem framed_healthSave : Framed (fun t => { s with place := t.place, flt := t.flt }) (exec .healthSave s) := by
  refine framed_if ?_ rfl
  rw [raise_flt]
  rfl

theorem framed_vcoreLower : Framed (fun t => { s with clk := t.clk }) (exec .vcoreLower s) := by
  refine framed_next ?_
  split <;> rfl

/-! ### Stages, streams and the pair -/

theorem framed_stageMuteNoInput (l : Fin 32) : Framed (fun t => { s with drv := t.drv }) (exec (.stageMuteNoInput l) s) := by
  refine framed_next ?_
  split <;> rfl

/-- The rows of a stream fall silent among the signals. -/
theorem rxSilence_sig (q : RxStream) (s : State) : rxSilence q s = { s with sig := (rxSilence q s).sig } :=
  List.foldlRecOn (motive := fun t : State => t = { s with sig := t.sig }) _ _ rfl fun t ht c _ => by
    rw [ht]
    rfl

theorem framed_streamLoss (k : Fin 512) :
    Framed (fun t => { s with net := t.net, sig := t.sig, flt := t.flt }) (exec (.streamLoss k) s) := by
  refine framed_if ?_ rfl
  rw [raise_flt, rxSilence_sig]
  rfl

theorem framed_pauseHoldoffEnd (p : Fin 5) : Framed (fun t => { s with net := t.net }) (exec (.pauseHoldoffEnd p) s) := by
  show Framed _ (execPauseHoldoffEnd p s)
  unfold execPauseHoldoffEnd
  dsimp only
  split
  · refine framed_next ?_
    split <;> rfl
  · exact framed_next rfl

theorem framed_joinFailed : Framed (fun t => { s with twin := t.twin, flt := t.flt }) (exec .joinFailed s) := by
  refine framed_if ?_ rfl
  rw [setTwin, raise_flt]
  rfl

/-! ### The host interface -/

theorem framed_kiosk0EventPost : Framed (fun t => s.onHost fun _ => t.host) (exec .kiosk0EventPost s) := by
  refine framed_ite ?_ (framed_next rfl)
  split
  · refine framed_next ?_
    rw [k0Show, kioskIrq_only]
    rfl
  · exact framed_next rfl

theorem framed_kiosk0Ack : Framed (fun t => s.onHost fun _ => t.host) (exec .kiosk0Ack s) := by
  refine framed_ite (framed_ite (framed_next rfl) (framed_next ?_)) (framed_next rfl)
  rw [kioskIrq_only]
  rfl

/-! ### Memories, clocks, faults and the security module -/

theorem framed_sramScrub (n : Nat) (d : Bool) :
    Framed (fun t => { s with mat := t.mat, flt := t.flt }) (exec (.sramScrub n d) s) := by
  refine framed_if ?_ rfl
  split
  · rw [raise_flt]
    rfl
  · rfl

theorem framed_holdoverLong : Framed (fun t => { s with flt := t.flt }) (exec .holdoverLong s) := framed_if (raise_flt ..) rfl

theorem framed_nfaultPulseEnd : Framed (fun t => { s with flt := t.flt }) (exec .nfaultPulseEnd s) := by
  show Framed _ (execNfaultPulseEnd s)
  unfold execNfaultPulseEnd
  split
  · exact framed_if rfl rfl
  · exact framed_next rfl

theorem framed_sessionAuthTimeout : Framed (fun t => { s with sm := t.sm }) (exec .sessionAuthTimeout s) := by
  show Framed _ (execSessionAuthTimeout s)
  unfold execSessionAuthTimeout
  split
  · exact framed_if rfl rfl
  · exact framed_next rfl

theorem framed_sessionLockoutEnd : Framed (fun t => { s with sm := t.sm }) (exec .sessionLockoutEnd s) := by
  show Framed _ (execSessionLockoutEnd s)
  unfold execSessionLockoutEnd
  split
  · exact framed_if rfl rfl
  · exact framed_next rfl

/-- Settles O59: each clause is the frame of its command; those without a rule above set fields of their groups directly. -/
theorem commandFrames : Obligations.CommandFrames := by
  refine ⟨fun _ t i => framed_xpEntryTimeout i t, fun _ t q => framed_xpTimeoutLog q t,
    fun _ t i => framed_overlayTransitionTimeout i t, fun _ t p => framed_playerEntryEnd p t, fun _ => framed_eqPublishH,
    fun _ => framed_eqSettle, fun s t w => ?contextTransferComplete, fun _ => framed_healthSave, fun _ => framed_vcoreLower,
    fun s t l b f => ?stageDownstreamFrame, fun s t l b => ?stageFrameMissing, fun _ t l => framed_stageMuteNoInput l t,
    fun s t l k => ?stageCurrentLimit, fun _ t k => framed_streamLoss k t, fun _ t p => framed_pauseHoldoffEnd p t,
    fun s => ?twinRunInEnd, fun s t b => ?seedItemTimeout, fun s => ?twinReady, fun _ => framed_joinFailed,
    fun _ => framed_kiosk0EventPost, fun _ => framed_kiosk0Ack, fun s t v => ?logMarkWrite, fun s => ?spiStatus,
    fun s => ?networkBootTimeout, fun s => ?fwHeartbeatIncrement, fun _ t n d => framed_sramScrub n d t,
    fun s t n d => ?ddrPatrolScrub, fun s => ?ddrRetrain, fun _ => framed_holdoverLong, fun s t b => ?crystalDelayEnd,
    fun s t v => ?fltNfaultWrite, fun _ => framed_nfaultPulseEnd, fun _ => framed_sessionAuthTimeout,
    fun _ => framed_sessionLockoutEnd⟩
  case contextTransferComplete => exact framed_next (g := fun t => { s with place := t.place }) rfl t
  case stageDownstreamFrame => exact framed_if (g := fun t => { s with drv := t.drv, free := t.free }) rfl rfl t
  case stageFrameMissing => exact framed_next (g := fun t => { s with drv := t.drv }) rfl t
  case stageCurrentLimit => exact framed_next (g := fun t => { s with drv := t.drv }) rfl t
  case twinRunInEnd => exact framed_if (g := fun t => { s with twin := t.twin }) rfl rfl
  case seedItemTimeout => exact framed_if (g := fun t => { s with twin := t.twin }) rfl rfl t
  case twinReady => exact framed_if (g := fun t => { s with twin := t.twin }) rfl rfl
  case logMarkWrite => exact framed_if (g := fun t => s.onHost fun _ => t.host) rfl rfl t
  case spiStatus => exact framed_if (g := fun t => s.onHost fun _ => t.host) rfl rfl
  case networkBootTimeout => exact framed_if (g := fun t => s.onHost fun _ => t.host) rfl rfl
  case fwHeartbeatIncrement => exact framed_if (g := fun t => s.onHost fun _ => t.host) rfl rfl
  case ddrPatrolScrub => exact framed_if (g := fun t => { s with mat := t.mat }) rfl rfl t
  case ddrRetrain => exact framed_if (g := fun t => { s with mat := t.mat }) rfl rfl
  case crystalDelayEnd => exact framed_ite (g := fun t => { s with clk := t.clk }) (framed_if rfl rfl) (framed_next rfl) t
  case fltNfaultWrite => exact framed_next (g := fun t => { s with flt := t.flt }) rfl t

end Sys2Proof.Proofs
end
